-- ==== Sys2Proof/Word.lean ====
section
/-! DEFINITION. The word types of the AP96 and their plainest arithmetic (R1, R48, R190). -/

namespace Sys2Proof

/-- One byte of memory. -/
abbrev Byte := BitVec 8

/-- A scalar register, a granule of code, a system register (R1, R40). -/
abbrev Word := BitVec 64

/-- A vector register of 1 KiB, element 0 in the lowest bits (R190). -/
abbrev VReg := BitVec 8192

/-- A mask register of 1,024 bits (R190). -/
abbrev MReg := BitVec 1024

/-- An accumulator tile of 32 × 64 FP32 elements, element (i, j) at bit 32 × (64 i + j) (R238, R248). -/
abbrev AccTile := BitVec 65536

end Sys2Proof
end

