-- ==== Sys2Proof/Config.lean ====
section
/-! DEFINITION. What the part fixes (R5, R7, R158) and the values the manual leaves open (R4). -/

namespace Sys2Proof.Config

/-- Tiles of the package (R5). -/
def tiles : Nat := 1536
/-- Islands of the package (R5). -/
def islands : Nat := 96
/-- Bytes of a staging buffer (R155). -/
def stagingBytes : Nat := 0x100000
/-- Bytes of one vault bank: 8,192 rows of 1 KiB (R158). -/
def bankBytes : Nat := 0x800000
/-- Bytes of one vault (R5). -/
def vaultBytes : Nat := 0x10000000
/-- Bytes of code-address space (R35). -/
def codeBytes : Nat := 0x400000

/-- An undefined value of R4: nothing constrains it. The first argument is the counter `State.freeCtr`,
the second names the place within one step that reads it (log entry 3). -/
opaque free : Nat → Nat → Nat

/-- The constant 0 to 3 by which a layer counter differs from sr.pcc (R184), by wake number, tile and
counter (0 for cl, 1 to 4 for dl0 to dl3); log entry 12. -/
opaque layerOffset : Nat → Nat → Nat → Nat

/-- The second-tier channel or port that serves a 64 KiB frame (R371); log entry 22. -/
opaque tier2Unit : Nat → Nat

/-- The X448 agreement of a quote exchange, expanded with SHAKE256 (R355); log entry 8. -/
opaque sessionKey : (boot port request : Nat) → Nat

/-- The format versions of a configuration record that the mask ROM accepts (R351, R352); log entry 8. -/
opaque recordVersion : Nat → Bool

/-- The vendor root key held in mask ROM (R352), and the digest of the mask ROM (R355). -/
opaque vendorKey : Nat
opaque maskRomDigest : Nat

/-- The power-up state of the PUF SRAM after correction by the helper data (R354); log entry 8. -/
opaque pufValue : (boot helper : Nat) → List Byte

/-- Whether an AES-256-GCM message authenticates under a session key (R359). -/
opaque gcmValid : (key message : Nat) → Bool

/-- AES key unwrap of RFC 3394 under a session key; none when its integrity check fails (R361). -/
opaque unwrapKey : (session wrapped : Nat) → Option Nat

/-- The 64 random bits drawn at a boot (R355). -/
opaque bootNonce : Nat → Nat

end Sys2Proof.Config
end

