-- ==== Sys2Proof/Syntax/Formats.lean ====
section
/-! DEFINITION. The operand formats of the slot words (R48, R49) and the data that outside steps carry. -/

namespace Sys2Proof

/-- The eight slots in slot order (R6, R39). -/
inductive Slot where
  | s | v0 | v1 | m | c0 | c1 | d | x
  deriving DecidableEq, Repr

/-- Number of a slot in frames (R151) and in slot order (R28). -/
def Slot.num : Slot → Nat
  | .s => 0 | .v0 => 1 | .v1 => 2 | .m => 3 | .c0 => 4 | .c1 => 5 | .d => 6 | .x => 7

/-- The slot of a number below 8. -/
def Slot.ofNum : Nat → Slot
  | 0 => .s | 1 => .v0 | 2 => .v1 | 3 => .m | 4 => .c0 | 5 => .c1 | 6 => .d | _ => .x

/-- The guard of a 64-bit slot word (R46). -/
structure Guard where
  gn : Bool
  gp : BitVec 3
  deriving DecidableEq, Repr

/-- The guard that always passes (R46). -/
def Guard.always : Guard := ⟨false, 0⟩

structure SR where (d a b : BitVec 5) deriving DecidableEq, Repr
structure SI where (d a : BitVec 5) (imm : BitVec 40) deriving DecidableEq, Repr
structure SP where (pd : BitVec 3) (a b : BitVec 5) deriving DecidableEq, Repr
structure SPI where (pd : BitVec 3) (a : BitVec 5) (imm : BitVec 40) deriving DecidableEq, Repr
structure SQ where (pd pa pb : BitVec 3) deriving DecidableEq, Repr
structure SG where (g f : BitVec 4) (a : BitVec 5) (imm : BitVec 37) deriving DecidableEq, Repr
structure SL where (k : BitVec 3) (a : BitVec 5) (imm : BitVec 32) deriving DecidableEq, Repr
structure SB where (t : BitVec 3) (a : BitVec 5) (imm : BitVec 42) deriving DecidableEq, Repr
structure SM where (d : BitVec 5) (g : BitVec 4) (size : BitVec 3) (sx : Bool) (b : BitVec 5) deriving DecidableEq, Repr
structure SS where (d : BitVec 5) (sys : BitVec 12) deriving DecidableEq, Repr
structure VR where
  (d a b c : BitVec 9) (m : BitVec 4) (me : Bool) (rm : BitVec 2) (ty : BitVec 3)
  deriving DecidableEq, Repr
structure VK where (md : BitVec 4) (a b : BitVec 9) (m : BitVec 4) (me : Bool) (ty : BitVec 3) deriving DecidableEq, Repr
structure VQ where (md ma mb : BitVec 4) (d : BitVec 5) (ty : BitVec 3) deriving DecidableEq, Repr
structure VM where
  (d : BitVec 9) (g : BitVec 4) (x : BitVec 9) (m : BitVec 4) (me : Bool) (ty : BitVec 3) (n : BitVec 2)
  deriving DecidableEq, Repr
structure VD where (q : BitVec 2) (a b c e : BitVec 9) (n : BitVec 2) (m : BitVec 4) deriving DecidableEq, Repr
structure VC where
  (d a : BitVec 9) (src dst : BitVec 4) (rm : BitVec 2) (sat : Bool) (m : BitVec 4) (me : Bool)
  deriving DecidableEq, Repr
structure MG where (x : BitVec 9) (g fmt : BitVec 4) deriving DecidableEq, Repr
structure MA where (acc : BitVec 6) (fmt : BitVec 4) deriving DecidableEq, Repr
structure MD where (acc : BitVec 6) (q : BitVec 2) (g : BitVec 4) deriving DecidableEq, Repr
structure MR where (acc : BitVec 6) (v : BitVec 9) (fmt : BitVec 4) (rm : BitVec 2) deriving DecidableEq, Repr
structure MS where (pd cond : BitVec 3) deriving DecidableEq, Repr
structure CW where
  (gd ga : BitVec 4) (n : BitVec 16) (fmt gw : BitVec 4) (aw : Bool) (fill : BitVec 8) (df : BitVec 2)
  deriving DecidableEq, Repr
structure DA where (bank : BitVec 5) (row : BitVec 13) deriving DecidableEq, Repr
structure DC where (bank : BitVec 5) (g col : BitVec 4) (cstep : Bool) deriving DecidableEq, Repr
structure XV where (d a : BitVec 9) (low : BitVec 8) deriving DecidableEq, Repr
structure XF where (f : Bool) (q : BitVec 2) (ratio : BitVec 3) deriving DecidableEq, Repr

/-- The four items of a submission or of a descriptor slot (R319); `record` is the 17 words of R14. -/
structure Submission where
  record : List Word
  root : Word
  param : Word
  session : Word
  deriving DecidableEq, Repr

/-- The addresses of one re-plan point in one schedule variant (R181). -/
structure ReplanEntry where
  cls : Nat
  addr : Nat
  bodies : List (Nat × Nat)
  targets : List (Nat × Nat)
  deriving DecidableEq, Repr

/-- One placement variant of an image (R22, R181, R302): schedule code by class as granules, the
correspondence records of its re-plan points, and the link table as 64-bit words. -/
structure Variant where
  key : Word
  table : List (BitVec 16)
  links : List Word
  scheds : List (Nat × List Word)
  start : Nat
  ckpt : Nat
  replans : List (List ReplanEntry)
  deriving DecidableEq, Repr

/-- An image as the loader takes it (R22, R320), with its preload regions (R326). -/
structure Image where
  variants : List Variant
  stage : List (Nat × List Byte)
  deriving DecidableEq, Repr

/-- What the protection of a store finds as it is read (R158, R372): nothing, an error that it has corrected, or one that it
cannot. -/
inductive Ecc where
  | clean | corrected | bad
  deriving DecidableEq, Repr

/-- The configuration record of the module flash (R352); `helper` is the PUF helper data, and `trims` the trims. Its digest is
not a field: it is computed over what stands before the signature. -/
structure ConfigRecord where
  version : Nat
  grade : Nat
  trims : List Byte
  helper : List Byte
  identity : Nat
  minFirmware : Nat
  cxl : Bool
  keys : List (Nat × Bool)
  sig : Nat
  deriving DecidableEq, Repr

/-- A pushed firmware image (R353). -/
structure Firmware where
  version : Nat
  image : List Byte
  sig : Nat
  deriving DecidableEq, Repr

/-- What self-test finds (R351, R374, R371): disabled tiles, failed vaults, bad MX links, and the
installed second-tier capacity in 64 KiB frames. -/
structure SelfTest where
  tiles : List Nat
  vaults : List Nat
  links : List Nat
  capacity : Nat
  deriving DecidableEq, Repr

/-- What a requested fetch fills (R60): a line of the window or a target buffer entry. -/
inductive FetchOf where
  | line (addr : Nat)
  | entry (t : BitVec 3)
  deriving DecidableEq, Repr

/-- A temperature sensor (R347): a vault layer's, an island's compute-die sensor, or a stack's base-die sensor. -/
inductive Sensor where
  | layer (tile layer : Nat)
  | compute (island : Nat)
  | base (stack : Nat)
  deriving DecidableEq, Repr

/-- What a barrier message tells of a level (R301, R369): an arrival, a release, the loss of the member of a role, or that an
arrival or a release cannot travel because a link further along the tree is down. -/
inductive BarrierNews where
  | arrival | release
  | lost (role : Nat)
  | cut
  deriving DecidableEq, Repr

/-- What a protected message of a port asks for (R357, R359): an owner's command, the throttle command, which gives four divisor
floors to a set of islands (R334), a read of the service status or of the service log, or what another step acts on. -/
inductive LanternUse where
  | command | service | log | other
  | throttle (islands : List Nat) (ctl mat vec copy : BitVec 4)
  deriving DecidableEq, Repr

/-- Where the wake pattern is seen: first on one port, or on both within one detector period (R350). -/
inductive WakeOn where
  | one (port : Nat)
  | both
  deriving DecidableEq, Repr

/-- What is read through the status interface: a launch's record, or the frames of its stopped task on a tile (R343, R345). -/
inductive StatusRead where
  | record (serial : Nat)
  | frames (serial tile : Nat)
  deriving DecidableEq, Repr

/-- The notices of R333. -/
inductive Notice where
  | pre | hold
  | thr (ctl mat vec copy : BitVec 4)
  deriving DecidableEq, Repr

/-- A peer or host access (R262, R360, R370): plain by virtual address, or through the aperture. -/
inductive PeerOp where
  | read (root : Word) (va len : Nat)
  | write (root : Word) (va : Nat) (bytes : List Byte)
  | apertureRead (addr len : Nat)
  | apertureWrite (addr : Nat)
  deriving DecidableEq, Repr

/-- The world a command assigns: of a tile or of a port (R361). -/
inductive WorldOf where
  | tile (g : Nat)
  | port (p : Nat)
  deriving DecidableEq, Repr

/-- What the payload of a flit of kind 2 or 3 says, whose layout the manual does not give (R367, log entry 111): a barrier message
with the pod rank that it comes from, a peer access, or the answer to one. -/
inductive FlitUse where
  | none
  | barrier (serial level rank : Nat) (what : BarrierNews)
  | peer (op : PeerOp)
  | done
  | bytes (bs : List Byte)
  | refused (code : Nat)
  deriving DecidableEq, Repr

/-- An MX flit (R367): the words of its bytes 0 to 7 and 72 to 79, and the bytes 8 to 71 between them. -/
structure Flit where
  head : Word
  payload : List Byte
  crc : Word
  means : FlitUse := .none
  deriving DecidableEq, Repr

end Sys2Proof
end

