-- ==== Sys2Proof/Syntax.lean ====
section
/-! DEFINITION. The instructions: one constructor per row of spec/opcode_table.json (R50 to R56 and the
steps of the machine). A slot operation carries the fields of its format; its guard stands beside it in the
slot word (R46). The slot operations that carry fields stand first. A step of the machine carries what names its occurrence: `t` is a global tile index. -/

namespace Sys2Proof

/-- One operation of a slot word, or one step of the machine. -/
inductive Instr where
  /-- R112: d ← a + b, 64-bit wrapping. -/
  | add (f : SR)
  /-- R112: d ← a − b. -/
  | sub (f : SR)
  /-- R112: Low 64 bits of a × b. -/
  | mul (f : SR)
  /-- R112: High 64 bits of the signed product. -/
  | mulhs (f : SR)
  /-- R112: High 64 bits of the unsigned product. -/
  | mulhu (f : SR)
  /-- R112: Signed quotient truncated toward zero. -/
  | div (f : SR)
  /-- R112: Unsigned quotient. -/
  | divu (f : SR)
  /-- R112: Signed remainder. -/
  | rem (f : SR)
  /-- R112: Unsigned remainder. -/
  | remu (f : SR)
  /-- R112: Bitwise AND. -/
  | and (f : SR)
  /-- R112: Bitwise OR. -/
  | or (f : SR)
  /-- R112: Bitwise XOR. -/
  | xor (f : SR)
  /-- R112: a & ~b. -/
  | andn (f : SR)
  /-- R112: Shift left by b[5:0]. -/
  | shl (f : SR)
  /-- R112: Logical shift right by b[5:0]. -/
  | shr (f : SR)
  /-- R112: Arithmetic shift right by b[5:0]. -/
  | sar (f : SR)
  /-- R112: Rotate left by b[5:0]. -/
  | rol (f : SR)
  /-- R112: Signed minimum. -/
  | min (f : SR)
  /-- R112: Signed maximum. -/
  | max (f : SR)
  /-- R112: Unsigned minimum. -/
  | minu (f : SR)
  /-- R112: Unsigned maximum. -/
  | maxu (f : SR)
  /-- R112: Count of leading zero bits. -/
  | clz (f : SR)
  /-- R112: Count of trailing zero bits. -/
  | ctz (f : SR)
  /-- R112: Count of one bits. -/
  | popc (f : SR)
  /-- R112: Bytes of a in reverse order. -/
  | bswap (f : SR)
  /-- R112: a + sign-extended immediate. -/
  | addi (f : SI)
  /-- R112: a − immediate. -/
  | subi (f : SI)
  /-- R112: Low product with an immediate. -/
  | muli (f : SI)
  /-- R112: High signed product with an immediate. -/
  | mulhsi (f : SI)
  /-- R112: High unsigned product with an immediate. -/
  | mulhui (f : SI)
  /-- R112: Signed division by an immediate. -/
  | divi (f : SI)
  /-- R112: Unsigned division by an immediate. -/
  | divui (f : SI)
  /-- R112: Signed remainder by an immediate. -/
  | remi (f : SI)
  /-- R112: Unsigned remainder by an immediate. -/
  | remui (f : SI)
  /-- R112: AND with an immediate. -/
  | andi (f : SI)
  /-- R112: OR with an immediate. -/
  | ori (f : SI)
  /-- R112: XOR with an immediate. -/
  | xori (f : SI)
  /-- R112: a & ~immediate. -/
  | andni (f : SI)
  /-- R112: Shift left by an immediate of 0–63. -/
  | shli (f : SI)
  /-- R112: Logical shift right by an immediate. -/
  | shri (f : SI)
  /-- R112: Arithmetic shift right by an immediate. -/
  | sari (f : SI)
  /-- R112: Rotate left by an immediate. -/
  | roli (f : SI)
  /-- R112: Signed minimum with an immediate. -/
  | mini (f : SI)
  /-- R112: Signed maximum with an immediate. -/
  | maxi (f : SI)
  /-- R112: Unsigned minimum with an immediate. -/
  | minui (f : SI)
  /-- R112: Unsigned maximum with an immediate. -/
  | maxui (f : SI)
  /-- R113: Loads the upper 24 bits of a constant over a[39:0]. -/
  | lih (f : SI)
  /-- R114: Predicate ← a = b. -/
  | cmpeq (f : SP)
  /-- R114: Predicate ← a ≠ b. -/
  | cmpne (f : SP)
  /-- R114: Predicate ← signed a < b. -/
  | cmplt (f : SP)
  /-- R114: Predicate ← signed a ≤ b. -/
  | cmple (f : SP)
  /-- R114: Predicate ← unsigned a < b. -/
  | cmpltu (f : SP)
  /-- R114: Predicate ← unsigned a ≤ b. -/
  | cmpleu (f : SP)
  /-- R114: Predicate ← a = immediate. -/
  | cmpeqi (f : SPI)
  /-- R114: Predicate ← a ≠ immediate. -/
  | cmpnei (f : SPI)
  /-- R114: Predicate ← signed a < immediate. -/
  | cmplti (f : SPI)
  /-- R114: Predicate ← signed a ≤ immediate. -/
  | cmplei (f : SPI)
  /-- R114: Predicate ← unsigned a < immediate. -/
  | cmpltui (f : SPI)
  /-- R114: Predicate ← unsigned a ≤ immediate. -/
  | cmpleui (f : SPI)
  /-- R114: Predicate AND. -/
  | pand (f : SQ)
  /-- R114: Predicate OR. -/
  | por (f : SQ)
  /-- R114: Predicate XOR. -/
  | pxor (f : SQ)
  /-- R114: Predicate NOT. -/
  | pnot (f : SQ)
  /-- R116: Writes one address generator field with s[a] + imm. -/
  | agset (f : SG)
  /-- R116: Reads one address generator field into a scalar. -/
  | agget (f : SG)
  /-- R118: Activates a loop level with a count and a body start. -/
  | loop (f : SL)
  /-- R122: Fills a target buffer entry for a relative code address. -/
  | prep (f : SB)
  /-- R122: Fills a target buffer entry for s[a] + imm × 8. -/
  | prepr (f : SB)
  /-- R124: Loads 1–8 bytes from own or island staging. -/
  | ld (f : SM)
  /-- R124: Stores 1–8 bytes to own or island staging. -/
  | st (f : SM)
  /-- R126: No-return atomic add at the home. -/
  | stadd (f : SM)
  /-- R126: No-return atomic AND. -/
  | stand (f : SM)
  /-- R126: No-return atomic OR. -/
  | stor (f : SM)
  /-- R126: No-return atomic XOR. -/
  | stxor (f : SM)
  /-- R126: No-return atomic signed minimum. -/
  | stmin (f : SM)
  /-- R126: No-return atomic signed maximum. -/
  | stmax (f : SM)
  /-- R126: No-return atomic unsigned minimum. -/
  | stminu (f : SM)
  /-- R126: No-return atomic unsigned maximum. -/
  | stmaxu (f : SM)
  /-- R126: No-return atomic FP add. -/
  | stfadd (f : SM)
  /-- R126: No-return atomic FP minimum. -/
  | stfmin (f : SM)
  /-- R126: No-return atomic FP maximum. -/
  | stfmax (f : SM)
  /-- R126: Returning atomic add. -/
  | ldadd (f : SM)
  /-- R126: Returning atomic AND. -/
  | ldand (f : SM)
  /-- R126: Returning atomic OR. -/
  | ldor (f : SM)
  /-- R126: Returning atomic XOR. -/
  | ldxor (f : SM)
  /-- R126: Returning atomic signed minimum. -/
  | ldmin (f : SM)
  /-- R126: Returning atomic signed maximum. -/
  | ldmax (f : SM)
  /-- R126: Returning atomic unsigned minimum. -/
  | ldminu (f : SM)
  /-- R126: Returning atomic unsigned maximum. -/
  | ldmaxu (f : SM)
  /-- R126: Returning atomic FP add. -/
  | ldfadd (f : SM)
  /-- R126: Returning atomic FP minimum. -/
  | ldfmin (f : SM)
  /-- R126: Returning atomic FP maximum. -/
  | ldfmax (f : SM)
  /-- R126: Atomic exchange returning the old value. -/
  | swp (f : SM)
  /-- R126: Atomic compare and swap. -/
  | cas (f : SM)
  /-- R131: Opens an atomic line region for one 128-byte line. -/
  | albegin (g : BitVec 4)
  /-- R133: Stalls on an arrival word until its generation differs from s[b]. -/
  | waita (f : SM)
  /-- R142: Reads a system register. -/
  | mfsr (f : SS)
  /-- R142: Writes a system register. -/
  | mtsr (f : SS)
  /-- R142: Sets the bits of a system register. -/
  | mssr (f : SS)
  /-- R142: Clears the bits of a system register. -/
  | mcsr (f : SS)
  /-- R140: Requests open or guarded mode and the early-read checker, after a drain. -/
  | mode (gm er : Bool)
  /-- R141: Sets an engine clock divisor from the next bundle. -/
  | clkdiv (eng : BitVec 2) (n1 : BitVec 3)
  /-- R135: Stalls until the selected kinds of earlier operation have performed. -/
  | fence (sel : BitVec 2)
  /-- R134: Stalls until the selected dynamic-engine status holds. -/
  | waits (sel : BitVec 4)
  /-- R149: Raises software trap 0x80 with an immediate. -/
  | trap (imm : BitVec 16)
  /-- R136: Writes a predicate with the OR of the selected notice bits. -/
  | yieldchk (pd mask : BitVec 3)
  /-- R195: Floating-point add. -/
  | vadd (f : VR)
  /-- R195: Floating-point subtract. -/
  | vsub (f : VR)
  /-- R195: Floating-point multiply. -/
  | vmul (f : VR)
  /-- R195: Fused a × b + c. -/
  | vfma (f : VR)
  /-- R195: Fused a × b − c. -/
  | vfms (f : VR)
  /-- R195: Fused −(a × b) + c. -/
  | vfnma (f : VR)
  /-- R195: minimumNumber. -/
  | vmin (f : VR)
  /-- R195: maximumNumber. -/
  | vmax (f : VR)
  /-- R195: Clears the sign bit. -/
  | vabs (f : VR)
  /-- R195: Inverts the sign bit. -/
  | vneg (f : VR)
  /-- R195: Floating-point divide. -/
  | vdiv (f : VR)
  /-- R195: Square root. -/
  | vsqrt (f : VR)
  /-- R195: Reciprocal. -/
  | vrcp (f : VR)
  /-- R195: Reciprocal square root. -/
  | vrsq (f : VR)
  /-- R195: 2 to the power a. -/
  | vexp2 (f : VR)
  /-- R195: Base-2 logarithm. -/
  | vlog2 (f : VR)
  /-- R197: Integer add modulo 2^k. -/
  | viadd (f : VR)
  /-- R197: Integer subtract. -/
  | visub (f : VR)
  /-- R197: Low bits of the integer product. -/
  | vimul (f : VR)
  /-- R197: Signed integer minimum. -/
  | vimin (f : VR)
  /-- R197: Signed integer maximum. -/
  | vimax (f : VR)
  /-- R197: Unsigned integer minimum. -/
  | viminu (f : VR)
  /-- R197: Unsigned integer maximum. -/
  | vimaxu (f : VR)
  /-- R197: Bitwise AND. -/
  | vand (f : VR)
  /-- R197: Bitwise OR. -/
  | vor (f : VR)
  /-- R197: Bitwise XOR. -/
  | vxor (f : VR)
  /-- R197: Shift left by b mod k. -/
  | vshl (f : VR)
  /-- R197: Logical shift right. -/
  | vshr (f : VR)
  /-- R197: Arithmetic shift right. -/
  | vsar (f : VR)
  /-- R197: Saturating integer add. -/
  | viadds (f : VR)
  /-- R197: Saturating integer subtract. -/
  | visubs (f : VR)
  /-- R198: 128-bit lane add with carry. -/
  | vadd128 (f : VR)
  /-- R199: Mask ← a = b. -/
  | vcmpeq (f : VK)
  /-- R199: Mask ← a ≠ b. -/
  | vcmpne (f : VK)
  /-- R199: Mask ← a < b, signalling. -/
  | vcmplt (f : VK)
  /-- R199: Mask ← a ≤ b, signalling. -/
  | vcmple (f : VK)
  /-- R199: Mask ← either operand is NaN. -/
  | vcmpun (f : VK)
  /-- R199: Mask ← signed integer a < b. -/
  | vicmplt (f : VK)
  /-- R199: Mask ← unsigned integer a < b. -/
  | vicmpltu (f : VK)
  /-- R200: Mask AND. -/
  | mand (f : VQ)
  /-- R200: Mask OR. -/
  | mor (f : VQ)
  /-- R200: Mask XOR. -/
  | mxor (f : VQ)
  /-- R200: Mask NOT. -/
  | mnot (f : VQ)
  /-- R200: Scalar ← number of set mask bits. -/
  | mpop (f : VQ)
  /-- R200: Sets the low s[d] mask bits. -/
  | mset (f : VQ)
  /-- R201: Selects elements by mask. -/
  | vsel (f : VR)
  /-- R201: Permutes elements by halfword indices. -/
  | vperm (f : VR)
  /-- R201: Broadcasts a scalar to the elements. -/
  | vbcst (f : VR)
  /-- R201: Packs the active elements to the bottom. -/
  | vcompact (f : VR)
  /-- R201: Spreads elements to the active positions. -/
  | vexpand (f : VR)
  /-- R201: Writes a scalar into one element. -/
  | vmovs (f : VR)
  /-- R202: Pairwise tree sum. -/
  | vrsum (f : VR)
  /-- R202: Tree maximum. -/
  | vrmax (f : VR)
  /-- R202: Tree minimum. -/
  | vrmin (f : VR)
  /-- R202: Inclusive prefix sums. -/
  | vscan (f : VR)
  /-- R202: Integer sum with wrap. -/
  | virsum (f : VR)
  /-- R203: Converts between formats. -/
  | vcvt (f : VC)
  /-- R204: Quantizes to INT4G blocks. -/
  | vqnt (f : VC)
  /-- R205: Loads 1–4 registers from staging. -/
  | vld (f : VM)
  /-- R205: Stores the active elements of 1–4 registers to staging. -/
  | vst (f : VM)
  /-- R206: Gathers elements from staging by index. -/
  | vgath (f : VM)
  /-- R206: Scatters elements to staging by index. -/
  | vscat (f : VM)
  /-- R207: Per-lane no-return atomic add. -/
  | vstadd (f : VM)
  /-- R207: Per-lane no-return atomic minimum. -/
  | vstmin (f : VM)
  /-- R207: Per-lane no-return atomic maximum. -/
  | vstmax (f : VM)
  /-- R207: Per-lane no-return atomic FP add. -/
  | vstfadd (f : VM)
  /-- R207: Per-lane no-return atomic FP minimum. -/
  | vstfmin (f : VM)
  /-- R207: Per-lane no-return atomic FP maximum. -/
  | vstfmax (f : VM)
  /-- R207: Per-lane returning atomic add. -/
  | vldadd (f : VM)
  /-- R207: Per-lane returning atomic minimum. -/
  | vldmin (f : VM)
  /-- R207: Per-lane returning atomic maximum. -/
  | vldmax (f : VM)
  /-- R208: Philox-4×32-10 random words per lane. -/
  | vrng (f : VR)
  /-- R210: Appends the masked lanes to a deferral queue. -/
  | defer (f : VD)
  /-- R211: Pops 256 entries from a deferral queue. -/
  | drain (f : VD)
  /-- R211: Pops up to 256 entries and writes a mask of them. -/
  | drainp (f : VD)
  /-- R213: Decimal add. -/
  | dadd (f : VR)
  /-- R213: Decimal subtract. -/
  | dsub (f : VR)
  /-- R213: Decimal multiply. -/
  | dmul (f : VR)
  /-- R213: Decimal divide. -/
  | ddiv (f : VR)
  /-- R213: Decimal quantize. -/
  | dqua (f : VR)
  /-- R214: Decimal equality compare. -/
  | dcmpeq (f : VK)
  /-- R214: Decimal less-than compare. -/
  | dcmplt (f : VK)
  /-- R214: Decimal less-or-equal compare. -/
  | dcmple (f : VK)
  /-- R215: Converts decimal64 to binary. -/
  | dcvtb (f : VC)
  /-- R215: Converts binary to decimal64. -/
  | dcvtd (f : VC)
  /-- R236: Gathers the operand latch rows and scales from staging. -/
  | mgath (f : MG)
  /-- R237: Loads the weight latch and sets the weight tag. -/
  | mldw (f : MG)
  /-- R238: Dense multiply-accumulate into an accumulator tile. -/
  | mma (f : MA)
  /-- R241: Appends a denomination accumulate request for one row. -/
  | mmad (f : MD)
  /-- R248: Reads an accumulator tile into vector registers. -/
  | mrd (f : MR)
  /-- R248: Writes an accumulator tile from vector registers. -/
  | mwr (f : MR)
  /-- R249: Zeroes an accumulator tile. -/
  | mzero (f : MR)
  /-- R249: Writes a predicate with a matrix engine status. -/
  | mstat (f : MS)
  /-- R267: Copies units within own staging. -/
  | cloc (f : CW)
  /-- R267: Copies units to an island partner's staging. -/
  | cisl (f : CW)
  /-- R267: Copies units from global memory to staging. -/
  | cgrd (f : CW)
  /-- R267: Copies units from staging to global memory. -/
  | cgwr (f : CW)
  /-- R269: Copies units inside a window and pads the rest. -/
  | cfill (f : CW)
  /-- R271: Transposes 4 KiB tiles. -/
  | cxpos (f : CW)
  /-- R272: Decodes INT4G or MX global data to FP32 or BF16. -/
  | cdec (f : CW)
  /-- R273: Appends units to a decoder FIFO. -/
  | cfeed (f : CW)
  /-- R274: Copies rows selected by an index list. -/
  | cgath (f : CW)
  /-- R167: Opens a row of an owned bank. -/
  | act (f : DA)
  /-- R168: Reads one column of the open row into staging. -/
  | rd (f : DC)
  /-- R168: Writes one column of the open row from staging. -/
  | wr (f : DC)
  /-- R169: Closes a bank. -/
  | pre (b : BitVec 5)
  /-- R170: Refreshes the next eight rows of a closed bank. -/
  | refpb (b : BitVec 5)
  /-- R217: Expands INT4G blocks to 512 FP32 values. -/
  | xunp4 (f : XV)
  /-- R221: Appends a DRF row decode request. -/
  | xdrf (f : XF)
  /-- R218: Transposes a register as 16 rows. -/
  | xpose (f : XV)
  /-- R219: Converts formats with RNE. -/
  | xcvt (f : XV)
  /-- R220: Encodes FP32 elements as an MX row. -/
  | xmx (f : XV)
  /-- R42: The sequencer issues a bundle repeat + 1 times, re-issuing the omitted slots from their latches, or suppresses it when its iteration flag fails. -/
  | bundleIssue (t : Nat) (err : Ecc)
  /-- R44: After the bundle's last issue, a jump through a target buffer entry is taken when its predicate holds, and the loop nest is deactivated. -/
  | transferJump (t : Nat) (xt xp : BitVec 3) (xn : Bool)
  /-- R44: A call is taken like a jump and also writes s31 with the sequential return address. -/
  | transferCall (t : Nat) (xt xp : BitVec 3) (xn : Bool)
  /-- R119: The loop-end marker advances the marked loop levels innermost first, replaying a body start or exiting the level. -/
  | loopEnd (t : Nat) (lend : BitVec 6)
  /-- R137: A sync bundle waits, after its last issue, for arrival on the arrival line of its level. -/
  | sync (t : Nat) (slev : BitVec 3)
  /-- R291: Arrival is signalled on the first island cycle on which every outstanding-operation condition of the level's scope holds. -/
  | syncArrival (t : Nat)
  /-- R138: A yield-point bundle restarts the yield count, applies a pending throttle and acts on a pending pre-emption notice. -/
  | yield (t : Nat)
  /-- R139: A re-plan-point bundle acts as a yield point and restarts the re-plan count; it swaps schedule variants if rcls is set. -/
  | rplan (t : Nat)
  /-- R60: A requested fetch line, or a target buffer fill, arrives and ends any fetch stall. -/
  | lineArrival (t : Nat) (what : FetchOf)
  /-- R27: An issued operation's result lands as a whole by its latency bound and sets its flags. -/
  | resultLanding (t id : Nat)
  /-- R172: An RD's column is written to staging on issue + 28; an uncorrectable error then raises trap 0x70. -/
  | vaultRdLanding (t id : Nat) (err : Ecc)
  /-- R152: A stopping trap writes the frame once every issued operation has landed, and the trap is reported to the dispatcher. -/
  | taskStop (t : Nat)
  /-- R153: A guarded arithmetic trap with a handler enabled writes the frame and trap record, idles the latches and loops, and enters the handler. -/
  | handlerEntry (t : Nat)
  /-- R31: The island-cycle count since the last yield point reaches yield_max + 1, raising trap 0x0E. -/
  | yieldIntervalExpiry (t : Nat)
  /-- R31: The pcc count since the last re-plan point exceeds replan_max × 1,750, raising trap 0x1E. -/
  | replanIntervalExpiry (t : Nat)
  /-- R133: A WAITA stall ends on a generation change, on nearing the yield limit or on a notice, and writes the generation. -/
  | waitaComplete (t : Nat)
  /-- R134: A WAITS stall ends when the selected engine status holds. -/
  | waitsComplete (t : Nat)
  /-- R135: A FENCE stall ends when every selected earlier operation has performed or faulted. -/
  | fenceComplete (t : Nat)
  /-- R140: After the static drain, the next bundle issues in the mode that MODE requested. -/
  | modeSwitch (t : Nat)
  /-- R154: After its drain, TRET restores state from the frame and resumes, then takes any held V1 or X trap. -/
  | tretResume (t : Nat)
  /-- R148: After every issued operation has finished, an ended task joins its gang's implicit exit barrier. -/
  | endExit (t : Nat)
  /-- R292: When every gang member has ended, the exit barrier releases and the tiles and owned banks are released. -/
  | exitBarrierRelease (serial island : Nat)
  /-- R293: An island-domain barrier releases every member on island cycle a + 3 and raises their epoch counts. -/
  | islandBarrierRelease (serial lev group : Nat)
  /-- R298: The Lamplighter fixes the release base T0 after the group's last arrival. -/
  | lamplighterReleaseBase (serial lev group : Nat)
  /-- R299: Phase k is signalled at Sig(k), and each island of that phase holding members resumes on one island cycle. -/
  | lamplighterPhaseSignal (serial lev group island : Nat)
  /-- R301: After an abnormal end, members waiting at, or later reaching, a sync of an affected level raise trap 0x50. -/
  | memberLostTrap (t : Nat)
  /-- R222: The decoder starts the next XDRF request and consumes one DRF row from its FIFO. -/
  | drfRowDecode (t : Nat)
  /-- R223: The decoder emits one queue entry when the queue has room, checking the expansion ratio. -/
  | decoderEntryEmit (t : Nat)
  /-- R225: A row error or ratio violation raises its trap on the next island cycle, naming slot X. -/
  | decoderTrap (t : Nat)
  /-- R242: The matrix engine starts the next MMAD request once the previous one has ended. -/
  | mmadRequestStart (t : Nat)
  /-- R242: An MMAD request pops one queue entry: a position, a group token that accumulates, or a row token that ends the request. -/
  | mmadEntryPop (t : Nat)
  /-- R246: One 64-byte activation row is read from staging for a consumed position. -/
  | mmadActivationRead (t pos : Nat)
  /-- R245: An activation row outside the request's limit raises trap 0x4A on the next island cycle. -/
  | mmadFaultTrap (t : Nat)
  /-- R256: A global access walks the page tables from L3 and checks validity, form, world, key, write permission and format. -/
  | translationWalk (t id : Nat)
  /-- R268: One unit of a global copy performs, and is counted into its arrival word if it has one. -/
  | globalCopyUnitPerform (t id unit : Nat)
  /-- R273: A CFEED unit enters its decoder FIFO once its data has arrived and the FIFO has room. -/
  | cfeedUnitEntry (t id : Nat)
  /-- R279: A translation, world, key, host-window or second-tier fault is raised on the next island cycle, and the engines retain their state. -/
  | globalFaultTrap (t id code : Nat)
  /-- R127: An atomic or atomic line region performs indivisibly at the home of its line. -/
  | atomicPerform (t id : Nat)
  /-- R282: The vector atomic engine starts the next instruction and sends its lanes in lane order. -/
  | vectorAtomicProcess (t : Nat)
  /-- R304: The sender's link port accepts one marked send-window line per island cycle. -/
  | linkLineAccept (t chan : Nat)
  /-- R304: A line is written into the receive window and its full bit is set. -/
  | linkLineDelivery (seq : Nat)
  /-- R306: 65,536 island cycles without a release at the channel's level raise trap 0x52. -/
  | linkSyncIntervalExpiry (t : Nat)
  /-- R307: A line that cannot be delivered because a link is down raises trap 0x53 at the sender. -/
  | linkDeliveryFailure (seq : Nat)
  /-- R369: A pod barrier arrival or release travels one hop up or down the barrier tree. -/
  | barrierMessage (serial lev : Nat) (what : BarrierNews) (rank : Nat)
  /-- R175: A bank reaches a refresh due point and its owed count rises by 1. -/
  | refreshDuePoint (t bank : Nat)
  /-- R176: The idle refresh sequencer closes banks and issues REFPB to the banks it keeps. -/
  | sequencerRefresh (t bank : Nat)
  /-- R178: A vault layer sensor is read every 10 µs and its pend class moves with the thresholds. -/
  | vaultSensorRead (t layer : Nat) (reading : Option Int)
  /-- R180: A sensor is reported failed: sfail is set, pend becomes H, and the service processor is informed. -/
  | sensorFailureReport (which : Sensor)
  /-- R179: 2 ms after a class rise, the layer's applied class takes the new class. -/
  | classLeadExpiry (t layer : Nat)
  /-- R347: A compute-die sensor is read every 10 µs and warnings are reported. -/
  | computeSensorRead (which : Sensor) (reading : Option Int)
  /-- R319: A launch submission is received and checked for acceptance, and receives the next launch serial. -/
  | submission (port disp : Nat) (sub : Submission)
  /-- R333: A pre-emption, hold or throttle notice is set in the task's sr.event. -/
  | noticeDelivery (t : Nat) (n : Notice)
  /-- R325: A granted launch selects its variant, moves pages, writes code and preloads, and sets the task state. -/
  | binding (serial : Nat)
  /-- R260: The tier migration engine moves a page between frames or tiers and switches the entry indivisibly. -/
  | pageMigration (entry frame tier : Nat)
  /-- R9: Once each member's first line has arrived, the gang issues its first bundles on one island cycle. -/
  | gangStart (serial island : Nat)
  /-- R336: After the drain, a suspending task saves its SRAM and state to b31, and its owned banks become held. -/
  | contextSave (t : Nat)
  /-- R341: After the drain, a disp = 1 task clears its loops and notice and continues at the checkpoint entry. -/
  | checkpointPathEntry (t : Nat)
  /-- R339: A suspended launch's tiles rewrite code, restore state, reactivate banks, and the gang issues its next bundles together. -/
  | resume (serial island : Nat) (err : Ecc)
  /-- R281: The owner restarts a stopped gang from its frames, and the stopped engines continue from their retained state. -/
  | gangRestart (port serial : Nat)
  /-- R342: The owner ends a held launch: every task ends and the launch is reported Failed. -/
  | holdEnd (port serial : Nat)
  /-- R344: The owner cancels a launch in any state; it is removed or stopped, and its tiles are released. -/
  | cancel (port serial : Nat)
  /-- R343: The owner releases a stopped task's frames and tile. -/
  | frameRelease (port t : Nat)
  /-- R343: A tile whose frames nobody released is released 1 s after the launch becomes Failed. -/
  | failedTileReleaseTimeout (t : Nat)
  /-- R345: The owner reads a launch status record with its epoch and fault reports. -/
  | launchStatusRead (port : Nat) (what : StatusRead)
  /-- R345: The owner acknowledges a status record, after which it is no longer kept. -/
  | statusAck (port serial : Nat)
  /-- R345: A status record is discarded 10 s after its launch leaves the last running state. -/
  | statusRecordExpiry (serial : Nat)
  /-- R320: An image is loaded and checked for a class-H schedule and valid entries, and a handle is issued. -/
  | imageLoad (port handle : Nat) (img : Image)
  /-- R327: The owner creates or patches a parameter block, making a new version current. -/
  | paramBlockPatch (port handle : Nat) (bytes : List Byte)
  /-- R328: The owner writes a timed table entry or descriptor slot, refused if its time is invalid or past. -/
  | timedTableWrite (port disp index : Nat) (entry : Option (Word × Word)) (slot : Option Submission)
  /-- R329: An entry fires when sr.ptp reaches its start time, submitting its slot and advancing its repeats. -/
  | timedEntryFire (disp index : Nat)
  /-- R330: The owner opens a dispatch trace session in record or replay mode. -/
  | sessionOpen (port num : Nat) (replay : Bool)
  /-- R330: The owner closes a dispatch trace session. -/
  | sessionClose (port num : Nat)
  /-- R350: The passive detector sees the wake pattern, enables the regulators, and boot runs through the record and identity stages. -/
  | wakePattern (on : WakeOn) (record : Option ConfigRecord) (railOk : Bool)
  /-- R353: A pushed firmware image is verified, and self-test then forms the defect map and signature. -/
  | firmwarePush (port : Nat) (fw : Firmware) (found : SelfTest)
  /-- R355: A node sends a nonce and receives a signed quote, with a session key agreement. -/
  | quoteRequest (port nonce : Nat)
  /-- R356: A signed claim is verified and makes its node owner when no owner exists. -/
  | claim (port key sig : Nat)
  /-- R358: The owner names another node's key, which may then claim ownership within 1 s. -/
  | handover (port key : Nat)
  /-- R359: A port message is authenticated under the session key, or discarded and counted. -/
  | lanternMessage (port message : Nat) (use : LanternUse)
  /-- R361: Each stack drops its cached table entries in the named range. -/
  | tableCacheInvalidate (port : Nat) (root : Word) (lo hi : Nat)
  /-- R361: The writer tags of a physical range of pooled frames become zero. -/
  | writerTagClear (port lo hi : Nat)
  /-- R296: The owner writes the Lamplighter configuration word and phase table, refused whole if an entry is at or above P. -/
  | lamplighterWrite (port : Nat) (word : Word) (phases : List (BitVec 5))
  /-- R361: A wrapped key is unwrapped and placed in a key slot, with secure rights required for slots 0–255. -/
  | keyLoad (port slot wrapped : Nat)
  /-- R361: A key slot becomes empty. -/
  | keyErase (port slot : Nat)
  /-- R362: The owner writes one entry of the region table, refused while an access to the region is in flight. -/
  | regionWrite (port stack index : Nat) (w0 w1 : Word)
  /-- R361: The owner sets the world of a free tile or of a port. -/
  | worldAssign (port : Nat) (which : WorldOf) (secure : Bool)
  /-- R368: The owner writes the MX route table and the barrier tree. -/
  | routeWrite (port : Nat) (routes : List (Nat × Nat × Nat)) (parent : Option Nat) (hops : Nat)
  /-- R365: The owner requests an island operating point, which starts a ramp or becomes the held request. -/
  | operatingPointRequest (port island point : Nat)
  /-- R365: A voltage step settles, and the ramp posts its floors, ends, or starts the held request. -/
  | voltageStepComplete (island : Nat)
  /-- R379: A W1C write clears service status bits, which set again while their cause holds. -/
  | serviceClear (port : Nat) (bits : BitVec 8)
  /-- R349: The owner's reset command cancels every launch and removes power. -/
  | packageReset (port : Nat)
  /-- R368: The owner brings a down MX link up again, with a retrain. -/
  | linkUpCommand (port link : Nat)
  /-- R360: The owner opens a host window mapping host-window space to node memory. -/
  | hostWindowOpen (port base size node : Nat)
  /-- R360: The owner writes global memory through a node window; completion is reported once the write has performed. -/
  | nodeWindowWrite (port : Nat) (root : Word) (va : Nat) (bytes : List Byte)
  /-- R360: The owner reads global memory through a node window. -/
  | nodeWindowRead (port : Nat) (root : Word) (va len : Nat)
  /-- R262: The owner opens the read-only decompressing aperture for one translation root. -/
  | apertureOpen (port : Nat) (base : Nat) (root : Word)
  /-- R262: A peer or host access arrives; it is served, decoded through the aperture, or refused by format. -/
  | peerAccess (op : PeerOp)
  /-- R360: An IEEE 1588 message disciplines sr.ptp by a step or a slew. -/
  | ptpMessage (port : Nat) (sec ns : Nat)
  /-- R367: An 80-byte MX flit is received; a CRC failure after FEC takes the link down. -/
  | mxFlitReceive (link : Nat) (flit : Flit) (fecOk : Bool)
  /-- R368: An MX link loses its reference lock and goes down, and its unacknowledged lines fail. -/
  | linkLockLoss (link : Nat)
  /-- R378: A Lantern port loses its link and lan is set. -/
  | lanternLinkLoss (port : Nat)
  /-- R371: A second-tier channel or port goes down, and later accesses through it fault with 0x28. -/
  | secondTierDown (unit : Nat)
  /-- R375: One copy of a remap table is lost and reported; losing both fails the vault. -/
  | remapCopyLoss (t layer : Nat) (shadow : Bool)
  /-- R376: A vault is reported failed: the defect map changes and a bound task takes 0x15 at its next bundle. -/
  | vaultFailure (t : Nat)
  /-- R185: The droop detector stretches one island cycle to at most two reference periods, for every tile of the island alike. -/
  | islandClockStretch (island : Nat)
  /-- R358: A Lantern port that had lost its link regains it, so an owner whose link returns before another claim is verified remains owner, and the lan cause stops holding. -/
  | lanternLinkReturn (port : Nat)
  /-- R368: The retrain of an MX link ordered up by the owner ends within 50 ms, and the link is up and locked again. -/
  | linkRetrainComplete (link : Nat)
  /-- R323: The dispatchers walk the package order of waiting launches, granting or reserving tiles. -/
  | arbitration
  /-- R351: Light absent from both ports for 1 s ends the hold of a stopped boot. -/
  | lightRemovalTimeout
  /-- R358: A handover not claimed within 1 s lapses, and the old owner remains owner. -/
  | handoverTimeout
  /-- R358: The owner's link has been down for 2 s; the loss is reported and the other node may claim. -/
  | ownerLinkLossTimeout
  /-- R45: Makes the S latch idle. -/
  | sNop
  /-- R131: Ships the recorded region to the home as one indivisible access. -/
  | alend
  /-- R148: Ends the task after every issued operation has finished. -/
  | endTask
  /-- R154: Returns from an in-task handler. -/
  | tret
  /-- R45: Makes the V latch idle. -/
  | vNop
  /-- R45: Makes the M latch idle. -/
  | mNop
  /-- R45: Makes the C latch idle. -/
  | cNop
  /-- R166: Makes the D latch idle. -/
  | dNop
  /-- R169: Closes every open owned bank. -/
  | prea
  /-- R216: Makes the X latch idle. -/
  | xNop
  deriving DecidableEq, Repr

end Sys2Proof
end

