-- ==== Sys2Proof/WellFormed.lean ====
section
/-! DEFINITION. Which instructions are well formed: the checks on a word's fields, type and register ranges
(R48 to R56, R112, R113, R116, R118, R124, R126, R133, R134, R135, R191 to R220, R236 to R249, R263), and, for a
step of the machine, that it names a tile, an island, a port or a link that exists (R5). -/

namespace Sys2Proof.Instr

/-- A vector register number names v0 to v383 (R52). -/
def vok (v : BitVec 9) : Bool := v.toNat < 384

/-- An operation without element mask names mask 0 (R191). -/
def mok (m : BitVec 4) (me : Bool) : Bool := me || m == 0

/-- Fields of a VR word whose operands are d, a and, as `nb` and `nc` say, b and c (R191). -/
def vrok (f : VR) (nb nc : Bool) : Bool :=
  vok f.d && vok f.a && vok f.b && vok f.c && mok f.m f.me && (nb || f.b == 0) && (nc || f.c == 0)

/-- The binary floating-point types (R195). -/
def tyFp (t : BitVec 3) : Bool := t.toNat < 4
/-- The integer types (R197). -/
def tyInt (t : BitVec 3) : Bool := 4 ≤ t.toNat && t.toNat < 7
/-- Every type but decimal64 (R52). -/
def tyBits (t : BitVec 3) : Bool := t.toNat < 7
/-- The types of VGATH and VSCAT (R206). -/
def tyGath (t : BitVec 3) : Bool := t == 0 || t == 3 || t == 4 || t == 5

/-- The codes between which VCVT and XCVT convert (R203). -/
def cvtCode (c : BitVec 4) : Bool :=
  (1 ≤ c.toNat && c.toNat ≤ 6) || c.toNat == 0xC || c.toNat == 0xD || c.toNat == 0xE

/-- The allocated system-register numbers (R51). -/
def sysok (n : BitVec 12) : Bool := n.toNat ≤ 0x00A || (0x010 ≤ n.toNat && n.toNat ≤ 0x017)

/-- Fields of a scalar atomic: a size of 4 or 8 bytes, and d = 0 in the no-return forms (R126). -/
def atomok (f : SM) (ret : Bool) : Bool := (f.size == 2 || f.size == 3) && (ret || f.d == 0)

/-- Fields of a vector compare (R199). -/
def vkok (f : VK) : Bool := vok f.a && vok f.b && mok f.m f.me

/-- Fields of a VM word of one register (R206, R207). -/
def vmok (f : VM) : Bool := vok f.d && vok f.x && mok f.m f.me && f.n == 0

/-- Fields of a copy whose arrival word is optional (R263). -/
def cwArrival (f : CW) : Bool := (f.aw || f.gw == 0) && f.fill == 0 && f.df == 0

/-- Registers of a VD word: the first n + 1 exist and the fields beyond n are 0 (R210, R211). -/
def vdok (f : VD) : Bool :=
  vok f.a && vok f.b && vok f.c && vok f.e
    && (1 ≤ f.n.toNat || f.b == 0) && (2 ≤ f.n.toNat || f.c == 0) && (3 ≤ f.n.toNat || f.e == 0)

/-- A tile of the package (R7). -/
def tileok (t : Nat) : Bool := t < Config.tiles
/-- An island of the package (R7). -/
def islandok (i : Nat) : Bool := i < Config.islands
/-- A Lantern port (R5). -/
def portok (p : Nat) : Bool := p < 2
/-- Where the wake pattern is seen (R350). -/
def wakeok : WakeOn → Bool
  | .one p => portok p
  | .both => true
/-- An MX link (R5). -/
def linkok (l : Nat) : Bool := l < 16

/-- The instruction's fields meet the limits that its own rule gives; the unused low bits of an XV word are 0, which the decoder
has checked as reserved ones (R49, R57, R216, log entry 97). -/
def wf : Instr → Bool
  | .sNop => true
  | .add _ => true
  | .sub _ => true
  | .mul _ => true
  | .mulhs _ => true
  | .mulhu _ => true
  | .div _ => true
  | .divu _ => true
  | .rem _ => true
  | .remu _ => true
  | .and _ => true
  | .or _ => true
  | .xor _ => true
  | .andn _ => true
  | .shl _ => true
  | .shr _ => true
  | .sar _ => true
  | .rol _ => true
  | .min _ => true
  | .max _ => true
  | .minu _ => true
  | .maxu _ => true
  | .clz f => f.b == 0
  | .ctz f => f.b == 0
  | .popc f => f.b == 0
  | .bswap f => f.b == 0
  | .addi _ => true
  | .subi _ => true
  | .muli _ => true
  | .mulhsi _ => true
  | .mulhui _ => true
  | .divi _ => true
  | .divui _ => true
  | .remi _ => true
  | .remui _ => true
  | .andi _ => true
  | .ori _ => true
  | .xori _ => true
  | .andni _ => true
  | .mini _ => true
  | .maxi _ => true
  | .minui _ => true
  | .maxui _ => true
  | .shli f => f.imm.toNat < 64
  | .shri f => f.imm.toNat < 64
  | .sari f => f.imm.toNat < 64
  | .roli f => f.imm.toNat < 64
  | .lih f => f.imm.toNat < 0x1000000
  | .cmpeq _ => true
  | .cmpne _ => true
  | .cmplt _ => true
  | .cmple _ => true
  | .cmpltu _ => true
  | .cmpleu _ => true
  | .cmpeqi _ => true
  | .cmpnei _ => true
  | .cmplti _ => true
  | .cmplei _ => true
  | .cmpltui _ => true
  | .cmpleui _ => true
  | .pand _ => true
  | .por _ => true
  | .pxor _ => true
  | .pnot f => f.pb == 0
  | .agset f => f.f.toNat < 10
  | .agget f => f.f.toNat < 10 && f.imm == 0
  | .loop f => f.k.toNat < 6
  | .prep f => f.a == 0
  | .prepr _ => true
  | .ld f => f.size.toNat < 4 && f.b == 0 && !(f.sx && f.size == 3)
  | .st f => f.size.toNat < 4 && f.b == 0 && !f.sx
  | .stadd f => atomok f false
  | .stand f => atomok f false
  | .stor f => atomok f false
  | .stxor f => atomok f false
  | .stmin f => atomok f false
  | .stmax f => atomok f false
  | .stminu f => atomok f false
  | .stmaxu f => atomok f false
  | .stfadd f => atomok f false
  | .stfmin f => atomok f false
  | .stfmax f => atomok f false
  | .ldadd f => atomok f true
  | .ldand f => atomok f true
  | .ldor f => atomok f true
  | .ldxor f => atomok f true
  | .ldmin f => atomok f true
  | .ldmax f => atomok f true
  | .ldminu f => atomok f true
  | .ldmaxu f => atomok f true
  | .ldfadd f => atomok f true
  | .ldfmin f => atomok f true
  | .ldfmax f => atomok f true
  | .swp f => atomok f true
  | .cas f => atomok f true
  | .albegin _ => true
  | .alend => true
  | .waita f => f.size == 3 && !f.sx
  | .mfsr f => sysok f.sys
  | .mtsr f => sysok f.sys
  | .mssr f => sysok f.sys
  | .mcsr f => sysok f.sys
  | .mode _ _ => true
  | .clkdiv _ _ => true
  | .fence sel => sel.toNat < 3
  | .waits sel => sel.toNat < 5
  | .endTask => true
  | .trap _ => true
  | .tret => true
  | .yieldchk _ _ => true
  | .vNop => true
  | .vadd f => vrok f true false && tyFp f.ty
  | .vsub f => vrok f true false && tyFp f.ty
  | .vmul f => vrok f true false && tyFp f.ty
  | .vdiv f => vrok f true false && tyFp f.ty
  | .vfma f => vrok f true true && tyFp f.ty
  | .vfms f => vrok f true true && tyFp f.ty
  | .vfnma f => vrok f true true && tyFp f.ty
  | .vmin f => vrok f true false && tyFp f.ty && f.rm == 0
  | .vmax f => vrok f true false && tyFp f.ty && f.rm == 0
  | .vabs f => vrok f false false && tyFp f.ty && f.rm == 0
  | .vneg f => vrok f false false && tyFp f.ty && f.rm == 0
  | .vsqrt f => vrok f false false && tyFp f.ty
  | .vrcp f => vrok f false false && tyFp f.ty
  | .vrsq f => vrok f false false && tyFp f.ty
  | .vexp2 f => vrok f false false && tyFp f.ty
  | .vlog2 f => vrok f false false && tyFp f.ty
  | .viadd f => vrok f true false && tyInt f.ty && f.rm == 0
  | .visub f => vrok f true false && tyInt f.ty && f.rm == 0
  | .vimul f => vrok f true false && tyInt f.ty && f.rm == 0
  | .vimin f => vrok f true false && tyInt f.ty && f.rm == 0
  | .vimax f => vrok f true false && tyInt f.ty && f.rm == 0
  | .viminu f => vrok f true false && tyInt f.ty && f.rm == 0
  | .vimaxu f => vrok f true false && tyInt f.ty && f.rm == 0
  | .vand f => vrok f true false && tyInt f.ty && f.rm == 0
  | .vor f => vrok f true false && tyInt f.ty && f.rm == 0
  | .vxor f => vrok f true false && tyInt f.ty && f.rm == 0
  | .vshl f => vrok f true false && tyInt f.ty && f.rm == 0
  | .vshr f => vrok f true false && tyInt f.ty && f.rm == 0
  | .vsar f => vrok f true false && tyInt f.ty && f.rm == 0
  | .viadds f => vrok f true false && tyInt f.ty && f.rm == 0
  | .visubs f => vrok f true false && tyInt f.ty && f.rm == 0
  | .vadd128 f => vrok f true false && f.ty == 5 && f.rm == 0
  | .vcmpeq f => vkok f && tyBits f.ty
  | .vcmpne f => vkok f && tyBits f.ty
  | .vcmplt f => vkok f && tyFp f.ty
  | .vcmple f => vkok f && tyFp f.ty
  | .vcmpun f => vkok f && tyFp f.ty
  | .vicmplt f => vkok f && tyInt f.ty
  | .vicmpltu f => vkok f && tyInt f.ty
  | .mand f => f.d == 0 && f.ty == 0
  | .mor f => f.d == 0 && f.ty == 0
  | .mxor f => f.d == 0 && f.ty == 0
  | .mnot f => f.mb == 0 && f.d == 0 && f.ty == 0
  | .mpop f => f.md == 0 && f.mb == 0 && tyBits f.ty
  | .mset f => f.ma == 0 && f.mb == 0 && tyBits f.ty
  | .vsel f => vrok f true false && tyBits f.ty && f.rm == 0 && f.me
  | .vperm f => vrok f true false && tyBits f.ty && f.rm == 0 && (f.ty != 6 || f.b.toNat ≤ 382)
  | .vbcst f => vrok f false false && tyBits f.ty && f.rm == 0 && f.a.toNat < 32
  | .vcompact f => vrok f false false && tyBits f.ty && f.rm == 0 && f.me
  | .vexpand f => vrok f false false && tyBits f.ty && f.rm == 0 && f.me
  | .vmovs f => vrok f true false && tyBits f.ty && f.rm == 0 && f.a.toNat < 32 && f.b.toNat < 32 && !f.me
  | .vrsum f => vrok f false false && tyFp f.ty
  | .vscan f => vrok f false false && tyFp f.ty
  | .vrmax f => vrok f false false && tyFp f.ty && f.rm == 0
  | .vrmin f => vrok f false false && tyFp f.ty && f.rm == 0
  | .virsum f => vrok f false false && tyInt f.ty && f.rm == 0
  | .vcvt f => vok f.d && vok f.a && mok f.m f.me && cvtCode f.src && cvtCode f.dst && f.src != f.dst
  | .vqnt f => vok f.d && vok f.a && f.m == 0 && !f.me && !f.sat && (f.src == 1 || f.src == 2) && f.dst == 7
  | .vld f => f.d.toNat + f.n.toNat < 384 && f.x == 0 && mok f.m f.me && tyBits f.ty
  | .vst f => f.d.toNat + f.n.toNat < 384 && f.x == 0 && mok f.m f.me && tyBits f.ty
  | .vgath f => vmok f && tyGath f.ty
  | .vscat f => vmok f && tyGath f.ty
  | .vstadd f => vmok f && (f.ty == 4 || f.ty == 5)
  | .vstmin f => vmok f && (f.ty == 4 || f.ty == 5)
  | .vstmax f => vmok f && (f.ty == 4 || f.ty == 5)
  | .vldadd f => vmok f && (f.ty == 4 || f.ty == 5)
  | .vldmin f => vmok f && (f.ty == 4 || f.ty == 5)
  | .vldmax f => vmok f && (f.ty == 4 || f.ty == 5)
  | .vstfadd f => vmok f && (f.ty == 0 || f.ty == 3)
  | .vstfmin f => vmok f && (f.ty == 0 || f.ty == 3)
  | .vstfmax f => vmok f && (f.ty == 0 || f.ty == 3)
  | .vrng f => vrok f true false && f.ty == 4 && f.rm == 0
  | .defer f => vdok f
  | .drainp f => vdok f
  | .drain f => vdok f && f.m == 0
  | .dadd f => vrok f true false && f.ty == 7 && f.rm == 0
  | .dsub f => vrok f true false && f.ty == 7 && f.rm == 0
  | .dmul f => vrok f true false && f.ty == 7 && f.rm == 0
  | .ddiv f => vrok f true false && f.ty == 7 && f.rm == 0
  | .dqua f => vrok f true false && f.ty == 7 && f.rm == 0
  | .dcmpeq f => vkok f && f.ty == 7
  | .dcmplt f => vkok f && f.ty == 7
  | .dcmple f => vkok f && f.ty == 7
  | .dcvtb f => vok f.d && vok f.a && mok f.m f.me && f.src == 0xB && (f.dst == 1 || f.dst == 0xC) && !f.sat
  | .dcvtd f => vok f.d && vok f.a && mok f.m f.me && f.dst == 0xB && (f.src == 1 || f.src == 0xC) && !f.sat && f.rm == 0
  | .mNop => true
  | .mgath f => vok f.x && f.fmt == 0
  | .mldw f => f.x == 0 && 2 ≤ f.fmt.toNat && f.fmt.toNat ≤ 9
  | .mma f => 2 ≤ f.fmt.toNat && f.fmt.toNat ≤ 9
  | .mmad _ => true
  | .mrd f => f.v.toNat ≤ 376 && ((1 ≤ f.fmt.toNat && f.fmt.toNat ≤ 6) || f.fmt == 0xD) && (f.fmt != 1 || f.rm == 0)
  | .mwr f => f.v.toNat ≤ 376 && 1 ≤ f.fmt.toNat && f.fmt.toNat ≤ 3 && f.rm == 0
  | .mzero f => f.v == 0 && f.fmt == 0 && f.rm == 0
  | .mstat f => f.cond.toNat < 4
  | .cNop => true
  | .cloc f => cwArrival f && f.fmt == 0
  | .cisl f => cwArrival f && f.fmt == 0
  | .cgrd f => cwArrival f && f.fmt == 0
  | .cgwr f => cwArrival f && f.fmt == 0
  | .cfill f => f.fmt == 0 && !f.aw && f.df == 0
  | .cxpos f => cwArrival f && (f.fmt == 6 || f.fmt == 2 || f.fmt == 1 || f.fmt == 0xC)
  | .cdec f => cwArrival f && (f.fmt == 1 || f.fmt == 2)
  | .cfeed f => f.gd == 0 && f.fmt == 0 && f.gw == 0 && !f.aw && f.fill == 0 && f.df.toNat < 2
  | .cgath f => f.fmt == 0 && !f.aw && f.fill == 0 && f.df == 0
  | .dNop => true
  | .act _ => true
  | .rd _ => true
  | .wr _ => true
  | .pre _ => true
  | .prea => true
  | .refpb _ => true
  | .xNop => true
  | .xdrf _ => true
  | .xunp4 f => f.d.toNat ≤ 382 && vok f.a && f.low.extractLsb' 0 6 == 0 && f.low.extractLsb' 6 2 != 3
  | .xpose f => vok f.d && vok f.a && f.low.extractLsb' 0 5 == 0 && tyBits (f.low.extractLsb' 5 3)
  | .xcvt f => vok f.d && vok f.a && cvtCode (f.low.extractLsb' 4 4) && cvtCode (f.low.extractLsb' 0 4) && f.low.extractLsb' 4 4 != f.low.extractLsb' 0 4
  | .xmx f => vok f.d && vok f.a && f.low.extractLsb' 0 7 == 0
  | .bundleIssue t _ => tileok t
  | .transferJump t _ _ _ => tileok t
  | .transferCall t _ _ _ => tileok t
  | .loopEnd t _ => tileok t
  | .sync t _ => tileok t
  | .syncArrival t => tileok t
  | .yield t => tileok t
  | .rplan t => tileok t
  | .lineArrival t _ => tileok t
  | .resultLanding t _ => tileok t
  | .vaultRdLanding t _ _ => tileok t
  | .taskStop t => tileok t
  | .handlerEntry t => tileok t
  | .yieldIntervalExpiry t => tileok t
  | .replanIntervalExpiry t => tileok t
  | .waitaComplete t => tileok t
  | .waitsComplete t => tileok t
  | .fenceComplete t => tileok t
  | .modeSwitch t => tileok t
  | .tretResume t => tileok t
  | .endExit t => tileok t
  | .exitBarrierRelease _ island => islandok island
  | .islandBarrierRelease _ lev _ => lev < 8
  | .lamplighterReleaseBase _ lev _ => lev < 8
  | .lamplighterPhaseSignal _ lev _ island => islandok island && lev < 8
  | .memberLostTrap t => tileok t
  | .drfRowDecode t => tileok t
  | .decoderEntryEmit t => tileok t
  | .decoderTrap t => tileok t
  | .mmadRequestStart t => tileok t
  | .mmadEntryPop t => tileok t
  | .mmadActivationRead t _ => tileok t
  | .mmadFaultTrap t => tileok t
  | .translationWalk t _ => tileok t
  | .globalCopyUnitPerform t _ _ => tileok t
  | .cfeedUnitEntry t _ => tileok t
  | .globalFaultTrap t _ _ => tileok t
  | .atomicPerform t _ => tileok t
  | .vectorAtomicProcess t => tileok t
  | .linkLineAccept t _ => tileok t
  | .linkLineDelivery _ => true
  | .linkSyncIntervalExpiry t => tileok t
  | .linkDeliveryFailure _ => true
  | .barrierMessage _ lev _ _ => lev < 8
  | .refreshDuePoint t bank => tileok t && bank < 31
  | .sequencerRefresh t bank => tileok t && bank < 31
  | .vaultSensorRead t layer _ => tileok t && layer < 4
  | .sensorFailureReport _ => true
  | .classLeadExpiry t layer => tileok t && layer < 4
  | .computeSensorRead which _ => match which with
    | .layer _ _ => false
    | .compute island => islandok island
    | .base stack => stack < 4
  | .submission port disp _ => portok port && disp < 4
  | .arbitration => true
  | .noticeDelivery t _ => tileok t
  | .binding _ => true
  | .pageMigration _ _ _ => true
  | .gangStart _ island => islandok island
  | .contextSave t => tileok t
  | .checkpointPathEntry t => tileok t
  | .resume _ island _ => islandok island
  | .gangRestart port _ => portok port
  | .holdEnd port _ => portok port
  | .cancel port _ => portok port
  | .frameRelease port t => tileok t && portok port
  | .failedTileReleaseTimeout t => tileok t
  | .launchStatusRead port _ => portok port
  | .statusAck port _ => portok port
  | .statusRecordExpiry _ => true
  | .imageLoad port _ _ => portok port
  | .paramBlockPatch port _ _ => portok port
  | .timedTableWrite port disp _ _ _ => portok port && disp < 4
  | .timedEntryFire disp index => disp < 4 && index < 512
  | .sessionOpen port _ _ => portok port
  | .sessionClose port _ => portok port
  | .wakePattern on _ _ => wakeok on
  | .firmwarePush port _ _ => portok port
  | .lightRemovalTimeout => true
  | .quoteRequest port _ => portok port
  | .claim port _ _ => portok port
  | .handover port _ => portok port
  | .handoverTimeout => true
  | .ownerLinkLossTimeout => true
  | .lanternMessage port _ _ => portok port
  | .tableCacheInvalidate port _ _ _ => portok port
  | .writerTagClear port _ _ => portok port
  | .lamplighterWrite port _ _ => portok port
  | .keyLoad port slot _ => portok port && slot < 4096
  | .keyErase port slot => portok port && slot < 4096
  | .regionWrite port stack index _ _ => portok port && stack < 4 && index < 64
  | .worldAssign port _ _ => portok port
  | .routeWrite port _ _ _ => portok port
  | .operatingPointRequest port island _ => islandok island && portok port
  | .voltageStepComplete island => islandok island
  | .serviceClear port _ => portok port
  | .packageReset port => portok port
  | .linkUpCommand port link => portok port && linkok link
  | .hostWindowOpen port _ _ _ => portok port
  | .nodeWindowWrite port _ _ _ => portok port
  | .nodeWindowRead port _ _ _ => portok port
  | .apertureOpen port _ _ => portok port
  | .peerAccess _ => true
  | .ptpMessage port _ _ => portok port
  | .mxFlitReceive link _ _ => linkok link
  | .linkLockLoss link => linkok link
  | .lanternLinkLoss port => portok port
  | .secondTierDown _ => true
  | .remapCopyLoss t layer _ => tileok t && layer < 4
  | .vaultFailure t => tileok t
  | .islandClockStretch island => islandok island
  | .lanternLinkReturn port => portok port
  | .linkRetrainComplete link => linkok link

end Sys2Proof.Instr
end

