-- ==== Sys2Proof/Decode.lean ====
section
/-! DEFINITION. Decoding: slot words (R45 to R58), line headers (R36), bundle heads (R39, R41) and the encoder
that lays the same fields out. Each format has `bits`, its fields at their places, and `ofBits`, which reads them;
a word whose reserved bits are not zero is one that `bits` of its fields does not give back (R2, R48). -/

namespace Sys2Proof

/-- Why a word is not an instruction: traps 0x01, 0x04 and 0x05 (R57, R58). -/
inductive DecodeError where
  | undefinedOpcode
  | reservedField
  | operandOutOfRange
  deriving DecidableEq, Repr

/-- The trap code of a refused word (R59). -/
def DecodeError.code : DecodeError → Nat
  | .undefinedOpcode => 0x01
  | .reservedField => 0x04
  | .operandOutOfRange => 0x05

/-- Format SR (R48). -/
def SR.bits (f : SR) : BitVec 50 := f.d ++ f.a ++ f.b ++ 0#35
/-- The fields of format SR. -/
def SR.ofBits (p : BitVec 50) : SR := ⟨p.extractLsb' 45 5, p.extractLsb' 40 5, p.extractLsb' 35 5⟩

/-- Format SI (R48). -/
def SI.bits (f : SI) : BitVec 50 := f.d ++ f.a ++ f.imm
/-- The fields of format SI. -/
def SI.ofBits (p : BitVec 50) : SI := ⟨p.extractLsb' 45 5, p.extractLsb' 40 5, p.extractLsb' 0 40⟩

/-- Format SP (R48). -/
def SP.bits (f : SP) : BitVec 50 := f.pd ++ f.a ++ f.b ++ 0#37
/-- The fields of format SP. -/
def SP.ofBits (p : BitVec 50) : SP := ⟨p.extractLsb' 47 3, p.extractLsb' 42 5, p.extractLsb' 37 5⟩

/-- Format SPI (R48). -/
def SPI.bits (f : SPI) : BitVec 50 := f.pd ++ f.a ++ 0#2 ++ f.imm
/-- The fields of format SPI. -/
def SPI.ofBits (p : BitVec 50) : SPI := ⟨p.extractLsb' 47 3, p.extractLsb' 42 5, p.extractLsb' 0 40⟩

/-- Format SQ (R48). -/
def SQ.bits (f : SQ) : BitVec 50 := f.pd ++ f.pa ++ f.pb ++ 0#41
/-- The fields of format SQ. -/
def SQ.ofBits (p : BitVec 50) : SQ := ⟨p.extractLsb' 47 3, p.extractLsb' 44 3, p.extractLsb' 41 3⟩

/-- Format SG (R48). -/
def SG.bits (f : SG) : BitVec 50 := f.g ++ f.f ++ f.a ++ f.imm
/-- The fields of format SG. -/
def SG.ofBits (p : BitVec 50) : SG := ⟨p.extractLsb' 46 4, p.extractLsb' 42 4, p.extractLsb' 37 5, p.extractLsb' 0 37⟩

/-- Format SL (R48). -/
def SL.bits (f : SL) : BitVec 50 := f.k ++ f.a ++ f.imm ++ 0#10
/-- The fields of format SL. -/
def SL.ofBits (p : BitVec 50) : SL := ⟨p.extractLsb' 47 3, p.extractLsb' 42 5, p.extractLsb' 10 32⟩

/-- Format SB (R48). -/
def SB.bits (f : SB) : BitVec 50 := f.t ++ f.a ++ f.imm
/-- The fields of format SB. -/
def SB.ofBits (p : BitVec 50) : SB := ⟨p.extractLsb' 47 3, p.extractLsb' 42 5, p.extractLsb' 0 42⟩

/-- Format SM (R48). -/
def SM.bits (f : SM) : BitVec 50 := f.d ++ f.g ++ f.size ++ BitVec.ofBool f.sx ++ f.b ++ 0#32
/-- The fields of format SM. -/
def SM.ofBits (p : BitVec 50) : SM := ⟨p.extractLsb' 45 5, p.extractLsb' 41 4, p.extractLsb' 38 3, p.getLsbD 37, p.extractLsb' 32 5⟩

/-- Format SS (R48). -/
def SS.bits (f : SS) : BitVec 50 := f.d ++ f.sys ++ 0#33
/-- The fields of format SS. -/
def SS.ofBits (p : BitVec 50) : SS := ⟨p.extractLsb' 45 5, p.extractLsb' 33 12⟩

/-- Format VR (R48). -/
def VR.bits (f : VR) : BitVec 50 := f.d ++ f.a ++ f.b ++ f.c ++ f.m ++ BitVec.ofBool f.me ++ f.rm ++ f.ty ++ 0#4
/-- The fields of format VR. -/
def VR.ofBits (p : BitVec 50) : VR := ⟨p.extractLsb' 41 9, p.extractLsb' 32 9, p.extractLsb' 23 9, p.extractLsb' 14 9, p.extractLsb' 10 4, p.getLsbD 9, p.extractLsb' 7 2, p.extractLsb' 4 3⟩

/-- Format VK (R48). -/
def VK.bits (f : VK) : BitVec 50 := f.md ++ f.a ++ f.b ++ f.m ++ BitVec.ofBool f.me ++ f.ty ++ 0#20
/-- The fields of format VK. -/
def VK.ofBits (p : BitVec 50) : VK := ⟨p.extractLsb' 46 4, p.extractLsb' 37 9, p.extractLsb' 28 9, p.extractLsb' 24 4, p.getLsbD 23, p.extractLsb' 20 3⟩

/-- Format VQ (R48). -/
def VQ.bits (f : VQ) : BitVec 50 := f.md ++ f.ma ++ f.mb ++ f.d ++ f.ty ++ 0#30
/-- The fields of format VQ. -/
def VQ.ofBits (p : BitVec 50) : VQ := ⟨p.extractLsb' 46 4, p.extractLsb' 42 4, p.extractLsb' 38 4, p.extractLsb' 33 5, p.extractLsb' 30 3⟩

/-- Format VM (R48). -/
def VM.bits (f : VM) : BitVec 50 := f.d ++ f.g ++ f.x ++ f.m ++ BitVec.ofBool f.me ++ f.ty ++ f.n ++ 0#18
/-- The fields of format VM. -/
def VM.ofBits (p : BitVec 50) : VM := ⟨p.extractLsb' 41 9, p.extractLsb' 37 4, p.extractLsb' 28 9, p.extractLsb' 24 4, p.getLsbD 23, p.extractLsb' 20 3, p.extractLsb' 18 2⟩

/-- Format VD (R48). -/
def VD.bits (f : VD) : BitVec 50 := f.q ++ f.a ++ f.b ++ f.c ++ f.e ++ f.n ++ f.m ++ 0#6
/-- The fields of format VD. -/
def VD.ofBits (p : BitVec 50) : VD := ⟨p.extractLsb' 48 2, p.extractLsb' 39 9, p.extractLsb' 30 9, p.extractLsb' 21 9, p.extractLsb' 12 9, p.extractLsb' 10 2, p.extractLsb' 6 4⟩

/-- Format VC (R48). -/
def VC.bits (f : VC) : BitVec 50 := f.d ++ f.a ++ f.src ++ f.dst ++ f.rm ++ BitVec.ofBool f.sat ++ f.m ++ BitVec.ofBool f.me ++ 0#16
/-- The fields of format VC. -/
def VC.ofBits (p : BitVec 50) : VC := ⟨p.extractLsb' 41 9, p.extractLsb' 32 9, p.extractLsb' 28 4, p.extractLsb' 24 4, p.extractLsb' 22 2, p.getLsbD 21, p.extractLsb' 17 4, p.getLsbD 16⟩

/-- Format MG (R48). -/
def MG.bits (f : MG) : BitVec 50 := f.x ++ f.g ++ f.fmt ++ 0#33
/-- The fields of format MG. -/
def MG.ofBits (p : BitVec 50) : MG := ⟨p.extractLsb' 41 9, p.extractLsb' 37 4, p.extractLsb' 33 4⟩

/-- Format MA (R48). -/
def MA.bits (f : MA) : BitVec 50 := f.acc ++ f.fmt ++ 0#40
/-- The fields of format MA. -/
def MA.ofBits (p : BitVec 50) : MA := ⟨p.extractLsb' 44 6, p.extractLsb' 40 4⟩

/-- Format MD (R48). -/
def MD.bits (f : MD) : BitVec 50 := f.acc ++ f.q ++ f.g ++ 0#38
/-- The fields of format MD. -/
def MD.ofBits (p : BitVec 50) : MD := ⟨p.extractLsb' 44 6, p.extractLsb' 42 2, p.extractLsb' 38 4⟩

/-- Format MR (R48). -/
def MR.bits (f : MR) : BitVec 50 := f.acc ++ f.v ++ f.fmt ++ f.rm ++ 0#29
/-- The fields of format MR. -/
def MR.ofBits (p : BitVec 50) : MR := ⟨p.extractLsb' 44 6, p.extractLsb' 35 9, p.extractLsb' 31 4, p.extractLsb' 29 2⟩

/-- Format MS (R48). -/
def MS.bits (f : MS) : BitVec 50 := f.pd ++ f.cond ++ 0#44
/-- The fields of format MS. -/
def MS.ofBits (p : BitVec 50) : MS := ⟨p.extractLsb' 47 3, p.extractLsb' 44 3⟩

/-- Format CW (R48). -/
def CW.bits (f : CW) : BitVec 50 := f.gd ++ f.ga ++ f.n ++ f.fmt ++ f.gw ++ BitVec.ofBool f.aw ++ f.fill ++ f.df ++ 0#7
/-- The fields of format CW. -/
def CW.ofBits (p : BitVec 50) : CW := ⟨p.extractLsb' 46 4, p.extractLsb' 42 4, p.extractLsb' 26 16, p.extractLsb' 22 4, p.extractLsb' 18 4, p.getLsbD 17, p.extractLsb' 9 8, p.extractLsb' 7 2⟩

/-- Format DA (R49). -/
def DA.bits (f : DA) : BitVec 27 := f.bank ++ f.row ++ 0#9
/-- The fields of format DA. -/
def DA.ofBits (p : BitVec 27) : DA := ⟨p.extractLsb' 22 5, p.extractLsb' 9 13⟩

/-- Format DC (R49). -/
def DC.bits (f : DC) : BitVec 27 := f.bank ++ f.g ++ f.col ++ BitVec.ofBool f.cstep ++ 0#13
/-- The fields of format DC. -/
def DC.ofBits (p : BitVec 27) : DC := ⟨p.extractLsb' 22 5, p.extractLsb' 18 4, p.extractLsb' 14 4, p.getLsbD 13⟩

/-- Format XV (R49). -/
def XV.bits (f : XV) : BitVec 26 := f.d ++ f.a ++ f.low
/-- The fields of format XV. -/
def XV.ofBits (p : BitVec 26) : XV := ⟨p.extractLsb' 17 9, p.extractLsb' 8 9, p.extractLsb' 0 8⟩

/-- Format XF (R49). -/
def XF.bits (f : XF) : BitVec 26 := BitVec.ofBool f.f ++ f.q ++ f.ratio ++ 0#20
/-- The fields of format XF. -/
def XF.ofBits (p : BitVec 26) : XF := ⟨p.getLsbD 25, p.extractLsb' 23 2, p.extractLsb' 20 3⟩

/-- A word's instruction, if its reserved bits are zero. -/
def decodeFields {n : Nat} (p bits : BitVec n) (i : Instr) : Except DecodeError Instr :=
  if bits = p then .ok i else .error .reservedField

/-- The wait instruction of format NOP in a V, M or C slot: `rsv` are the format's reserved bits (R52 to R54). -/
def decodeNop (p : BitVec 50) (rsv : Nat) (i : Instr) : Except DecodeError Instr :=
  if p = 0 then .ok i
  else if p.toNat % 2 ^ rsv ≠ 0 then .error .reservedField
  else .error .operandOutOfRange

/-- LIH: imm[39:24] not zero raises 0x04 (R113). -/
def decodeLih (p : BitVec 50) : Except DecodeError Instr :=
  if (SI.ofBits p).imm.toNat < 0x1000000 then .ok (.lih (SI.ofBits p)) else .error .reservedField

/-- The S slot's opcodes (R50). -/
def decodeS (op : Nat) (p : BitVec 50) : Except DecodeError Instr :=
  match op with
  | 0x000 => decodeFields p 0 .sNop
  | 0x010 => decodeFields p (SR.ofBits p).bits (.add (SR.ofBits p))
  | 0x011 => decodeFields p (SR.ofBits p).bits (.sub (SR.ofBits p))
  | 0x012 => decodeFields p (SR.ofBits p).bits (.mul (SR.ofBits p))
  | 0x013 => decodeFields p (SR.ofBits p).bits (.mulhs (SR.ofBits p))
  | 0x014 => decodeFields p (SR.ofBits p).bits (.mulhu (SR.ofBits p))
  | 0x015 => decodeFields p (SR.ofBits p).bits (.div (SR.ofBits p))
  | 0x016 => decodeFields p (SR.ofBits p).bits (.divu (SR.ofBits p))
  | 0x017 => decodeFields p (SR.ofBits p).bits (.rem (SR.ofBits p))
  | 0x018 => decodeFields p (SR.ofBits p).bits (.remu (SR.ofBits p))
  | 0x019 => decodeFields p (SR.ofBits p).bits (.and (SR.ofBits p))
  | 0x01A => decodeFields p (SR.ofBits p).bits (.or (SR.ofBits p))
  | 0x01B => decodeFields p (SR.ofBits p).bits (.xor (SR.ofBits p))
  | 0x01C => decodeFields p (SR.ofBits p).bits (.andn (SR.ofBits p))
  | 0x01D => decodeFields p (SR.ofBits p).bits (.shl (SR.ofBits p))
  | 0x01E => decodeFields p (SR.ofBits p).bits (.shr (SR.ofBits p))
  | 0x01F => decodeFields p (SR.ofBits p).bits (.sar (SR.ofBits p))
  | 0x020 => decodeFields p (SR.ofBits p).bits (.rol (SR.ofBits p))
  | 0x021 => decodeFields p (SR.ofBits p).bits (.min (SR.ofBits p))
  | 0x022 => decodeFields p (SR.ofBits p).bits (.max (SR.ofBits p))
  | 0x023 => decodeFields p (SR.ofBits p).bits (.minu (SR.ofBits p))
  | 0x024 => decodeFields p (SR.ofBits p).bits (.maxu (SR.ofBits p))
  | 0x025 => decodeFields p (SR.ofBits p).bits (.clz (SR.ofBits p))
  | 0x026 => decodeFields p (SR.ofBits p).bits (.ctz (SR.ofBits p))
  | 0x027 => decodeFields p (SR.ofBits p).bits (.popc (SR.ofBits p))
  | 0x028 => decodeFields p (SR.ofBits p).bits (.bswap (SR.ofBits p))
  | 0x050 => decodeFields p (SI.ofBits p).bits (.addi (SI.ofBits p))
  | 0x051 => decodeFields p (SI.ofBits p).bits (.subi (SI.ofBits p))
  | 0x052 => decodeFields p (SI.ofBits p).bits (.muli (SI.ofBits p))
  | 0x053 => decodeFields p (SI.ofBits p).bits (.mulhsi (SI.ofBits p))
  | 0x054 => decodeFields p (SI.ofBits p).bits (.mulhui (SI.ofBits p))
  | 0x055 => decodeFields p (SI.ofBits p).bits (.divi (SI.ofBits p))
  | 0x056 => decodeFields p (SI.ofBits p).bits (.divui (SI.ofBits p))
  | 0x057 => decodeFields p (SI.ofBits p).bits (.remi (SI.ofBits p))
  | 0x058 => decodeFields p (SI.ofBits p).bits (.remui (SI.ofBits p))
  | 0x059 => decodeFields p (SI.ofBits p).bits (.andi (SI.ofBits p))
  | 0x05A => decodeFields p (SI.ofBits p).bits (.ori (SI.ofBits p))
  | 0x05B => decodeFields p (SI.ofBits p).bits (.xori (SI.ofBits p))
  | 0x05C => decodeFields p (SI.ofBits p).bits (.andni (SI.ofBits p))
  | 0x05D => decodeFields p (SI.ofBits p).bits (.shli (SI.ofBits p))
  | 0x05E => decodeFields p (SI.ofBits p).bits (.shri (SI.ofBits p))
  | 0x05F => decodeFields p (SI.ofBits p).bits (.sari (SI.ofBits p))
  | 0x060 => decodeFields p (SI.ofBits p).bits (.roli (SI.ofBits p))
  | 0x061 => decodeFields p (SI.ofBits p).bits (.mini (SI.ofBits p))
  | 0x062 => decodeFields p (SI.ofBits p).bits (.maxi (SI.ofBits p))
  | 0x063 => decodeFields p (SI.ofBits p).bits (.minui (SI.ofBits p))
  | 0x064 => decodeFields p (SI.ofBits p).bits (.maxui (SI.ofBits p))
  | 0x070 => decodeLih p
  | 0x080 => decodeFields p (SP.ofBits p).bits (.cmpeq (SP.ofBits p))
  | 0x081 => decodeFields p (SP.ofBits p).bits (.cmpne (SP.ofBits p))
  | 0x082 => decodeFields p (SP.ofBits p).bits (.cmplt (SP.ofBits p))
  | 0x083 => decodeFields p (SP.ofBits p).bits (.cmple (SP.ofBits p))
  | 0x084 => decodeFields p (SP.ofBits p).bits (.cmpltu (SP.ofBits p))
  | 0x085 => decodeFields p (SP.ofBits p).bits (.cmpleu (SP.ofBits p))
  | 0x088 => decodeFields p (SPI.ofBits p).bits (.cmpeqi (SPI.ofBits p))
  | 0x089 => decodeFields p (SPI.ofBits p).bits (.cmpnei (SPI.ofBits p))
  | 0x08A => decodeFields p (SPI.ofBits p).bits (.cmplti (SPI.ofBits p))
  | 0x08B => decodeFields p (SPI.ofBits p).bits (.cmplei (SPI.ofBits p))
  | 0x08C => decodeFields p (SPI.ofBits p).bits (.cmpltui (SPI.ofBits p))
  | 0x08D => decodeFields p (SPI.ofBits p).bits (.cmpleui (SPI.ofBits p))
  | 0x090 => decodeFields p (SQ.ofBits p).bits (.pand (SQ.ofBits p))
  | 0x091 => decodeFields p (SQ.ofBits p).bits (.por (SQ.ofBits p))
  | 0x092 => decodeFields p (SQ.ofBits p).bits (.pxor (SQ.ofBits p))
  | 0x093 => decodeFields p (SQ.ofBits p).bits (.pnot (SQ.ofBits p))
  | 0x0A0 => decodeFields p (SG.ofBits p).bits (.agset (SG.ofBits p))
  | 0x0A1 => decodeFields p (SG.ofBits p).bits (.agget (SG.ofBits p))
  | 0x0B0 => decodeFields p (SL.ofBits p).bits (.loop (SL.ofBits p))
  | 0x0C0 => decodeFields p (SB.ofBits p).bits (.prep (SB.ofBits p))
  | 0x0C1 => decodeFields p (SB.ofBits p).bits (.prepr (SB.ofBits p))
  | 0x100 => decodeFields p (SM.ofBits p).bits (.ld (SM.ofBits p))
  | 0x101 => decodeFields p (SM.ofBits p).bits (.st (SM.ofBits p))
  | 0x110 => decodeFields p (SM.ofBits p).bits (.stadd (SM.ofBits p))
  | 0x111 => decodeFields p (SM.ofBits p).bits (.stand (SM.ofBits p))
  | 0x112 => decodeFields p (SM.ofBits p).bits (.stor (SM.ofBits p))
  | 0x113 => decodeFields p (SM.ofBits p).bits (.stxor (SM.ofBits p))
  | 0x114 => decodeFields p (SM.ofBits p).bits (.stmin (SM.ofBits p))
  | 0x115 => decodeFields p (SM.ofBits p).bits (.stmax (SM.ofBits p))
  | 0x116 => decodeFields p (SM.ofBits p).bits (.stminu (SM.ofBits p))
  | 0x117 => decodeFields p (SM.ofBits p).bits (.stmaxu (SM.ofBits p))
  | 0x118 => decodeFields p (SM.ofBits p).bits (.stfadd (SM.ofBits p))
  | 0x119 => decodeFields p (SM.ofBits p).bits (.stfmin (SM.ofBits p))
  | 0x11A => decodeFields p (SM.ofBits p).bits (.stfmax (SM.ofBits p))
  | 0x130 => decodeFields p (SM.ofBits p).bits (.ldadd (SM.ofBits p))
  | 0x131 => decodeFields p (SM.ofBits p).bits (.ldand (SM.ofBits p))
  | 0x132 => decodeFields p (SM.ofBits p).bits (.ldor (SM.ofBits p))
  | 0x133 => decodeFields p (SM.ofBits p).bits (.ldxor (SM.ofBits p))
  | 0x134 => decodeFields p (SM.ofBits p).bits (.ldmin (SM.ofBits p))
  | 0x135 => decodeFields p (SM.ofBits p).bits (.ldmax (SM.ofBits p))
  | 0x136 => decodeFields p (SM.ofBits p).bits (.ldminu (SM.ofBits p))
  | 0x137 => decodeFields p (SM.ofBits p).bits (.ldmaxu (SM.ofBits p))
  | 0x138 => decodeFields p (SM.ofBits p).bits (.ldfadd (SM.ofBits p))
  | 0x139 => decodeFields p (SM.ofBits p).bits (.ldfmin (SM.ofBits p))
  | 0x13A => decodeFields p (SM.ofBits p).bits (.ldfmax (SM.ofBits p))
  | 0x13B => decodeFields p (SM.ofBits p).bits (.swp (SM.ofBits p))
  | 0x13C => decodeFields p (SM.ofBits p).bits (.cas (SM.ofBits p))
  | 0x140 => decodeFields p ((p.extractLsb' 46 4) ++ 0#46) (.albegin (p.extractLsb' 46 4))
  | 0x141 => decodeFields p (0#50) (.alend)
  | 0x150 => decodeFields p (SM.ofBits p).bits (.waita (SM.ofBits p))
  | 0x180 => decodeFields p (SS.ofBits p).bits (.mfsr (SS.ofBits p))
  | 0x181 => decodeFields p (SS.ofBits p).bits (.mtsr (SS.ofBits p))
  | 0x182 => decodeFields p (SS.ofBits p).bits (.mssr (SS.ofBits p))
  | 0x183 => decodeFields p (SS.ofBits p).bits (.mcsr (SS.ofBits p))
  | 0x1C0 => decodeFields p (BitVec.ofBool (p.getLsbD 49) ++ BitVec.ofBool (p.getLsbD 48) ++ 0#48) (.mode (p.getLsbD 49) (p.getLsbD 48))
  | 0x1C1 => decodeFields p ((p.extractLsb' 48 2) ++ (p.extractLsb' 45 3) ++ 0#45) (.clkdiv (p.extractLsb' 48 2) (p.extractLsb' 45 3))
  | 0x1C2 => decodeFields p ((p.extractLsb' 48 2) ++ 0#48) (.fence (p.extractLsb' 48 2))
  | 0x1C3 => decodeFields p ((p.extractLsb' 46 4) ++ 0#46) (.waits (p.extractLsb' 46 4))
  | 0x1C4 => decodeFields p (0#50) (.endTask)
  | 0x1C5 => decodeFields p ((p.extractLsb' 34 16) ++ 0#34) (.trap (p.extractLsb' 34 16))
  | 0x1C6 => decodeFields p (0#50) (.tret)
  | 0x1C7 => decodeFields p ((p.extractLsb' 47 3) ++ (p.extractLsb' 44 3) ++ 0#44) (.yieldchk (p.extractLsb' 47 3) (p.extractLsb' 44 3))
  | _ => .error .undefinedOpcode

/-- The V slot's opcodes (R52). -/
def decodeV (op : Nat) (p : BitVec 50) : Except DecodeError Instr :=
  match op with
  | 0x000 => decodeNop p 4 .vNop
  | 0x010 => decodeFields p (VR.ofBits p).bits (.vadd (VR.ofBits p))
  | 0x011 => decodeFields p (VR.ofBits p).bits (.vsub (VR.ofBits p))
  | 0x012 => decodeFields p (VR.ofBits p).bits (.vmul (VR.ofBits p))
  | 0x013 => decodeFields p (VR.ofBits p).bits (.vfma (VR.ofBits p))
  | 0x014 => decodeFields p (VR.ofBits p).bits (.vfms (VR.ofBits p))
  | 0x015 => decodeFields p (VR.ofBits p).bits (.vfnma (VR.ofBits p))
  | 0x016 => decodeFields p (VR.ofBits p).bits (.vmin (VR.ofBits p))
  | 0x017 => decodeFields p (VR.ofBits p).bits (.vmax (VR.ofBits p))
  | 0x018 => decodeFields p (VR.ofBits p).bits (.vabs (VR.ofBits p))
  | 0x019 => decodeFields p (VR.ofBits p).bits (.vneg (VR.ofBits p))
  | 0x01A => decodeFields p (VR.ofBits p).bits (.vdiv (VR.ofBits p))
  | 0x01B => decodeFields p (VR.ofBits p).bits (.vsqrt (VR.ofBits p))
  | 0x01C => decodeFields p (VR.ofBits p).bits (.vrcp (VR.ofBits p))
  | 0x01D => decodeFields p (VR.ofBits p).bits (.vrsq (VR.ofBits p))
  | 0x01E => decodeFields p (VR.ofBits p).bits (.vexp2 (VR.ofBits p))
  | 0x01F => decodeFields p (VR.ofBits p).bits (.vlog2 (VR.ofBits p))
  | 0x030 => decodeFields p (VR.ofBits p).bits (.viadd (VR.ofBits p))
  | 0x031 => decodeFields p (VR.ofBits p).bits (.visub (VR.ofBits p))
  | 0x032 => decodeFields p (VR.ofBits p).bits (.vimul (VR.ofBits p))
  | 0x033 => decodeFields p (VR.ofBits p).bits (.vimin (VR.ofBits p))
  | 0x034 => decodeFields p (VR.ofBits p).bits (.vimax (VR.ofBits p))
  | 0x035 => decodeFields p (VR.ofBits p).bits (.viminu (VR.ofBits p))
  | 0x036 => decodeFields p (VR.ofBits p).bits (.vimaxu (VR.ofBits p))
  | 0x037 => decodeFields p (VR.ofBits p).bits (.vand (VR.ofBits p))
  | 0x038 => decodeFields p (VR.ofBits p).bits (.vor (VR.ofBits p))
  | 0x039 => decodeFields p (VR.ofBits p).bits (.vxor (VR.ofBits p))
  | 0x03A => decodeFields p (VR.ofBits p).bits (.vshl (VR.ofBits p))
  | 0x03B => decodeFields p (VR.ofBits p).bits (.vshr (VR.ofBits p))
  | 0x03C => decodeFields p (VR.ofBits p).bits (.vsar (VR.ofBits p))
  | 0x03D => decodeFields p (VR.ofBits p).bits (.viadds (VR.ofBits p))
  | 0x03E => decodeFields p (VR.ofBits p).bits (.visubs (VR.ofBits p))
  | 0x03F => decodeFields p (VR.ofBits p).bits (.vadd128 (VR.ofBits p))
  | 0x040 => decodeFields p (VK.ofBits p).bits (.vcmpeq (VK.ofBits p))
  | 0x041 => decodeFields p (VK.ofBits p).bits (.vcmpne (VK.ofBits p))
  | 0x042 => decodeFields p (VK.ofBits p).bits (.vcmplt (VK.ofBits p))
  | 0x043 => decodeFields p (VK.ofBits p).bits (.vcmple (VK.ofBits p))
  | 0x044 => decodeFields p (VK.ofBits p).bits (.vcmpun (VK.ofBits p))
  | 0x045 => decodeFields p (VK.ofBits p).bits (.vicmplt (VK.ofBits p))
  | 0x046 => decodeFields p (VK.ofBits p).bits (.vicmpltu (VK.ofBits p))
  | 0x050 => decodeFields p (VQ.ofBits p).bits (.mand (VQ.ofBits p))
  | 0x051 => decodeFields p (VQ.ofBits p).bits (.mor (VQ.ofBits p))
  | 0x052 => decodeFields p (VQ.ofBits p).bits (.mxor (VQ.ofBits p))
  | 0x053 => decodeFields p (VQ.ofBits p).bits (.mnot (VQ.ofBits p))
  | 0x054 => decodeFields p (VQ.ofBits p).bits (.mpop (VQ.ofBits p))
  | 0x055 => decodeFields p (VQ.ofBits p).bits (.mset (VQ.ofBits p))
  | 0x060 => decodeFields p (VR.ofBits p).bits (.vsel (VR.ofBits p))
  | 0x061 => decodeFields p (VR.ofBits p).bits (.vperm (VR.ofBits p))
  | 0x062 => decodeFields p (VR.ofBits p).bits (.vbcst (VR.ofBits p))
  | 0x063 => decodeFields p (VR.ofBits p).bits (.vcompact (VR.ofBits p))
  | 0x064 => decodeFields p (VR.ofBits p).bits (.vexpand (VR.ofBits p))
  | 0x065 => decodeFields p (VR.ofBits p).bits (.vmovs (VR.ofBits p))
  | 0x070 => decodeFields p (VR.ofBits p).bits (.vrsum (VR.ofBits p))
  | 0x071 => decodeFields p (VR.ofBits p).bits (.vrmax (VR.ofBits p))
  | 0x072 => decodeFields p (VR.ofBits p).bits (.vrmin (VR.ofBits p))
  | 0x073 => decodeFields p (VR.ofBits p).bits (.vscan (VR.ofBits p))
  | 0x074 => decodeFields p (VR.ofBits p).bits (.virsum (VR.ofBits p))
  | 0x080 => decodeFields p (VC.ofBits p).bits (.vcvt (VC.ofBits p))
  | 0x081 => decodeFields p (VC.ofBits p).bits (.vqnt (VC.ofBits p))
  | 0x090 => decodeFields p (VM.ofBits p).bits (.vld (VM.ofBits p))
  | 0x091 => decodeFields p (VM.ofBits p).bits (.vst (VM.ofBits p))
  | 0x092 => decodeFields p (VM.ofBits p).bits (.vgath (VM.ofBits p))
  | 0x093 => decodeFields p (VM.ofBits p).bits (.vscat (VM.ofBits p))
  | 0x0A0 => decodeFields p (VM.ofBits p).bits (.vstadd (VM.ofBits p))
  | 0x0A1 => decodeFields p (VM.ofBits p).bits (.vstmin (VM.ofBits p))
  | 0x0A2 => decodeFields p (VM.ofBits p).bits (.vstmax (VM.ofBits p))
  | 0x0A3 => decodeFields p (VM.ofBits p).bits (.vstfadd (VM.ofBits p))
  | 0x0A4 => decodeFields p (VM.ofBits p).bits (.vstfmin (VM.ofBits p))
  | 0x0A5 => decodeFields p (VM.ofBits p).bits (.vstfmax (VM.ofBits p))
  | 0x0A8 => decodeFields p (VM.ofBits p).bits (.vldadd (VM.ofBits p))
  | 0x0A9 => decodeFields p (VM.ofBits p).bits (.vldmin (VM.ofBits p))
  | 0x0AA => decodeFields p (VM.ofBits p).bits (.vldmax (VM.ofBits p))
  | 0x0B0 => decodeFields p (VR.ofBits p).bits (.vrng (VR.ofBits p))
  | 0x0C0 => decodeFields p (VD.ofBits p).bits (.defer (VD.ofBits p))
  | 0x0C1 => decodeFields p (VD.ofBits p).bits (.drain (VD.ofBits p))
  | 0x0C2 => decodeFields p (VD.ofBits p).bits (.drainp (VD.ofBits p))
  | 0x0D0 => decodeFields p (VR.ofBits p).bits (.dadd (VR.ofBits p))
  | 0x0D1 => decodeFields p (VR.ofBits p).bits (.dsub (VR.ofBits p))
  | 0x0D2 => decodeFields p (VR.ofBits p).bits (.dmul (VR.ofBits p))
  | 0x0D3 => decodeFields p (VR.ofBits p).bits (.ddiv (VR.ofBits p))
  | 0x0D4 => decodeFields p (VR.ofBits p).bits (.dqua (VR.ofBits p))
  | 0x0D8 => decodeFields p (VK.ofBits p).bits (.dcmpeq (VK.ofBits p))
  | 0x0D9 => decodeFields p (VK.ofBits p).bits (.dcmplt (VK.ofBits p))
  | 0x0DA => decodeFields p (VK.ofBits p).bits (.dcmple (VK.ofBits p))
  | 0x0DC => decodeFields p (VC.ofBits p).bits (.dcvtb (VC.ofBits p))
  | 0x0DD => decodeFields p (VC.ofBits p).bits (.dcvtd (VC.ofBits p))
  | _ => .error .undefinedOpcode

/-- The M slot's opcodes (R53). -/
def decodeM (op : Nat) (p : BitVec 50) : Except DecodeError Instr :=
  match op with
  | 0x000 => decodeNop p 40 .mNop
  | 0x010 => decodeFields p (MG.ofBits p).bits (.mgath (MG.ofBits p))
  | 0x011 => decodeFields p (MG.ofBits p).bits (.mldw (MG.ofBits p))
  | 0x020 => decodeFields p (MA.ofBits p).bits (.mma (MA.ofBits p))
  | 0x030 => decodeFields p (MD.ofBits p).bits (.mmad (MD.ofBits p))
  | 0x040 => decodeFields p (MR.ofBits p).bits (.mrd (MR.ofBits p))
  | 0x041 => decodeFields p (MR.ofBits p).bits (.mwr (MR.ofBits p))
  | 0x042 => decodeFields p (MR.ofBits p).bits (.mzero (MR.ofBits p))
  | 0x050 => decodeFields p (MS.ofBits p).bits (.mstat (MS.ofBits p))
  | _ => .error .undefinedOpcode

/-- The C slot's opcodes (R54). -/
def decodeC (op : Nat) (p : BitVec 50) : Except DecodeError Instr :=
  match op with
  | 0x000 => decodeNop p 7 .cNop
  | 0x010 => decodeFields p (CW.ofBits p).bits (.cloc (CW.ofBits p))
  | 0x011 => decodeFields p (CW.ofBits p).bits (.cisl (CW.ofBits p))
  | 0x012 => decodeFields p (CW.ofBits p).bits (.cgrd (CW.ofBits p))
  | 0x013 => decodeFields p (CW.ofBits p).bits (.cgwr (CW.ofBits p))
  | 0x014 => decodeFields p (CW.ofBits p).bits (.cfill (CW.ofBits p))
  | 0x015 => decodeFields p (CW.ofBits p).bits (.cxpos (CW.ofBits p))
  | 0x016 => decodeFields p (CW.ofBits p).bits (.cdec (CW.ofBits p))
  | 0x017 => decodeFields p (CW.ofBits p).bits (.cfeed (CW.ofBits p))
  | 0x018 => decodeFields p (CW.ofBits p).bits (.cgath (CW.ofBits p))
  | _ => .error .undefinedOpcode

/-- The D slot's opcodes (R55). -/
def decodeD (op : Nat) (p : BitVec 27) : Except DecodeError Instr :=
  match op with
  | 0x000 => decodeFields p 0 .dNop
  | 0x001 => decodeFields p (DA.ofBits p).bits (.act (DA.ofBits p))
  | 0x002 => decodeFields p (DC.ofBits p).bits (.rd (DC.ofBits p))
  | 0x003 => decodeFields p (DC.ofBits p).bits (.wr (DC.ofBits p))
  | 0x004 => decodeFields p (p.extractLsb' 22 5 ++ 0#22) (.pre (p.extractLsb' 22 5))
  | 0x005 => decodeFields p 0 .prea
  | 0x006 => decodeFields p (p.extractLsb' 22 5 ++ 0#22) (.refpb (p.extractLsb' 22 5))
  | _ => .error .undefinedOpcode

/-- An XV word whose `n` lowest bits its opcode does not use. R49 marks them reserved, so that they raise 0x04 (R57), and R216
has them raise 0x05; of the two R58 makes the check for 0x04 first (log entry 97). -/
def decodeXV (n : Nat) (p : BitVec 26) (i : XV → Instr) : Except DecodeError Instr :=
  let f := XV.ofBits p
  decodeFields p { f with low := f.low >>> n <<< n }.bits (i f)

/-- The X slot's opcodes (R56). -/
def decodeX (op : Nat) (p : BitVec 26) : Except DecodeError Instr :=
  match op with
  | 0x000 => decodeFields p 0 .xNop
  | 0x001 => decodeXV 6 p .xunp4
  | 0x002 => decodeFields p (XF.ofBits p).bits (.xdrf (XF.ofBits p))
  | 0x003 => decodeXV 5 p .xpose
  | 0x004 => decodeXV 0 p .xcvt
  | 0x005 => decodeXV 7 p .xmx
  | _ => .error .undefinedOpcode

/-- A decoded word whose fields, type and registers are within range (R58). -/
def checkFields (r : Except DecodeError Instr) : Except DecodeError Instr :=
  match r with
  | .ok i => if i.wf then .ok i else .error .operandOutOfRange
  | .error e => .error e

/-- A 64-bit word of a slot other than D and X: opcode [63:54], guard [53:50], fields [49:0] (R48). -/
def decodeWord (slot : Slot) (w : Word) : Except DecodeError Instr :=
  match slot with
  | .s => checkFields (decodeS (w.toNat / 2 ^ 54) (w.extractLsb' 0 50))
  | .v0 | .v1 => checkFields (decodeV (w.toNat / 2 ^ 54) (w.extractLsb' 0 50))
  | .m => checkFields (decodeM (w.toNat / 2 ^ 54) (w.extractLsb' 0 50))
  | .c0 | .c1 => checkFields (decodeC (w.toNat / 2 ^ 54) (w.extractLsb' 0 50))
  | .d => checkFields (decodeD (w.toNat / 2 ^ 27 % 32) (w.extractLsb' 0 27))
  | .x => checkFields (decodeX (w.toNat / 2 ^ 26 % 64) (w.extractLsb' 0 26))

/-- The guard of a slot word; a D or X word carries none (R46). -/
def guardOf (slot : Slot) (w : Word) : Guard :=
  match slot with
  | .d | .x => Guard.always
  | _ => ⟨w.getLsbD 53, w.extractLsb' 50 3⟩

/-- The first check of a squashed operation's word: only 0x01 and 0x04 are its own (log entry 6). -/
def decodeWordRaw (slot : Slot) (w : Word) : Except DecodeError Instr :=
  match slot with
  | .s => decodeS (w.toNat / 2 ^ 54) (w.extractLsb' 0 50)
  | .v0 | .v1 => decodeV (w.toNat / 2 ^ 54) (w.extractLsb' 0 50)
  | .m => decodeM (w.toNat / 2 ^ 54) (w.extractLsb' 0 50)
  | .c0 | .c1 => decodeC (w.toNat / 2 ^ 54) (w.extractLsb' 0 50)
  | .d => decodeD (w.toNat / 2 ^ 27 % 32) (w.extractLsb' 0 27)
  | .x => decodeX (w.toNat / 2 ^ 26 % 64) (w.extractLsb' 0 26)

/-- The bits of a line header (R36). -/
structure LineHeader where
  start : BitVec 16
  target : BitVec 16
  fentry : Bool
  rsv : BitVec 31
  deriving DecidableEq, Repr

/-- The header of a line from its first granule (R36). -/
def LineHeader.ofBits (w : Word) : LineHeader :=
  ⟨w.extractLsb' 48 16, w.extractLsb' 32 16, w.getLsbD 31, w.extractLsb' 0 31⟩

/-- The header's own check (R36). -/
def LineHeader.ok (h : LineHeader) : Bool :=
  !h.start.getLsbD 0 && (h.target &&& ~~~h.start) == 0 && h.rsv == 0
    && (!h.fentry || (h.start.getLsbD 1 && h.target.getLsbD 1))

/-- The head of a bundle (R39). -/
structure Head where
  present : BitVec 8
  reps : BitVec 8
  xkind : BitVec 2
  xt : BitVec 3
  xp : BitVec 3
  xn : Bool
  iter : BitVec 2
  ilev : BitVec 3
  lend : BitVec 6
  kind : BitVec 2
  slev : BitVec 3
  rsv : BitVec 23
  deriving DecidableEq, Repr

/-- The fields of a head (R39). -/
def Head.ofBits (w : Word) : Head :=
  { present := w.extractLsb' 56 8, reps := w.extractLsb' 48 8, xkind := w.extractLsb' 46 2
    xt := w.extractLsb' 43 3, xp := w.extractLsb' 40 3, xn := w.getLsbD 39, iter := w.extractLsb' 37 2
    ilev := w.extractLsb' 34 3, lend := w.extractLsb' 28 6, kind := w.extractLsb' 26 2
    slev := w.extractLsb' 23 3, rsv := w.extractLsb' 0 23 }

/-- The head as a granule (R39). -/
def Head.bits (h : Head) : Word :=
  h.present ++ h.reps ++ h.xkind ++ h.xt ++ h.xp ++ BitVec.ofBool h.xn ++ h.iter ++ h.ilev ++ h.lend
    ++ h.kind ++ h.slev ++ h.rsv

/-- The head's own check (R41); the pad word is checked with the slot words. -/
def Head.ok (h : Head) : Bool :=
  h.rsv == 0 && h.xkind != 3 && (h.xkind != 0 || (h.xt == 0 && h.xp == 0 && !h.xn))
    && h.iter != 3 && h.ilev.toNat < 6 && (h.iter != 0 || h.ilev == 0)
    && (h.kind == 1 || h.slev == 0) && (h.kind == 0 || h.reps == 0)

/-- Whether the head's slot of a number is present: S is bit 63 of the head, X bit 56 (R39). -/
def Head.has (h : Head) (slot : Slot) : Bool := h.present.getLsbD (7 - slot.num)

/-- Granules of a bundle: the head, the 64-bit words and the pairs of 32-bit words (R40). -/
def Head.granules (h : Head) : Nat :=
  1 + ([Slot.s, .v0, .v1, .m, .c0, .c1].countP h.has) + (([Slot.d, .x].countP h.has) + 1) / 2

/-- The slot words of a bundle from the granules after its head, with whether the pad word is zero (R40). -/
def Head.words (h : Head) (gs : List Word) : List (Slot × Word) × Bool :=
  let wide := [Slot.s, .v0, .v1, .m, .c0, .c1].filter h.has
  let ws := wide.zip gs
  let last := gs.getD wide.length 0
  let lo : Word := last &&& 0xFFFFFFFF
  let hi : Word := last >>> 32
  match h.has .d, h.has .x with
  | false, false => (ws, true)
  | true, false => (ws ++ [(.d, lo)], hi == 0)
  | false, true => (ws ++ [(.x, lo)], hi == 0)
  | true, true => (ws ++ [(.d, lo), (.x, hi)], true)

/-- Opcode and fields of an instruction of a 64-bit slot word (R48, R50, R52 to R54). -/
def encodeFields : Instr → Option (BitVec 10 × BitVec 50)
  | .sNop => some (0x000, 0#50)
  | .add f => some (0x010, f.bits)
  | .sub f => some (0x011, f.bits)
  | .mul f => some (0x012, f.bits)
  | .mulhs f => some (0x013, f.bits)
  | .mulhu f => some (0x014, f.bits)
  | .div f => some (0x015, f.bits)
  | .divu f => some (0x016, f.bits)
  | .rem f => some (0x017, f.bits)
  | .remu f => some (0x018, f.bits)
  | .and f => some (0x019, f.bits)
  | .or f => some (0x01A, f.bits)
  | .xor f => some (0x01B, f.bits)
  | .andn f => some (0x01C, f.bits)
  | .shl f => some (0x01D, f.bits)
  | .shr f => some (0x01E, f.bits)
  | .sar f => some (0x01F, f.bits)
  | .rol f => some (0x020, f.bits)
  | .min f => some (0x021, f.bits)
  | .max f => some (0x022, f.bits)
  | .minu f => some (0x023, f.bits)
  | .maxu f => some (0x024, f.bits)
  | .clz f => some (0x025, f.bits)
  | .ctz f => some (0x026, f.bits)
  | .popc f => some (0x027, f.bits)
  | .bswap f => some (0x028, f.bits)
  | .addi f => some (0x050, f.bits)
  | .subi f => some (0x051, f.bits)
  | .muli f => some (0x052, f.bits)
  | .mulhsi f => some (0x053, f.bits)
  | .mulhui f => some (0x054, f.bits)
  | .divi f => some (0x055, f.bits)
  | .divui f => some (0x056, f.bits)
  | .remi f => some (0x057, f.bits)
  | .remui f => some (0x058, f.bits)
  | .andi f => some (0x059, f.bits)
  | .ori f => some (0x05A, f.bits)
  | .xori f => some (0x05B, f.bits)
  | .andni f => some (0x05C, f.bits)
  | .shli f => some (0x05D, f.bits)
  | .shri f => some (0x05E, f.bits)
  | .sari f => some (0x05F, f.bits)
  | .roli f => some (0x060, f.bits)
  | .mini f => some (0x061, f.bits)
  | .maxi f => some (0x062, f.bits)
  | .minui f => some (0x063, f.bits)
  | .maxui f => some (0x064, f.bits)
  | .lih f => some (0x070, f.bits)
  | .cmpeq f => some (0x080, f.bits)
  | .cmpne f => some (0x081, f.bits)
  | .cmplt f => some (0x082, f.bits)
  | .cmple f => some (0x083, f.bits)
  | .cmpltu f => some (0x084, f.bits)
  | .cmpleu f => some (0x085, f.bits)
  | .cmpeqi f => some (0x088, f.bits)
  | .cmpnei f => some (0x089, f.bits)
  | .cmplti f => some (0x08A, f.bits)
  | .cmplei f => some (0x08B, f.bits)
  | .cmpltui f => some (0x08C, f.bits)
  | .cmpleui f => some (0x08D, f.bits)
  | .pand f => some (0x090, f.bits)
  | .por f => some (0x091, f.bits)
  | .pxor f => some (0x092, f.bits)
  | .pnot f => some (0x093, f.bits)
  | .agset f => some (0x0A0, f.bits)
  | .agget f => some (0x0A1, f.bits)
  | .loop f => some (0x0B0, f.bits)
  | .prep f => some (0x0C0, f.bits)
  | .prepr f => some (0x0C1, f.bits)
  | .ld f => some (0x100, f.bits)
  | .st f => some (0x101, f.bits)
  | .stadd f => some (0x110, f.bits)
  | .stand f => some (0x111, f.bits)
  | .stor f => some (0x112, f.bits)
  | .stxor f => some (0x113, f.bits)
  | .stmin f => some (0x114, f.bits)
  | .stmax f => some (0x115, f.bits)
  | .stminu f => some (0x116, f.bits)
  | .stmaxu f => some (0x117, f.bits)
  | .stfadd f => some (0x118, f.bits)
  | .stfmin f => some (0x119, f.bits)
  | .stfmax f => some (0x11A, f.bits)
  | .ldadd f => some (0x130, f.bits)
  | .ldand f => some (0x131, f.bits)
  | .ldor f => some (0x132, f.bits)
  | .ldxor f => some (0x133, f.bits)
  | .ldmin f => some (0x134, f.bits)
  | .ldmax f => some (0x135, f.bits)
  | .ldminu f => some (0x136, f.bits)
  | .ldmaxu f => some (0x137, f.bits)
  | .ldfadd f => some (0x138, f.bits)
  | .ldfmin f => some (0x139, f.bits)
  | .ldfmax f => some (0x13A, f.bits)
  | .swp f => some (0x13B, f.bits)
  | .cas f => some (0x13C, f.bits)
  | .albegin g => some (0x140, g ++ 0#46)
  | .alend => some (0x141, 0#50)
  | .waita f => some (0x150, f.bits)
  | .mfsr f => some (0x180, f.bits)
  | .mtsr f => some (0x181, f.bits)
  | .mssr f => some (0x182, f.bits)
  | .mcsr f => some (0x183, f.bits)
  | .mode gm er => some (0x1C0, BitVec.ofBool gm ++ BitVec.ofBool er ++ 0#48)
  | .clkdiv eng n1 => some (0x1C1, eng ++ n1 ++ 0#45)
  | .fence sel => some (0x1C2, sel ++ 0#48)
  | .waits sel => some (0x1C3, sel ++ 0#46)
  | .endTask => some (0x1C4, 0#50)
  | .trap imm => some (0x1C5, imm ++ 0#34)
  | .tret => some (0x1C6, 0#50)
  | .yieldchk pd mask => some (0x1C7, pd ++ mask ++ 0#44)
  | .vNop => some (0x000, 0#50)
  | .vadd f => some (0x010, f.bits)
  | .vsub f => some (0x011, f.bits)
  | .vmul f => some (0x012, f.bits)
  | .vfma f => some (0x013, f.bits)
  | .vfms f => some (0x014, f.bits)
  | .vfnma f => some (0x015, f.bits)
  | .vmin f => some (0x016, f.bits)
  | .vmax f => some (0x017, f.bits)
  | .vabs f => some (0x018, f.bits)
  | .vneg f => some (0x019, f.bits)
  | .vdiv f => some (0x01A, f.bits)
  | .vsqrt f => some (0x01B, f.bits)
  | .vrcp f => some (0x01C, f.bits)
  | .vrsq f => some (0x01D, f.bits)
  | .vexp2 f => some (0x01E, f.bits)
  | .vlog2 f => some (0x01F, f.bits)
  | .viadd f => some (0x030, f.bits)
  | .visub f => some (0x031, f.bits)
  | .vimul f => some (0x032, f.bits)
  | .vimin f => some (0x033, f.bits)
  | .vimax f => some (0x034, f.bits)
  | .viminu f => some (0x035, f.bits)
  | .vimaxu f => some (0x036, f.bits)
  | .vand f => some (0x037, f.bits)
  | .vor f => some (0x038, f.bits)
  | .vxor f => some (0x039, f.bits)
  | .vshl f => some (0x03A, f.bits)
  | .vshr f => some (0x03B, f.bits)
  | .vsar f => some (0x03C, f.bits)
  | .viadds f => some (0x03D, f.bits)
  | .visubs f => some (0x03E, f.bits)
  | .vadd128 f => some (0x03F, f.bits)
  | .vcmpeq f => some (0x040, f.bits)
  | .vcmpne f => some (0x041, f.bits)
  | .vcmplt f => some (0x042, f.bits)
  | .vcmple f => some (0x043, f.bits)
  | .vcmpun f => some (0x044, f.bits)
  | .vicmplt f => some (0x045, f.bits)
  | .vicmpltu f => some (0x046, f.bits)
  | .mand f => some (0x050, f.bits)
  | .mor f => some (0x051, f.bits)
  | .mxor f => some (0x052, f.bits)
  | .mnot f => some (0x053, f.bits)
  | .mpop f => some (0x054, f.bits)
  | .mset f => some (0x055, f.bits)
  | .vsel f => some (0x060, f.bits)
  | .vperm f => some (0x061, f.bits)
  | .vbcst f => some (0x062, f.bits)
  | .vcompact f => some (0x063, f.bits)
  | .vexpand f => some (0x064, f.bits)
  | .vmovs f => some (0x065, f.bits)
  | .vrsum f => some (0x070, f.bits)
  | .vrmax f => some (0x071, f.bits)
  | .vrmin f => some (0x072, f.bits)
  | .vscan f => some (0x073, f.bits)
  | .virsum f => some (0x074, f.bits)
  | .vcvt f => some (0x080, f.bits)
  | .vqnt f => some (0x081, f.bits)
  | .vld f => some (0x090, f.bits)
  | .vst f => some (0x091, f.bits)
  | .vgath f => some (0x092, f.bits)
  | .vscat f => some (0x093, f.bits)
  | .vstadd f => some (0x0A0, f.bits)
  | .vstmin f => some (0x0A1, f.bits)
  | .vstmax f => some (0x0A2, f.bits)
  | .vstfadd f => some (0x0A3, f.bits)
  | .vstfmin f => some (0x0A4, f.bits)
  | .vstfmax f => some (0x0A5, f.bits)
  | .vldadd f => some (0x0A8, f.bits)
  | .vldmin f => some (0x0A9, f.bits)
  | .vldmax f => some (0x0AA, f.bits)
  | .vrng f => some (0x0B0, f.bits)
  | .defer f => some (0x0C0, f.bits)
  | .drain f => some (0x0C1, f.bits)
  | .drainp f => some (0x0C2, f.bits)
  | .dadd f => some (0x0D0, f.bits)
  | .dsub f => some (0x0D1, f.bits)
  | .dmul f => some (0x0D2, f.bits)
  | .ddiv f => some (0x0D3, f.bits)
  | .dqua f => some (0x0D4, f.bits)
  | .dcmpeq f => some (0x0D8, f.bits)
  | .dcmplt f => some (0x0D9, f.bits)
  | .dcmple f => some (0x0DA, f.bits)
  | .dcvtb f => some (0x0DC, f.bits)
  | .dcvtd f => some (0x0DD, f.bits)
  | .mNop => some (0x000, 0#50)
  | .mgath f => some (0x010, f.bits)
  | .mldw f => some (0x011, f.bits)
  | .mma f => some (0x020, f.bits)
  | .mmad f => some (0x030, f.bits)
  | .mrd f => some (0x040, f.bits)
  | .mwr f => some (0x041, f.bits)
  | .mzero f => some (0x042, f.bits)
  | .mstat f => some (0x050, f.bits)
  | .cNop => some (0x000, 0#50)
  | .cloc f => some (0x010, f.bits)
  | .cisl f => some (0x011, f.bits)
  | .cgrd f => some (0x012, f.bits)
  | .cgwr f => some (0x013, f.bits)
  | .cfill f => some (0x014, f.bits)
  | .cxpos f => some (0x015, f.bits)
  | .cdec f => some (0x016, f.bits)
  | .cfeed f => some (0x017, f.bits)
  | .cgath f => some (0x018, f.bits)
  | _ => none

/-- A D word (R49, R55). -/
def encodeD : Instr → Option (BitVec 32)
  | .dNop => some (0x00#5 ++ (0#27 : BitVec 27))
  | .act f => some (0x01#5 ++ (f.bits : BitVec 27))
  | .rd f => some (0x02#5 ++ (f.bits : BitVec 27))
  | .wr f => some (0x03#5 ++ (f.bits : BitVec 27))
  | .pre b => some (0x04#5 ++ (b ++ 0#22 : BitVec 27))
  | .prea => some (0x05#5 ++ (0#27 : BitVec 27))
  | .refpb b => some (0x06#5 ++ (b ++ 0#22 : BitVec 27))
  | _ => none

/-- An X word (R49, R56). -/
def encodeX : Instr → Option (BitVec 32)
  | .xNop => some (0x00#6 ++ (0#26 : BitVec 26))
  | .xunp4 f => some (0x01#6 ++ (f.bits : BitVec 26))
  | .xdrf f => some (0x02#6 ++ (f.bits : BitVec 26))
  | .xpose f => some (0x03#6 ++ (f.bits : BitVec 26))
  | .xcvt f => some (0x04#6 ++ (f.bits : BitVec 26))
  | .xmx f => some (0x05#6 ++ (f.bits : BitVec 26))
  | _ => none

/-- The slot word of an instruction under a guard: none for a step of the machine (R46, R48, R49). -/
def encode (g : Guard) (i : Instr) : Option Word :=
  match encodeFields i with
  | some (op, p) => some (op ++ BitVec.ofBool g.gn ++ g.gp ++ p)
  | none =>
    match encodeD i with
    | some w => some (w.setWidth 64)
    | none => (encodeX i).map (·.setWidth 64)

/-- The first slot in slot order that takes an instruction, none for a step of the machine (R50, R52 to R56). -/
def slotFor : Instr → Option Slot
  | .sNop => some .s
  | .add _ => some .s
  | .sub _ => some .s
  | .mul _ => some .s
  | .mulhs _ => some .s
  | .mulhu _ => some .s
  | .div _ => some .s
  | .divu _ => some .s
  | .rem _ => some .s
  | .remu _ => some .s
  | .and _ => some .s
  | .or _ => some .s
  | .xor _ => some .s
  | .andn _ => some .s
  | .shl _ => some .s
  | .shr _ => some .s
  | .sar _ => some .s
  | .rol _ => some .s
  | .min _ => some .s
  | .max _ => some .s
  | .minu _ => some .s
  | .maxu _ => some .s
  | .clz _ => some .s
  | .ctz _ => some .s
  | .popc _ => some .s
  | .bswap _ => some .s
  | .addi _ => some .s
  | .subi _ => some .s
  | .muli _ => some .s
  | .mulhsi _ => some .s
  | .mulhui _ => some .s
  | .divi _ => some .s
  | .divui _ => some .s
  | .remi _ => some .s
  | .remui _ => some .s
  | .andi _ => some .s
  | .ori _ => some .s
  | .xori _ => some .s
  | .andni _ => some .s
  | .shli _ => some .s
  | .shri _ => some .s
  | .sari _ => some .s
  | .roli _ => some .s
  | .mini _ => some .s
  | .maxi _ => some .s
  | .minui _ => some .s
  | .maxui _ => some .s
  | .lih _ => some .s
  | .cmpeq _ => some .s
  | .cmpne _ => some .s
  | .cmplt _ => some .s
  | .cmple _ => some .s
  | .cmpltu _ => some .s
  | .cmpleu _ => some .s
  | .cmpeqi _ => some .s
  | .cmpnei _ => some .s
  | .cmplti _ => some .s
  | .cmplei _ => some .s
  | .cmpltui _ => some .s
  | .cmpleui _ => some .s
  | .pand _ => some .s
  | .por _ => some .s
  | .pxor _ => some .s
  | .pnot _ => some .s
  | .agset _ => some .s
  | .agget _ => some .s
  | .loop _ => some .s
  | .prep _ => some .s
  | .prepr _ => some .s
  | .ld _ => some .s
  | .st _ => some .s
  | .stadd _ => some .s
  | .stand _ => some .s
  | .stor _ => some .s
  | .stxor _ => some .s
  | .stmin _ => some .s
  | .stmax _ => some .s
  | .stminu _ => some .s
  | .stmaxu _ => some .s
  | .stfadd _ => some .s
  | .stfmin _ => some .s
  | .stfmax _ => some .s
  | .ldadd _ => some .s
  | .ldand _ => some .s
  | .ldor _ => some .s
  | .ldxor _ => some .s
  | .ldmin _ => some .s
  | .ldmax _ => some .s
  | .ldminu _ => some .s
  | .ldmaxu _ => some .s
  | .ldfadd _ => some .s
  | .ldfmin _ => some .s
  | .ldfmax _ => some .s
  | .swp _ => some .s
  | .cas _ => some .s
  | .albegin _ => some .s
  | .alend => some .s
  | .waita _ => some .s
  | .mfsr _ => some .s
  | .mtsr _ => some .s
  | .mssr _ => some .s
  | .mcsr _ => some .s
  | .mode _ _ => some .s
  | .clkdiv _ _ => some .s
  | .fence _ => some .s
  | .waits _ => some .s
  | .endTask => some .s
  | .trap _ => some .s
  | .tret => some .s
  | .yieldchk _ _ => some .s
  | .vNop => some .v0
  | .vadd _ => some .v0
  | .vsub _ => some .v0
  | .vmul _ => some .v0
  | .vfma _ => some .v0
  | .vfms _ => some .v0
  | .vfnma _ => some .v0
  | .vmin _ => some .v0
  | .vmax _ => some .v0
  | .vabs _ => some .v0
  | .vneg _ => some .v0
  | .vdiv _ => some .v0
  | .vsqrt _ => some .v0
  | .vrcp _ => some .v0
  | .vrsq _ => some .v0
  | .vexp2 _ => some .v0
  | .vlog2 _ => some .v0
  | .viadd _ => some .v0
  | .visub _ => some .v0
  | .vimul _ => some .v0
  | .vimin _ => some .v0
  | .vimax _ => some .v0
  | .viminu _ => some .v0
  | .vimaxu _ => some .v0
  | .vand _ => some .v0
  | .vor _ => some .v0
  | .vxor _ => some .v0
  | .vshl _ => some .v0
  | .vshr _ => some .v0
  | .vsar _ => some .v0
  | .viadds _ => some .v0
  | .visubs _ => some .v0
  | .vadd128 _ => some .v0
  | .vcmpeq _ => some .v0
  | .vcmpne _ => some .v0
  | .vcmplt _ => some .v0
  | .vcmple _ => some .v0
  | .vcmpun _ => some .v0
  | .vicmplt _ => some .v0
  | .vicmpltu _ => some .v0
  | .mand _ => some .v0
  | .mor _ => some .v0
  | .mxor _ => some .v0
  | .mnot _ => some .v0
  | .mpop _ => some .v0
  | .mset _ => some .v0
  | .vsel _ => some .v0
  | .vperm _ => some .v0
  | .vbcst _ => some .v0
  | .vcompact _ => some .v0
  | .vexpand _ => some .v0
  | .vmovs _ => some .v0
  | .vrsum _ => some .v0
  | .vrmax _ => some .v0
  | .vrmin _ => some .v0
  | .vscan _ => some .v0
  | .virsum _ => some .v0
  | .vcvt _ => some .v0
  | .vqnt _ => some .v0
  | .vld _ => some .v0
  | .vst _ => some .v0
  | .vgath _ => some .v0
  | .vscat _ => some .v0
  | .vstadd _ => some .v0
  | .vstmin _ => some .v0
  | .vstmax _ => some .v0
  | .vstfadd _ => some .v0
  | .vstfmin _ => some .v0
  | .vstfmax _ => some .v0
  | .vldadd _ => some .v0
  | .vldmin _ => some .v0
  | .vldmax _ => some .v0
  | .vrng _ => some .v0
  | .defer _ => some .v0
  | .drain _ => some .v0
  | .drainp _ => some .v0
  | .dadd _ => some .v0
  | .dsub _ => some .v0
  | .dmul _ => some .v0
  | .ddiv _ => some .v0
  | .dqua _ => some .v0
  | .dcmpeq _ => some .v0
  | .dcmplt _ => some .v0
  | .dcmple _ => some .v0
  | .dcvtb _ => some .v0
  | .dcvtd _ => some .v0
  | .mNop => some .m
  | .mgath _ => some .m
  | .mldw _ => some .m
  | .mma _ => some .m
  | .mmad _ => some .m
  | .mrd _ => some .m
  | .mwr _ => some .m
  | .mzero _ => some .m
  | .mstat _ => some .m
  | .cNop => some .c0
  | .cloc _ => some .c0
  | .cisl _ => some .c0
  | .cgrd _ => some .c0
  | .cgwr _ => some .c0
  | .cfill _ => some .c0
  | .cxpos _ => some .c0
  | .cdec _ => some .c0
  | .cfeed _ => some .c0
  | .cgath _ => some .c0
  | .dNop => some .d
  | .act _ => some .d
  | .rd _ => some .d
  | .wr _ => some .d
  | .pre _ => some .d
  | .prea => some .d
  | .refpb _ => some .d
  | .xNop => some .x
  | .xunp4 _ => some .x
  | .xdrf _ => some .x
  | .xpose _ => some .x
  | .xcvt _ => some .x
  | .xmx _ => some .x
  | _ => none

/-- The slot word of the opcode table as the decoder reads it: a 64-bit word in the first slot, in the order S,
V0, M, C0, that decodes it, and a 32-bit word in X, else in D (log entry 11). -/
def decodeTableWord (nbits w : Nat) : Option Instr :=
  let try' := fun (slot : Slot) => (decodeWord slot (BitVec.ofNat 64 w)).toOption
  if nbits ≤ 32 then (try' .x).orElse (fun _ => try' .d)
  else (try' .s).orElse (fun _ => (try' .v0).orElse (fun _ => (try' .m).orElse (fun _ => try' .c0)))

end Sys2Proof
end

