-- ==== Sys2Proof/Machine/State.lean ====
section
/-! DEFINITION. The state of the AP96 as plain data, the reasons a step stops, and the state after reset.
Island cycles and reference cycles are natural numbers; an age is kept as the cycle at which it was 0. -/

namespace Sys2Proof.Machine

/-- Why the machine stops with a fault. -/
inductive Fault where
  /-- A step of the machine that names a tile, an island, a bank, a port or a link the package does not have
  (R5, R7). Raised by the meanings of such steps through `Instr.wf`. Safe: no such part exists. -/
  | noSuchPart
  deriving DecidableEq, Repr

/-- Why an instruction has no meaning here. -/
inductive Refusal where
  /-- The model gives the instruction no meaning yet. Raised by an arm of `exec`. Safe. -/
  | notModelled (mnemonic : String)
  deriving DecidableEq, Repr

/-- Memory: the bytes that are not 0, by rising address. -/
abbrev Memory := List Host.Cell

/-- Values by rising key. -/
abbrev Table (α : Type) := List (Nat × α)

/-! ### Registers of a tile -/

/-- An address generator (R115). -/
structure Gen where
  space : BitVec 4 := 0
  base : Word := 0
  step : Word := 0
  stride : Vector Word 6 := Vector.replicate 6 0
  limit : Word := 0
  deriving DecidableEq, Repr

/-- The register files and latches a tile's operations read and write (R25, R110, R115, R190, R230).
Vector registers and accumulators that are not listed hold 0. -/
structure Regs where
  s : Vector Word 32 := Vector.replicate 32 0
  p : Vector Bool 8 := Vector.replicate 8 false
  ag : Vector Gen 16 := Vector.replicate 16 (Gen.mk 0 0 0 (Vector.replicate 6 0) 0)
  v : Table VReg := []
  m : Vector MReg 16 := Vector.replicate 16 0
  acc : Table AccTile := []
  /-- Operand latch: 32 rows of 64 bytes, and 32 scale words (R230). -/
  opLatch : BitVec 16384 := 0
  opScales : BitVec 1024 := 0
  /-- Weight latch of 4,352 bytes and its 4-bit tag (R230). -/
  wLatch : BitVec 34816 := 0
  wTag : BitVec 4 := 0
  deriving DecidableEq, Repr

/-- The system registers a task reads and writes (R142 to R147); the rest are computed or package-wide. -/
structure Sys where
  gm : Bool := false
  er : Bool := false
  hnd : Bool := false
  fpsr : BitVec 6 := 0
  ftrapen : BitVec 5 := 0
  dfpsr : BitVec 5 := 0
  dtrapen : BitVec 5 := 0
  drm : BitVec 3 := 0
  xp : Bool := false
  v1p : Bool := false
  sfail : Bool := false
  rcls : Bool := false
  thr : Bool := false
  pre : Bool := false
  trec : BitVec 12 := 0
  handler : BitVec 19 := 0
  en : Bool := false
  /-- Divisors in force: control core, matrix, vector, copy (R146). -/
  div : Vector Nat 4 := Vector.replicate 4 1
  /-- The divisors the task last requested, and the throttle floors (R334). -/
  divReq : Vector Nat 4 := Vector.replicate 4 1
  divFloor : Vector Nat 4 := Vector.replicate 4 1
  /-- The floors that the throttle notice has brought (R333, R334). -/
  thrTo : Vector Nat 4 := Vector.replicate 4 1
  deriving DecidableEq, Repr

/-! ### Operations in flight -/

/-- A place that a result lands in. -/
inductive Loc where
  | s (r : Nat)
  | p (r : Nat)
  | ag (g f : Nat)
  | v (r : Nat)
  | m (r : Nat)
  | acc (r : Nat)
  | opLatch
  | wLatch
  | wTag
  deriving DecidableEq, Repr

/-- What a landing writes. A vector write keeps the bits whose mask bit is 0. -/
inductive Write where
  | s (r : Nat) (x : Word)
  | p (r : Nat) (b : Bool)
  | ag (g f : Nat) (x : Word)
  | v (r : Nat) (keep x : VReg)
  | m (r : Nat) (x : MReg)
  | acc (r : Nat) (x : AccTile)
  | opLatch (x : BitVec 16384) (scales : BitVec 1024)
  | wLatch (x : BitVec 34816)
  | wTag (x : BitVec 4)
  deriving DecidableEq, Repr

/-- A trap that an operation asks for: its code, the slot field of its frame (R151), the element mask,
aux, the violated vault constraint, and the virtual address and kind of access that the dispatcher's report carries (R279). The codes: R59, R80, R108, R149, R171, R228, R250, R278, R284, R316. -/
structure TrapReq where
  code : Nat
  slot : Nat
  mask : BitVec 1024 := 0
  aux : Nat := 0
  word : Word := 0
  access : Option (Nat × Nat) := none
  deriving DecidableEq, Repr

/-- What a trap-checked operation's elements raise: binary or decimal exceptions, and for each of iv, dz, of, uf and
nx the elements that raise it (R79). -/
structure Check where
  dec : Bool := false
  raised : List (BitVec 1024) := []
  deriving DecidableEq, Repr

/-- An operation that has issued and not landed (R27): it lands on a cycle from `ready` to `bound`. -/
structure Flight where
  id : Nat
  slot : Nat
  issue : Nat
  ready : Nat
  bound : Nat
  dests : List Loc
  writes : List Write
  /-- Exceptions it raises in sr.fpsr and sr.dfpsr when it lands (R74, R76). -/
  bflags : BitVec 6 := 0
  dflags : BitVec 5 := 0
  check : Option Check := none
  /-- Another flight to the same destination was in flight beside it (R28). -/
  rival : Bool := false
  /-- It lands what a returning atomic or a line region loads (R128). -/
  atomic : Bool := false
  deriving DecidableEq, Repr

/-- A write to a system register on this cycle, applied before the next (R78, R142). -/
structure SrWrite where
  sys : Nat
  /-- 0 MTSR, 1 MSSR, 2 MCSR. -/
  how : Nat
  x : Word
  deriving DecidableEq, Repr

/-- The arrival word a copy is counted into: the tile and address of the word, and bytes a unit counts (R276). -/
structure Arrival where
  tile : Nat
  addr : Nat
  bytes : Nat
  deriving DecidableEq, Repr

/-- What a timed read of staging is for. -/
inductive ReadUse where
  /-- A scalar load: its flight, register, and whether it sign-extends (R124). -/
  | scalar (flight reg : Nat) (sx : Bool)
  /-- Bytes of a vector register at a byte offset, of a vector load or gather (R205, R206). -/
  | vector (flight reg off : Nat)
  /-- A row or a scale word of the operand latch, bytes of the weight latch (R236, R237). -/
  | opRow (flight row : Nat)
  | opScale (flight row : Nat)
  | weight (flight off : Nat)
  /-- Bytes a static copy writes on a later cycle (R265). -/
  | copyTo (cycle tile addr : Nat) (arrival : Option Arrival)
  /-- Part of a tile that CXPOS transposes: `width` bytes an element, the tile's destination and first write
  cycle, with the copy divisor; the last part writes (R271). -/
  | xpose (id part width tile addr cycle step : Nat) (arrival : Option Arrival)
  /-- A unit that CGWR sends (R267). -/
  | unit (copy unit : Nat)
  /-- A WR column: bank, row and column (R168). -/
  | column (bank row col : Nat)
  deriving DecidableEq, Repr

/-- A read of staging on a stated cycle. -/
structure StRead where
  cycle : Nat
  tile : Nat
  slot : Nat
  addr : Nat
  len : Nat
  use : ReadUse
  issue : Nat
  /-- It belongs to an island copy (R135, R265). -/
  isle : Bool := false
  deriving DecidableEq, Repr

/-- A write of staging on a stated cycle, in the order of its list within one slot. -/
structure StWrite where
  cycle : Nat
  tile : Nat
  slot : Nat
  addr : Nat
  bytes : List Byte
  issue : Nat
  arrival : Option Arrival := none
  /-- It is an island copy's, or a space-1 store's (R125, R135). -/
  isle : Bool := false
  deriving DecidableEq, Repr

/-- A unit to be counted into an arrival word at the end of a cycle: the tile and slot of its copy, its number, and for a
global copy the copy's identifier (R276, R278). -/
structure CountUnit where
  src : Nat
  slot : Nat
  unit : Nat
  copy : Option Nat
  word : Arrival
  deriving DecidableEq, Repr

/-! ### The vault -/

/-- The state of a bank (R161). Ages are kept as the island cycle at which they were 0. -/
structure Bank where
  opened : Bool := false
  row : BitVec 13 := 0
  owed : Int := 0
  rptr : BitVec 10 := 0
  act : Int := -255
  pre : Int := -255
  rd : Int := -255
  wr : Int := -255
  ref : Int := -255
  deriving DecidableEq, Repr

/-- The last events of the tile channel, with their banks, the most recent activation first (R162, R173). -/
structure Channel where
  acts : Vector (Int × Nat) 4 := Vector.replicate 4 (-255, 0)
  rd : Int × Nat := (-255, 0)
  wr : Int × Nat := (-255, 0)
  deriving DecidableEq, Repr

/-- A DRAM layer of a vault: classes, sensor and warning (R177 to R180); times are layer cycles. -/
structure Layer where
  app : BitVec 2 := 0
  pend : BitVec 2 := 0
  sfail : Bool := false
  warn : BitVec 3 := 0
  /-- The rises still ahead of `app`: when it takes each, and the class (R179). -/
  leads : List (Nat × BitVec 2) := []
  /-- A failure criterion has been met and not yet reported (R180). -/
  suspect : Bool := false
  /-- The last valid reading in quarter degrees, when it was read, and since when it is unchanged (R180). -/
  reading : Option Int := none
  readAt : Nat := 0
  stillSince : Nat := 0
  /-- The compute-die reading when the layer's reading last changed (R180). -/
  compute : Option Int := none
  /-- The remap copies lost: the layer's own, and the base die's (R375). -/
  lostOwn : Bool := false
  lostShadow : Bool := false
  deriving DecidableEq, Repr

/-- An RD in flight: when its column is written to staging, where, and the column's data (R168). -/
structure RdFlight where
  id : Nat
  cycle : Nat
  bank : Nat
  row : Nat
  col : Nat
  addr : Nat
  bytes : List Byte
  written : Bool := false
  deriving DecidableEq, Repr

/-- The vault of a tile (R158 to R189); its data is in `State.mem`. -/
structure Vault where
  banks : Vector Bank 32 := Vector.replicate 32 { }
  chan : Channel := { }
  layers : Vector Layer 4 := Vector.replicate 4 { }
  /-- Class of the running schedule variant (R177). -/
  sched : BitVec 2 := 0
  failed : Bool := false
  /-- The idle refresh sequencer keeps the owned banks (R175, R176). -/
  keeper : Bool := false
  reads : List RdFlight := []
  /-- Banks whose owed count has passed 8 on this cycle (R175). -/
  deficit : List Nat := []
  deriving DecidableEq, Repr

/-! ### The sequencer -/

/-- A slot latch (R45). -/
structure Latch where
  word : Word := 0
  index : BitVec 32 := 0
  live : Bool := false
  deriving DecidableEq, Repr

/-- A loop level (R117). -/
structure Loop where
  active : Bool := false
  lc : BitVec 32 := 0
  l : BitVec 32 := 0
  body : Nat := 0
  deriving DecidableEq, Repr

/-- How full a target entry is; a filling entry was asked for on an island cycle (R60, R122). -/
inductive Fill where
  | empty
  | filling (asked : Nat)
  | filled
  deriving DecidableEq, Repr

/-- A target entry (R122). -/
structure Target where
  addr : Word := 0
  fill : Fill := .empty
  deriving DecidableEq, Repr

/-- A line of the prefetch window: its address, when it was asked for, and whether it has arrived (R60). -/
structure FetchLine where
  addr : Nat
  asked : Nat
  here : Bool
  deriving DecidableEq, Repr

/-- A tile's vault at a moment: its island cycle, its pcc cycle, and the vault as it stood (R189). -/
structure Snap where
  icc : Nat
  pcc : Nat
  vault : Vault
  deriving DecidableEq, Repr

/-- What holds the tile between two bundles (R32). -/
inductive Stall where
  | none
  /-- WAITA: destination, address of the word, and the generation to differ from (R133). -/
  | waita (d addr : Nat) (old : BitVec 32)
  /-- WAITS and FENCE: the operations with identifiers below `upto` (R134, R135). -/
  | waits (sel upto : Nat)
  | fence (sel upto : Nat)
  | modeDrain (gm er : Bool)
  | tretDrain
  /-- END's wait, and the wait at the exit barrier (R148, R292). -/
  | ending
  | exiting
  /-- A sync bundle before arrival and after it (R137, R291). -/
  | arriving (lev : Nat)
  | released (lev : Nat)
  /-- A suspension point's drain (R335). -/
  | draining
  deriving DecidableEq, Repr

/-- What a tile does (R6, R32, R152, R153, R335). -/
inductive Phase where
  | free
  | starting
  | running
  | trapping
  | suspending
  | suspended
  | resuming
  | stopped
  | halted
  | ended
  /-- Its launch ends by order: nothing issues, and what has issued lands, performs or faults (R344). -/
  | closing
  deriving DecidableEq, Repr

/-- A trap being taken, with what its frame shows of the moment it was raised (R150, R151, R189). -/
structure TrapRec where
  req : TrapReq
  /-- 0 stopped, 1 handler entered, 2 halted by a gang member (R151). -/
  disp : Nat
  addr : Nat
  next : Nat
  issue : Nat
  rest : Bool
  icc : Nat
  pcc : Nat
  banks : Vector (Word × Word) 32
  phase : Word
  deriving DecidableEq, Repr

/-- The sequencer of a tile (R35 to R60, R117 to R123, R132 to R141). -/
structure Seq where
  phase : Phase := .free
  stall : Stall := .none
  /-- Address of the bundle that issues next, or of the repeating bundle in hand. -/
  pc : Nat := 0
  /-- Number of the last issue made of the bundle at `pc`, and whether it has issues left (R42). -/
  inHand : Bool := false
  issueNo : Nat := 0
  /-- The bundle in hand is suppressed (R43). -/
  hushed : Bool := false
  /-- The kind of the bundle that issues next does not act (R183). -/
  calm : Bool := false
  /-- Address of the bundle issued last, the number of its last issue, and the island cycle of that issue. -/
  last : Nat := 0
  lastNo : Nat := 0
  issuedAt : Nat := 0
  /-- The island cycle from which the next issue may take place. -/
  nextAt : Nat := 0
  /-- What the bundle still does after its last issue: its kind, then its transfer or loop end (R42, R44). -/
  after : List Instr := []
  /-- The value that the transfer of the bundle issued last has waited for: that of an earlier operation's write to its
  predicate (R44). -/
  xpHeld : Option Bool := none
  latches : Vector Latch 8 := Vector.replicate 8 { }
  loops : Vector Loop 6 := Vector.replicate 6 { }
  targets : Vector Target 8 := Vector.replicate 8 { }
  window : List FetchLine := []
  /-- The code that the loop buffer has captured, from the start of the outermost body to the end of its last bundle
  captured, and whether it captures. A body of more than 128 KiB is not held (R121). -/
  captured : Option (Nat × Nat) := none
  capture : Bool := false
  /-- Island cycle of the last yield point, reference cycle of the last re-plan point (R31). -/
  yieldAt : Nat := 0
  replanAt : Nat := 0
  /-- The bundle that would issue next, as a frame shows it (R150). -/
  next : Nat := 0
  /-- The gang member by which this tile is halted on the next cycle (R152). -/
  haltBy : Option Nat := none
  /-- Landed trap-checked operations of the last issue: slot, and what their elements raise (R79). -/
  checks : List (Nat × Check) := []
  /-- The vault as it stood when the last issue was checked (R189). -/
  snap : Option Snap := none
  /-- The vault as it stood when the last issue before the handler was checked (R153, R189). -/
  under : Option Snap := none
  /-- The vault as it stood when the suspension point acted (R336). -/
  pointAt : Option Snap := none
  /-- Held arithmetic traps of V1 and X (R79), with the vault as it stood at their issue (R189). -/
  held : List TrapReq := []
  heldAt : Option Snap := none
  /-- What MODE, END or TRET of a trapping bundle has still to do once the task has returned to it, the trap taken last first
  (R140, R148, R154, log entry 87). -/
  owed : List (Option Stall) := []
  trap : Option TrapRec := none
  /-- Its launch is cancelled, and the bundle in hand is its last (R344). -/
  ceasing : Bool := false
  /-- Faults found, with the island cycle on which each is raised (R172, R225, R245, R279). -/
  faults : List (Nat × TrapReq) := []
  srPend : List SrWrite := []
  /-- Target entries and divisors that take effect with the next cycle (R122, R141). -/
  prepPend : List (Nat × Target) := []
  divPend : List (Nat × Nat) := []
  /-- Issues the bundle in hand has after its first (R42), and the stall that follows its last: MODE's, TRET's or
  END's (R140, R148, R154). -/
  reps : Nat := 0
  closing : Option Stall := none
  /-- Flags landed on this cycle (R78), and the places landed in with their slot (R28). -/
  landedB : BitVec 6 := 0
  landedD : BitVec 5 := 0
  landed : List (Loc × Nat) := []
  flights : List Flight := []
  stReads : List StRead := []
  stWrites : List StWrite := []
  /-- The island cycle on which each unit is free again: divider, V0, V1, X, C0, C1 (R109, R192, R265). -/
  divFree : Nat := 0
  vFree : Vector Nat 2 := Vector.replicate 2 0
  xFree : Nat := 0
  cFree : Vector Nat 2 := Vector.replicate 2 0
  /-- The cycle on which each group of matrix instructions is free again (R231). -/
  mFree : Vector Nat 5 := Vector.replicate 5 0
  deriving DecidableEq, Repr

/-! ### The engines of a tile -/

/-- A pending MMAD request (R241). -/
structure MmadReq where
  id : Nat
  acc : Nat
  row : Nat
  q : Nat
  base : Nat
  lim : Nat
  issue : Nat
  deriving DecidableEq, Repr

/-- The denomination path of the matrix engine: its requests, the first in progress when `started`, the
accumulator elements it works on, the positions of the open chunk with the rows read for them, rows read ahead, and 32
partial sums (R242, R243, R246). -/
structure Mmad where
  reqs : List MmadReq := []
  started : Bool := false
  row : List (BitVec 32) := []
  chunk : List (Nat × Option (BitVec 512)) := []
  ahead : List (Nat × BitVec 512) := []
  sums : List (BitVec 32) := []
  rowsDone : Nat := 0
  /-- The island cycle on which the last request ended (R244). -/
  endedAt : Nat := 0
  deriving DecidableEq, Repr

/-- A pending XDRF request (R221). -/
structure DrfReq where
  id : Nat
  f : Nat
  q : Nat
  ratio : Nat
  issue : Nat
  deriving DecidableEq, Repr

/-- The progress of the DRF row in decoding (R86 to R89, R222, R223): bytes consumed, what comes next (0 the row
header, 1 a group header, 2 position data, 3 a group's padding and token, 4 the row token), K, groups and the index of
the group in hand, its coding, value and positions still to come, the position that delta coding counts from or the
bitmap bit that comes next, the values and positions of the row so far, the entries waiting to be emitted, the error
that follows them, and the charge of the present block. -/
structure DrfRow where
  used : Nat := 0
  stage : Nat := 0
  k : Nat := 0
  groups : Nat := 0
  group : Nat := 0
  bitmap : Bool := false
  value : BitVec 16 := 0
  left : Nat := 0
  pos : Nat := 0
  values : List (BitVec 16) := []
  seen : BitVec 16384 := 0
  emit : List (BitVec 32) := []
  err : Option Nat := none
  block : Nat := 0
  charge : Nat := 0
  deriving DecidableEq, Repr

/-- The denomination decoder: its requests, the first in progress when `row` holds its progress (R221 to R226). -/
structure Drf where
  reqs : List DrfReq := []
  row : Option DrfRow := none
  rowsDone : Nat := 0
  /-- The island cycle on which the last request ended (R224). -/
  endedAt : Nat := 0
  deriving DecidableEq, Repr

/-- A deferral queue: the width of its entries in words, its entries with the island cycle of their DEFER, the
oldest first, and the words other writes have stored in its region since it was last empty (R209). -/
structure Dq where
  width : Nat := 0
  entries : List (Nat × List (BitVec 32)) := []
  foreign : List (Nat × BitVec 32) := []
  deriving DecidableEq, Repr

/-- An entry that a walk has visited: the first address it covers, the entry and its level (R252, R253). -/
structure Leaf where
  va : Nat
  entry : Word
  level : Nat
  deriving DecidableEq, Repr

/-- The kinds of global copy (R263). -/
inductive GKind where
  | grd | gwr | dec | feed | gath
  deriving DecidableEq, Repr

/-- A global copy outstanding (R268, R280): source and destination, units, what it has translated, and the units
performed; `data` holds the units CGWR has read, `idx` the indices of CGATH. -/
structure GCopy where
  id : Nat
  slot : Nat
  kind : GKind
  src : Nat
  srcSpace : Nat
  dst : Nat
  units : Nat
  issue : Nat
  width : Nat := 0
  fifo : Nat := 0
  idx : List Nat := []
  arrival : Option Arrival := none
  leaves : List Leaf := []
  /-- Units below this number lie in translated pages. -/
  walked : Nat := 0
  /-- The unit from which nothing performs, and the code found (R280). -/
  fault : Option (Nat × Nat) := none
  done : List Nat := []
  /-- Units counted into the arrival word; a unit written again at a restart is not counted again (R281, R285). -/
  counted : List Nat := []
  data : Table (List Byte) := []
  /-- A copy-clock cycle in island cycles, as it was at the issue (R141, R273). -/
  step : Nat := 1
  /-- The pcc cycle of the issue (R277), and the pcc cycles on which pages were translated, with the unit below which the units
  could be sent from then on (R268). -/
  asked : Nat := 0
  sent : List (Nat × Nat) := []
  stopped : Bool := false
  deriving DecidableEq, Repr

/-- The operations of atomics (R126, R207). -/
inductive AOp where
  | add | and | or | xor | min | max | minu | maxu | fadd | fmin | fmax | swp | cas
  deriving DecidableEq, Repr

/-- One access of an atomic line region: a store of bytes, or a load into a register (R131). -/
structure LineAccess where
  store : Bool
  off : Nat
  size : Nat
  reg : Nat
  sx : Bool
  data : Word
  flight : Option Nat := none
  deriving DecidableEq, Repr

/-- What an atomic outstanding does (R126, R131). -/
inductive AKind where
  | scalar (op : AOp) (size : Nat) (n e : Word) (ret : Option Nat)
  | line (accesses : List LineAccess)
  deriving DecidableEq, Repr

/-- An atomic or a line region that has left the tile (R127 to R131); `flight` lands its loaded values. -/
structure Atomic where
  id : Nat
  va : Nat
  kind : AKind
  issue : Nat
  flight : Option Nat
  leaf : Option Leaf := none
  stopped : Bool := false
  deriving DecidableEq, Repr

/-- A vector atomic waiting or in progress: lanes as lane, address and operand in ascending order, and the old
values of a returning form (R282). -/
structure VAtomic where
  id : Nat
  slot : Nat
  op : AOp
  size : Nat
  lanes : List (Nat × Nat × Word)
  total : Nat
  flight : Option Nat
  d : Nat := 0
  olds : List (Nat × Word) := []
  issue : Nat
  started : Bool := false
  stopped : Bool := false
  deriving DecidableEq, Repr

/-- An entry of the early-read checker's list: a staging range of a copy, global or static, or of an RD; of a static one and of an
RD the first cycle whose reads are no early ones (R278, log entry 113). -/
structure Listed where
  copy : Nat
  slot : Nat
  glob : Bool
  addr : Nat
  len : Nat
  till : Nat
  arrival : Option Arrival := none
  /-- The copy's counting has advanced the generation of its word (R278). -/
  advanced : Bool := false
  deriving DecidableEq, Repr

/-- A host-window write unit that a Lantern port has accepted and the host has not acknowledged: its copy, number, slot and
address, the pcc cycle on which the port accepted it, and whether it has been found to fail (R268, R281, R291). -/
structure HostAck where
  copy : Nat
  unit : Nat
  slot : Nat
  va : Nat
  pcc : Nat
  failed : Bool := false
  deriving DecidableEq, Repr

/-- The engines' lists of a tile. -/
structure Engines where
  mmad : Mmad := { }
  drf : Drf := { }
  q : Vector (List (BitVec 32)) 4 := Vector.replicate 4 []
  /-- The entries popped on a cycle, whose slots are free from the next one on: cycle and queue (R242). -/
  pops : List (Nat × Nat) := []
  df : Vector (List Byte) 2 := Vector.replicate 2 []
  /-- The cycle from which a unit may enter each decoder FIFO (R273). -/
  dfAt : Vector Nat 2 := Vector.replicate 2 0
  dq : Vector Dq 4 := Vector.replicate 4 { }
  copies : List GCopy := []
  atomics : List Atomic := []
  vatomics : List VAtomic := []
  acks : List HostAck := []
  region : Option (Nat × List LineAccess) := none
  /-- The cycle on which the last vector atomic left its engine (R283). -/
  vaEnd : Nat := 0
  early : List Listed := []
  /-- Tiles whose CXPOS parts are being read: copy, tile of the copy, bytes so far (R271). -/
  xbufs : List (Nat × List Byte) := []
  deriving DecidableEq, Repr

/-! ### Barriers and links of a tile -/

/-- A send-window line marked: the island cycle, the line's address, channel and number, and who wrote it: a partner's tile,
or the tile itself (R291, R304). -/
structure Mark where
  cycle : Nat
  addr : Nat
  chan : Nat
  line : Nat
  by_ : List (Option Nat) := []
  deriving DecidableEq, Repr

/-- Barrier and link state of a task (R291 to R306). -/
structure Bar where
  epoch : Nat := 0
  /-- The level whose arrival is signalled and not yet released (R292). -/
  arrived : Option Nat := none
  /-- The task must raise 0x50 at its next sync of a level with a lost member (R301). -/
  lost : List Nat := []
  /-- Island cycle of the start or of the last release that restarts the link interval (R306). -/
  linkAt : Nat := 0
  /-- Send-window lines marked and not yet accepted, and the island cycle from which the link port accepts again (R304). -/
  marks : List Mark := []
  portAt : Nat := 0
  /-- Receive-window lines whose full bit is set: channel and line (R305). -/
  full : List (Nat × Nat) := []
  deriving DecidableEq, Repr

/-! ### Tiles -/

/-- The task bound to a tile, or suspended on it (R12, R13, R26): its launch, role, record and variant. -/
structure Task where
  serial : Nat
  role : Nat
  record : List Word
  variant : Nat
  /-- Where its context stands while it is suspended: 0 yield, 1 re-plan, 2 and 3 sync waits (R338). -/
  point : Nat := 0
  /-- The code that the saved loop buffer holds, and the post-operations that act at resumption (R336, R339). -/
  captured : Option (Nat × Nat) := none
  capture : Bool := false
  after : List Instr := []
  closing : Option Stall := none
  /-- Target entries of the suspension point's bundle that its transfer does not see (R122). -/
  preps : List (Nat × Target) := []
  /-- What a suspended task keeps of its barriers and links (R292, R338). -/
  bar : Bar := { }
  /-- Its send windows: channel, base in staging, and lines (R302, R304). -/
  windows : List (Nat × Nat × Nat) := []
  /-- The vault as its context has it, with the island cycle of the suspension (R176, R336). -/
  vault : Option (Nat × Vault) := none
  /-- From a resumption until its next release, a read of an undelivered line stalls: the levels (R340). -/
  lenient : List Nat := []
  /-- The task takes its checkpoint path (R341). -/
  ckpt : Bool := false
  /-- The notice it has is a hold's, which the checkpoint path does not answer (R342), and the traps its suspended handler
  holds back (R79). -/
  holding : Bool := false
  held : List TrapReq := []
  heldAt : Option Snap := none
  owed : List (Option Stall) := []
  /-- The vault as it stood at the last issue before the handler in which it is suspended (R189). -/
  under : Option Snap := none
  /-- The effective class against which its schedule was selected (R25, R181). -/
  chosen : BitVec 2 := 0
  /-- The divisor floors that its context has, and those that its notice has brought (R334). -/
  floor : Vector Nat 4 := Vector.replicate 4 1
  thrTo : Vector Nat 4 := Vector.replicate 4 1
  deriving DecidableEq, Repr

/-- A tile (R6). -/
structure Tile where
  regs : Regs := { }
  sys : Sys := { }
  seq : Seq := { }
  vault : Vault := { }
  eng : Engines := { }
  bar : Bar := { }
  /-- The staging buffer (R155). -/
  st : Memory := []
  task : Option Task := none
  /-- The task whose context rows 8 to 2,152 hold, with its vault as the sequencer keeps it (R160, R176). -/
  saved : Option Task := none
  savedOwn : BitVec 31 := 0
  /-- The entries of the saved context's deferral queues, which stand in its saved staging (R209). -/
  savedDq : Vector Dq 4 := Vector.replicate 4 { }
  /-- The vault as a stopped task's frame has it, with the island cycle of the trap, which a restart gives back
  (R176). -/
  kept : Option (Nat × Vault) := none
  /-- The tile's own drained task stays in place because another context is saved here (R336). -/
  inPlace : Bool := false
  secure : Bool := false
  /-- The frames of rows 0 to 7 are unread (R343). -/
  frames : Bool := false
  /-- The world of the task that last owned each bank (R18). -/
  worlds : Table Bool := []
  /-- The island cycle by which the save of a context ends (R336). -/
  busyTill : Nat := 0
  deriving DecidableEq, Repr

/-- An island (R8, R185, R347, R364). Floors are for control core, matrix, vector and copy. -/
structure Island where
  lost : Nat := 0
  /-- The present island cycle is to be stretched; this pcc cycle is the second of a stretched one; the island cycle that
  was stretched last (R185). -/
  due : Bool := false
  stretch : Bool := false
  stretchAt : Option Nat := none
  cur : Nat := 0
  tgt : Nat := 0
  held : Nat := 0
  hv : Bool := false
  sup : Bool := false
  /-- The end of the voltage step under way, and whether the step is the ramp's (R365, R366). -/
  step : Option Nat := none
  floors : Vector Nat 4 := Vector.replicate 4 1
  throttle : Vector Nat 4 := Vector.replicate 4 1
  reading : Option Int := none
  readAt : Nat := 0
  /-- Since when its reading is unchanged, and the base-die reading then (R180, R377). -/
  stillSince : Nat := 0
  beside : Option Int := none
  failed : Bool := false
  suspect : Bool := false
  hot : Nat := 0
  deriving DecidableEq, Repr

/-! ### The package -/

/-- Launch states (R321). -/
inductive LState where
  | queued | binding | running | suspending | suspended | resuming | held | ending | ended | checkpointed
  | failed | refused | cancelled
  deriving DecidableEq, Repr

/-- Code of a launch state (R321). -/
def LState.code : LState → Nat
  | .queued => 0 | .binding => 1 | .running => 2 | .suspending => 3 | .suspended => 4 | .resuming => 5
  | .held => 6 | .ending => 7 | .ended => 8 | .checkpointed => 9 | .failed => 10 | .refused => 11
  | .cancelled => 12

/-- An epoch report (R311): code, virtual address, whether it writes, the accessing role, the tag's role, E. -/
structure EpochReport where
  code : Nat
  va : Nat
  kind : Nat
  role : Nat
  tagRole : Nat
  epoch : Nat
  deriving DecidableEq, Repr

/-- A launch in its dispatcher (R318 to R345). -/
structure Launch where
  sub : Submission
  disp : Nat
  state : LState := .queued
  code : Nat := 0
  /-- Roles that have stopped, those halted by a gang member included, and roles that have ended by END. -/
  stops : List Nat := []
  ends : List Nat := []
  frole : Nat := 0
  trapped : Bool := false
  age : Nat := 0
  port : Nat := 0
  variant : Nat := 0
  sched : Nat := 0
  tiles : List Nat := []
  pver : Nat := 0
  param : List Byte := []
  word : Word := 0
  phases : List (BitVec 5) := []
  reports : List EpochReport := []
  nrep : Nat := 0
  /-- Virtual address and kind of access of each trap of R279. -/
  faults : List (Nat × Nat) := []
  /-- The members of its groups that have ended abnormally, by pod rank and role (R301). -/
  lost : List (Nat × Nat) := []
  notified : Bool := false
  hold : Bool := false
  ckpt : Bool := false
  /-- The cycle on which it left the last running state, and whether its status is acknowledged (R345). -/
  leftAt : Option Nat := none
  acked : Bool := false
  /-- The trace entry it is matched to (R332). -/
  seqNo : Option Nat := none
  /-- The islands whose gangs have issued their first bundles. -/
  started : List Nat := []
  /-- The islands whose tiles are granted for a resumption, and whether each gang resumes by itself, as after a hold
  (R339, R342). -/
  granted : List Nat := []
  parts : Bool := false
  /-- Pages still to be moved out of its owned banks stop its binding (R261). -/
  waiting : Bool := false
  /-- The MX routes and the barrier tree as they stood when it was bound (R361). -/
  routes : List (Nat × Nat × Nat) := []
  parent : Option Nat := none
  hops : Nat := 0
  /-- The start tick of a timed launch, in nanoseconds (R329). -/
  start : Option Nat := none
  /-- The final state and code that it takes once every issued operation of its tiles has landed (R314, R344, R349). -/
  endsAs : Option (LState × Nat) := none
  deriving DecidableEq, Repr

/-- A barrier that a group of a launch is at (R290 to R299, R369): the cycle of the last arrival on this package, an
island cycle for a level of tile or island domain and a pcc cycle for the others; the pod ranks whose arrivals have been
heard, and the pcc cycle on which the package learned of the pod's last; release base, islands still to resume. -/
structure Barrier where
  serial : Nat
  lev : Nat
  group : Nat
  last : Option Nat := none
  heard : List Nat := []
  learned : Option Nat := none
  base : Option Nat := none
  toResume : List Nat := []
  deriving DecidableEq, Repr

/-- A padded-link line in flight (R304, R307). -/
structure LinkLine where
  seq : Nat
  src : Nat
  serial : Nat
  chan : Nat
  line : Nat
  bytes : List Byte
  due : Nat
  link : Option Nat
  /-- The tiles whose tasks wrote the line (R291). -/
  writers : List Nat := []
  deriving DecidableEq, Repr

/-- A line that a link delivers on this cycle, after every other write to its tile: the tile, the place, and the line
(R304). -/
structure Landing where
  tile : Nat
  addr : Nat
  line : LinkLine
  deriving DecidableEq, Repr

/-- The last write unit to a line of a page with epoch checks, with the arrival word that it is counted into, the
generation which that counting advances to, once it is counted, and the pcc cycle on which a task first read that generation or a
later one (R277, R310). -/
structure Ordered where
  line : Nat
  copy : Nat
  unit : Nat
  word : Arrival
  gen : Option Nat := none
  seenAt : Option Nat := none
  deriving DecidableEq, Repr

/-- A dispatch trace session (R330 to R332). -/
structure Session where
  replay : Bool
  opened : Bool := true
  trace : List (Word × Word) := []
  incomplete : Bool := false
  broken : Bool := false
  matched : Nat := 0
  /-- Serials bound and ended under the session, in order; the versions current when it opened. -/
  bound : List Nat := []
  endings : List Nat := []
  versions : Table Nat := []
  /-- The recorded order in which the covered launches ended, by their places in the trace (R331, R332). -/
  order : List Nat := []
  deriving DecidableEq, Repr

/-- A parameter block: its versions, the newest first (R327). -/
structure ParamBlock where
  current : Nat
  versions : Table (List Byte)
  /-- The pcc cycle of the last patch, and the version that was current before that cycle (R327). -/
  patched : Option (Nat × Nat) := none
  deriving DecidableEq, Repr

/-- An MX link (R367, R368). -/
structure MxLink where
  up : Bool := true
  retrain : Option Nat := none
  deriving DecidableEq, Repr

/-- A Lantern port (R350, R356 to R360). -/
structure Port where
  up : Bool := false
  had : Bool := false
  lostAt : Option Nat := none
  lossTold : Bool := false
  session : Option Nat := none
  secure : Bool := false
  /-- The key whose signature its node's claim bore (R356). -/
  key : Option Nat := none
  deriving DecidableEq, Repr

/-- The stages of boot (R349, R351). -/
inductive Boot where
  | off
  | firmware
  | ready
  /-- Boot stopped with a failure code; power stays on. -/
  | failed (code : Nat)
  deriving DecidableEq, Repr

/-- A service log record (R380); its numbers are the model's (log entry 112). -/
structure LogRec where
  pcc : Nat
  source : Nat
  code : Nat
  place : Nat
  detail : Nat
  deriving DecidableEq, Repr

/-- What a message tells (R24, R345, R351, R355 to R361): to a node by its port 0 or 1, to the requester behind an MX link as port
2, and a flit sent by link k as port 3 + k (R367). -/
inductive Told where
  | boot (code : Nat)
  | refused (code : Nat)
  | done
  | serial (n : Nat)
  | words (ws : List Nat)
  | bytes (bs : List Byte)
  | quote (fields : List Nat)
  | warning (code place : Nat)
  | flit (f : Flit)
  deriving DecidableEq, Repr

/-- The port controller of a vault, or a channel or port of the second tier: the cycle of its clock from which it can move a
line, and the tile that it served last (R259). -/
structure Home where
  freeAt : Nat := 0
  last : Nat := 0
  deriving DecidableEq, Repr

/-- Who does what next within a cycle: events the machine itself has due, in order. Tile events name the tile in
`a`; the others as their meaning says. -/
inductive DueKind where
  | resultLanding | vaultRdLanding | taskStop | handlerEntry | yieldExpiry | replanExpiry | waitaComplete
  | waitsComplete | fenceComplete | modeSwitch | tretResume | endExit | exitRelease | syncArrival
  | islandRelease | releaseBase | phaseSignal | memberLost | lineArrival | drfRow | drfEmit | decoderTrap
  | mmadStart | mmadPop | mmadFault | walk | unit | feed | globalFault | atomic | vatomic | linkAccept
  | linkDelivery | linkExpiry | linkFailure | refreshDue | classLead | arbitration | binding
  | gangStart | contextSave | checkpoint | resume | tileTimeout | statusExpiry | timedFire | handoverTimeout
  | ownerLoss | voltage | retrain | barrierMessage | sensorFailure | notice | lightRemoval
  deriving DecidableEq, Repr

/-- An event due (log entry 4). -/
structure Due where
  kind : DueKind
  a : Nat := 0
  b : Nat := 0
  c : Nat := 0
  d : Nat := 0
  deriving DecidableEq, Repr

/-- The slot operation that the next operation step acts for (R45). -/
structure Focus where
  tile : Nat := 0
  slot : Nat := 0
  index : Nat := 0
  addr : Nat := 0
  /-- The issue's checks have been made for all its slots (R58). -/
  checked : Bool := false
  deriving DecidableEq, Repr

/-- How the steps that the manual bounds but does not time are taken: as soon as they can be, or only on the
cycles the inbox names (log entry 5). -/
inductive Pacing where
  | eager
  | fromInbox
  deriving DecidableEq, Repr

/-- The state of the package and of the world it is told of. -/
structure State where
  /-- sr.pcc (R147), and the number of wakes so far. -/
  pcc : Nat := 0
  wakes : Nat := 0
  boot : Boot := .off
  tiles : Table Tile := []
  isl : Table Island := []
  /-- Vault memory by stacked-pooled physical address, second-tier memory, host-window memory (R158, R255). -/
  mem : Memory := []
  mem2 : Memory := []
  hostMem : Memory := []
  /-- The key each 64-byte line was written under, by tier and line (R258, log entry 9). -/
  lineKeys : Table Nat := []
  lineKeys2 : Table Nat := []
  /-- The homes of lines: vaults by their tile, then the second tier's channels or ports (R259). -/
  homes : Table Home := []
  /-- Writer tags by stacked-pooled line (R308). -/
  tags : Table (BitVec 48) := []
  keys : Table Nat := []
  regions : Table (Word × Word) := []
  /-- Units to be counted into arrival words at the end of the present cycle (R276). -/
  counts : List CountUnit := []
  /-- Entries that the table caches of the stacks hold: stack, root and entry (R257). -/
  caches : List (Nat × Word × Leaf) := []
  /-- The Lamplighter's word and phase table (R296). -/
  lampWord : Word := 0
  phases : List (BitVec 5) := []
  barriers : List Barrier := []
  /-- Notices decided on and not yet delivered, by tile, with the pcc cycle of the decision (R333). -/
  notices : List (Nat × Notice × Nat) := []
  /-- Notices delivered, to be set from the tile's next island cycle on (R333). -/
  delivered : List (Nat × Notice) := []
  launches : Table Launch := []
  /-- The serial that the next submission receives (R320). -/
  serial : Nat := 1
  /-- The serial last bound of each age group of a class: class, age, serial (R322). -/
  lastBound : List (Nat × Nat × Nat) := []
  /-- Launch serials that hold reservations on a tile (R323). -/
  reserved : Table Nat := []
  timed : Table (Word × Word) := []
  slots : Table Submission := []
  sessions : Table Session := []
  images : Table Image := []
  params : Table ParamBlock := []
  lines : List LinkLine := []
  landings : List Landing := []
  ordered : List Ordered := []
  links : Vector MxLink 16 := Vector.replicate 16 { }
  routes : List (Nat × Nat × Nat) := []
  parent : Option Nat := none
  hops : Nat := 0
  /-- Configuration record, firmware, waking port, boot number of the nonce and identity (R350 to R355). -/
  record : Option ConfigRecord := none
  firmware : Option Firmware := none
  waking : Nat := 0
  ports : Vector Port 2 := Vector.replicate 2 { }
  owner : Option Nat := none
  ownerSecure : Bool := false
  /-- The pcc cycle of the last change of owner, with the owner and its rights as that cycle began (R356, R381). -/
  ownerWas : Option (Nat × Option Nat × Bool) := none
  /-- The key a handover names, and the cycle on which it lapses (R358). -/
  handover : Option (Nat × Nat) := none
  /-- Host windows: base, size and node address in 64 KiB units (R360). -/
  windows : List (Nat × Nat × Nat) := []
  aperture : Option (Nat × Word) := none
  /-- sr.ptp and the slew still to make, in nanoseconds (R360). -/
  ptpNs : Nat := 0
  ptpFrac : Nat := 0
  ptpSlew : Int := 0
  svc : BitVec 8 := 0
  /-- The bits set on this pcc cycle (R379). -/
  svcNew : BitVec 8 := 0
  /-- Correctable errors, by tile and store (R158, R372). -/
  corrected : Table Nat := []
  /-- The base-die sensors' readings by stack, in quarter degrees (R347). -/
  baseDie : Table Int := []
  log : List LogRec := []
  overwritten : Nat := 0
  /-- The defect map: disabled tiles, failed vaults, bad links (R374). -/
  badTiles : List Nat := []
  badVaults : List Nat := []
  badLinks : List Nat := []
  /-- Second tier: installed 64 KiB frames, and channels or ports down (R371). -/
  capacity : Nat := 0
  unitsDown : List Nat := []
  /-- A firmware image has been refused since the wake, so that either port may push another (R351). -/
  pushRefused : Bool := false
  /-- The owner has ordered a reset, which waits for the launches that it cancels (R349). -/
  resetting : Bool := false
  told : List (Nat × Told) := []
  nextId : Nat := 0
  freeCtr : Nat := 0
  inbox : List (Nat × Instr) := []
  agenda : List Due := []
  turn : List Nat := []
  out : List (Nat × Nat × Instr) := []
  focus : Focus := { }
  pacing : Pacing := .eager
  deriving DecidableEq, Repr

/-- The machine right after reset: no power, waiting for the wake pattern (R349, R350; log entries 1, 2, 13). -/
def State.reset : State := { }

end Sys2Proof.Machine
end

