-- ==== Sys2Proof/Machine/Ops.lean ====
section
/-! DEFINITION. The named operations over tables, memory, registers, flights, generators and traps. -/

namespace Sys2Proof.Machine

/-! ### Tables and memory -/

/-- The value a table holds at a key, `d` where it lists none. -/
def look {α : Type} (d : α) (k : Nat) : Table α → α
  | [] => d
  | (a, x) :: r => if a = k then x else look d k r

/-- The value a table lists at a key. -/
def find {α : Type} (k : Nat) : Table α → Option α
  | [] => none
  | (a, x) :: r => if a = k then some x else find k r

/-- A table with a value listed at a key. -/
def insertAt {α : Type} (k : Nat) (x : α) : Table α → Table α
  | [] => [(k, x)]
  | (a, y) :: r =>
    if k < a then (k, x) :: (a, y) :: r
    else if a = k then (k, x) :: r
    else (a, y) :: insertAt k x r

/-- A table without a key. -/
def dropAt {α : Type} (k : Nat) (m : Table α) : Table α := m.filter fun e => e.1 != k

/-- A table with a value at a key, which it does not list where it is the default. -/
def put {α : Type} [DecidableEq α] (d : α) (k : Nat) (x : α) (m : Table α) : Table α :=
  if x = d then dropAt k m else insertAt k x m

/-- Addresses strictly rise and no listed byte is 0. -/
def Memory.wf : Memory → Bool
  | [] => true
  | [(_, x)] => x != 0
  | (a, x) :: (b, y) :: r => x != 0 && decide (a < b) && Memory.wf ((b, y) :: r)

/-- One byte of memory; a byte that is not listed reads as 0 (log entry 2). -/
def readByte (m : Memory) (a : Nat) : Byte := look 0 a m

/-- Bytes of memory from an address. -/
def readBytes (m : Memory) (a n : Nat) : List Byte :=
  let seg := m.filter fun c => a ≤ c.1 && c.1 < a + n
  (List.range n).map fun i => look 0 (a + i) seg

/-- The cells of bytes that stand from an address, the zeros left out. -/
def cells (a : Nat) : List Byte → Memory
  | [] => []
  | x :: r => if x = 0 then cells (a + 1) r else (a, x) :: cells (a + 1) r

/-- Memory with bytes written from an address. -/
def writeBytes (m : Memory) (a : Nat) (bs : List Byte) : Memory :=
  m.filter (fun c => c.1 < a) ++ cells a bs ++ m.filter (fun c => a + bs.length ≤ c.1)

/-- Memory with zeros from an address. -/
def zeroBytes (m : Memory) (a n : Nat) : Memory :=
  m.filter fun c => c.1 < a || a + n ≤ c.1

/-- Bytes as a number, the first byte lowest (R1). -/
def leNat : List Byte → Nat
  | [] => 0
  | x :: r => x.toNat + 256 * leNat r

/-- A number as bytes, the lowest first (R1). -/
def leBytes : Nat → Nat → List Byte
  | 0, _ => []
  | n + 1, x => BitVec.ofNat 8 x :: leBytes n (x / 256)

/-- A number read from memory, little-endian (R1). -/
def readNat (m : Memory) (a n : Nat) : Nat := leNat (readBytes m a n)

/-- A word read from memory. -/
def readWord (m : Memory) (a : Nat) : Word := BitVec.ofNat 64 (readNat m a 8)

/-! ### Fixed register files -/

/-- An element of a vector, a default past its end. -/
def vget {α : Type} {n : Nat} (d : α) (v : Vector α n) (i : Nat) : α := v.toList.getD i d

/-- A vector with an element replaced; nothing past its end. -/
def vset {α : Type} {n : Nat} (v : Vector α n) (i : Nat) (x : α) : Vector α n := v.setIfInBounds i x

/-! ### Tiles, islands and time -/

/-- The record of a tile (R7). -/
def State.tile (s : State) (t : Nat) : Tile := look { } t s.tiles

/-- The state with a tile's record replaced. -/
def State.setTile (s : State) (t : Nat) (x : Tile) : State := { s with tiles := insertAt t x s.tiles }

/-- The state with a tile's record changed. -/
def State.onTile (s : State) (t : Nat) (f : Tile → Tile) : State := s.setTile t (f (s.tile t))

/-- The record of an island (R8). -/
def State.island (s : State) (i : Nat) : Island := look { } i s.isl

/-- The state with an island's record replaced. -/
def State.setIsland (s : State) (i : Nat) (x : Island) : State := { s with isl := insertAt i x s.isl }

/-- sr.icc of a tile: reference cycles less the ones its island's stretches took (R8, R147). -/
def State.icc (s : State) (t : Nat) : Nat := s.pcc - (s.island (t / 16)).lost

/-- A layer counter on a pcc cycle: 0 is sr.lcc.cl, 1 to 4 are sr.lcc.dl0 to dl3 (R184, log entry 12). -/
def State.lccAt (s : State) (pcc t k : Nat) : Nat :=
  if s.wakes = 0 then pcc else pcc + Config.layerOffset s.wakes t k % 4

/-- A layer counter now (R184). -/
def State.lcc (s : State) (t k : Nat) : Nat := s.lccAt s.pcc t k

/-- The state with the sequencer of a tile changed. -/
def State.onSeq (s : State) (t : Nat) (f : Seq → Seq) : State :=
  s.onTile t fun x => { x with seq := f x.seq }

/-- The state with the system registers of a tile changed. -/
def State.onSys (s : State) (t : Nat) (f : Sys → Sys) : State :=
  s.onTile t fun x => { x with sys := f x.sys }

/-- The state with the registers of a tile changed. -/
def State.onRegs (s : State) (t : Nat) (f : Regs → Regs) : State :=
  s.onTile t fun x => { x with regs := f x.regs }

/-- The state with the vault of a tile changed. -/
def State.onVault (s : State) (t : Nat) (f : Vault → Vault) : State :=
  s.onTile t fun x => { x with vault := f x.vault }

/-- An undefined value of the present step (R4, log entry 3). -/
def State.undef (s : State) (key : Nat) : Nat := Config.free s.freeCtr key

/-- The next undefined values are others. -/
def State.nextFree (s : State) : State := { s with freeCtr := s.freeCtr + 1 }

/-- The divisor of an engine's clock: 0 control core, 1 matrix, 2 vector, 3 copy (R3, R141). -/
def Tile.divisor (x : Tile) (e : Nat) : Nat := max 1 (vget 1 x.sys.div e)

/-! ### The homes of lines (R259) -/

/-- The port that serves a line of a tier; host windows are served by no home of the package. -/
def homeOfLine (unit : Nat → Nat) (tier line : Nat) : Option Nat :=
  if tier = 0 then some (line * 64 / Config.vaultBytes)
  else if tier = 1 then some (Config.tiles + unit (line / 1024))
  else none

/-- The cycle of a home's clock. -/
def State.homeNow (s : State) (h : Nat) : Nat := if h < Config.tiles then s.icc h else s.pcc

/-- Whether a home can move a line on this cycle: it has moved none, and no code, frame or context line of its own tile,
which have priority, is under way. -/
def State.homeFree (s : State) (h : Nat) : Bool :=
  (look { } h s.homes).freeAt ≤ s.homeNow h && (Config.tiles ≤ h || (s.tile h).busyTill ≤ s.icc h)

/-- A home moves lines for a requester, one a cycle. -/
def State.homeMoves (s : State) (h requester lines : Nat) : State :=
  { s with homes := insertAt h { freeAt := max (look { } h s.homes).freeAt (s.homeNow h) + lines, last := requester } s.homes }

/-- Where a requester stands in a home's turn: 0 comes next after the tile served last. -/
def State.turnAt (s : State) (h requester : Nat) : Nat :=
  (requester + 2 * Config.tiles - (look { } h s.homes).last - 1) % Config.tiles

/-! ### Landing -/

/-- Whether an operation issued on an earlier cycle has not yet landed in a place (R27, R28). -/
def Tile.pending (x : Tile) (now : Nat) (l : Loc) : Bool :=
  x.seq.flights.any fun f => f.issue < now && f.dests.contains l

/-- The registers after one write; s0 and p0 discard theirs (R110). -/
def Regs.apply (r : Regs) : Write → Regs
  | .s k x => if k = 0 then r else { r with s := vset r.s k x }
  | .p k b => if k = 0 then r else { r with p := vset r.p k b }
  | .ag g f x =>
    let a := vget { } r.ag g
    let b : Gen :=
      if f = 0 then { a with space := x.setWidth 4 }
      else if f = 1 then { a with base := x }
      else if f = 2 then { a with step := x }
      else if f < 9 then { a with stride := vset a.stride (f - 3) x }
      else { a with limit := x }
    { r with ag := vset r.ag g b }
  | .v k keep x => { r with v := put 0 k ((look 0 k r.v &&& keep) ||| (x &&& ~~~keep)) r.v }
  | .m k x => { r with m := vset r.m k x }
  | .acc k x => { r with acc := put 0 k x r.acc }
  | .opLatch x sc => { r with opLatch := x, opScales := sc }
  | .wLatch x => { r with wLatch := x }
  | .wTag x => { r with wTag := x }

/-- The place a write changes. -/
def Write.loc : Write → Loc
  | .s k _ => .s k
  | .p k _ => .p k
  | .ag g f _ => .ag g f
  | .v k _ _ => .v k
  | .m k _ => .m k
  | .acc k _ => .acc k
  | .opLatch _ _ => .opLatch
  | .wLatch _ => .wLatch
  | .wTag _ => .wTag

/-- The highest slot that has landed a result in a place on this cycle. -/
def Seq.landedSlot (q : Seq) (l : Loc) : Option Nat :=
  q.landed.foldl (fun m e => if e.1 == l then some (max e.2 (m.getD 0)) else m) none

/-- Whether a landing write takes effect. Of two results in flight to one place that land on one cycle, the later slot
wins, in both modes; two of one slot land in issue order in guarded mode, and in open mode it is open which stays. Of
two that land on different cycles, the later issued stays in guarded mode, and in open mode it is open which (R28). -/
def Tile.winner (x : Tile) (f : Flight) (l : Loc) (choice : Nat) : Bool :=
  !f.rival
    || (match x.seq.landedSlot l with
        | some sl => sl < f.slot || (sl == f.slot && (x.sys.gm || choice % 2 == 0))
        | none => x.sys.gm || (x.seq.flights.any fun g => g.id != f.id && g.dests.contains l) || choice % 2 == 0)

/-- A tile after a flight has landed: its writes, its flags, and what a trap-checked operation found
(R27, R74, R76, R78, R79). -/
def Tile.land (x : Tile) (f : Flight) (choice : Nat) : Tile :=
  let ws := f.writes.filter fun w => x.winner f w.loc choice
  { x with
    regs := ws.foldl Regs.apply x.regs
    sys := { x.sys with fpsr := x.sys.fpsr ||| f.bflags, dfpsr := x.sys.dfpsr ||| f.dflags }
    seq := { x.seq with
      flights := x.seq.flights.filter fun g => g.id != f.id
      landedB := x.seq.landedB ||| f.bflags
      landedD := x.seq.landedD ||| f.dflags
      landed := x.seq.landed ++ f.writes.map fun w => (w.loc, f.slot)
      checks := match f.check with
        | some c => x.seq.checks ++ [(f.slot, c)]
        | none => x.seq.checks } }

/-- A line marked by a write: once a cycle, whatever writes of the cycle touch it, with every writer noted (R304, log entry
99). -/
def addMark (ms : List Mark) (m : Mark) : List Mark :=
  let same := fun (e : Mark) => e.cycle == m.cycle && e.addr == m.addr && e.chan == m.chan
  if ms.any same then ms.map fun e => if same e then { e with by_ := (e.by_ ++ m.by_).dedup } else e else ms ++ [m]

/-- The send-window lines that a write of staging touches are marked; one that waits from a write of an earlier cycle is
marked again, and is delivered twice (R304, R305). The writer is a partner, the tile itself, or no task (R291). -/
def Tile.markLines (x : Tile) (now addr n : Nat) (by_ : List (Option Nat)) : Tile :=
  match x.task with
  | none => x
  | some k =>
    let hit := k.windows.flatMap fun w => (List.range w.2.2).filterMap fun l =>
      let a := w.2.1 + 64 * l
      if addr < a + 64 && a < addr + n then some { cycle := now, addr := a, chan := w.1, line := l, by_ := by_ } else none
    { x with bar := { x.bar with marks := hit.foldl addMark x.bar.marks } }

/-- Bytes written to a tile's staging by anything but a DEFER; a deferral queue whose region they meet remembers the
words they leave there (R155, R209). -/
def Tile.stageBy (x : Tile) (now addr : Nat) (bs : List Byte) (by_ : List (Option Nat)) : Tile :=
  let st := writeBytes x.st addr bs
  let word := fun (a : Nat) => BitVec.ofNat 32 (readNat st a 4)
  let dq := Vector.ofFn fun k : Fin 4 =>
    let q := vget { } x.eng.dq k.val
    match x.task with
    | none => q
    | some j =>
      let base := ((j.record.getD (5 + k.val) 0).extractLsb' 54 10).toNat * 1024
      let size := ((j.record.getD (5 + k.val) 0).extractLsb' 43 11).toNat * 1024
      if q.entries.isEmpty then q
      else
        let hit := (List.range ((bs.length + 6) / 4)).filterMap fun i =>
          let a := (addr / 4 + i) * 4
          if a < addr + bs.length && base ≤ a && a < base + size then some (now, word a) else none
        { q with foreign := q.foreign ++ hit }
  { x with st := st, eng := { x.eng with dq := dq } }.markLines now addr bs.length by_

/-- Bytes that the tile itself writes to its staging. -/
def Tile.stage (x : Tile) (now addr : Nat) (bs : List Byte) : Tile := x.stageBy now addr bs [none]

/-- Whether a flight may land on a cycle: not before its value is there, and in guarded mode not before an earlier
result to the same place (R27, R28). -/
def Tile.mayLand (x : Tile) (f : Flight) (now : Nat) : Bool :=
  f.issue < now && f.ready ≤ now
    && (!x.sys.gm || x.seq.flights.all fun g =>
          g.id == f.id || f.issue < g.issue || (f.issue == g.issue && f.slot ≤ g.slot)
            || g.dests.all fun l => !f.dests.contains l)

/-- A tile with an operation in flight, marked where another is in flight to the same place (R28). -/
def Tile.launchFlight (x : Tile) (f : Flight) : Tile :=
  let meets := fun (g : Flight) => g.dests.any fun l => f.dests.contains l
  { x with seq := { x.seq with
      flights := x.seq.flights.map (fun g => if meets g then { g with rival := true } else g)
        ++ [{ f with rival := f.rival || x.seq.flights.any meets }] } }

/-! ### The operation being issued -/

/-- The slot operation in hand. -/
structure Ctx where
  t : Nat
  slot : Nat
  index : Nat
  addr : Nat
  now : Nat
  deriving DecidableEq, Repr

/-- The operation in hand of a state, in the slot that takes it (R45). -/
def State.ctx (s : State) (i : Instr) : Ctx :=
  let k := match slotFor i with
    | some .v0 => if s.focus.slot = 2 then 2 else 1
    | some .c0 => if s.focus.slot = 5 then 5 else 4
    | some sl => sl.num
    | none => 0
  { t := s.focus.tile, slot := k, index := s.focus.index, addr := s.focus.addr, now := s.icc s.focus.tile }

/-- s[r] as it stands: s0 reads 0, and a register in flight is undefined (R27, R110). -/
def State.readS (s : State) (c : Ctx) (r : BitVec 5) : Word :=
  if r = 0 then 0
  else if (s.tile c.t).pending c.now (.s r.toNat) then BitVec.ofNat 64 (s.undef (100 * c.slot + r.toNat))
  else vget 0 (s.tile c.t).regs.s r.toNat

/-- p[r] as it stands: p0 reads true (R27, R110). -/
def State.readP (s : State) (c : Ctx) (r : BitVec 3) : Bool :=
  if r = 0 then true
  else if (s.tile c.t).pending c.now (.p r.toNat) then s.undef (100 * c.slot + 40 + r.toNat) % 2 == 1
  else vget false (s.tile c.t).regs.p r.toNat

/-- A vector register as it stands (R27). -/
def State.readV (s : State) (c : Ctx) (r : Nat) : VReg :=
  if (s.tile c.t).pending c.now (.v r) then BitVec.ofNat 8192 (s.undef (100 * c.slot + 1000 * (r + 1)))
  else look 0 r (s.tile c.t).regs.v

/-- A mask register as it stands (R27). -/
def State.readM (s : State) (c : Ctx) (r : BitVec 4) : MReg :=
  if (s.tile c.t).pending c.now (.m r.toNat) then BitVec.ofNat 1024 (s.undef (100 * c.slot + 50 + r.toNat))
  else vget 0 (s.tile c.t).regs.m r.toNat

/-- An accumulator tile as it stands (R27). -/
def State.readAcc (s : State) (c : Ctx) (r : Nat) : AccTile :=
  if (s.tile c.t).pending c.now (.acc r) then BitVec.ofNat 65536 (s.undef (1000000 + 100 * c.slot + 1000 * r))
  else look 0 r (s.tile c.t).regs.acc

/-- The address of a generator at an issue (R47). -/
def Gen.address (a : Gen) (loops : Vector Loop 6) (index : Nat) : Word :=
  (List.range 6).foldl
    (fun acc k =>
      let l := vget { } loops k
      if l.active then acc + l.l.setWidth 64 * vget 0 a.stride k else acc)
    (a.base + BitVec.ofNat 64 index * a.step)

/-- Generator g of the operation in hand, and its address (R47). -/
def State.gen (s : State) (c : Ctx) (g : BitVec 4) : Gen × Word :=
  let x := s.tile c.t
  let a := vget { } x.regs.ag g.toNat
  (a, a.address x.seq.loops c.index)

/-- The limit check and the range check of a generator's address (R47, R115). -/
def Gen.inRange (a : Gen) (addr : Word) : Bool :=
  addr.toNat < a.limit.toNat
    && (a.space != 0 || addr.toNat < 0x100000)
    && (a.space != 1 || addr.toNat < 0x1000000)
    && (a.space != 2 || addr.toNat < 0x10000000000000)

/-- A new operation identifier. -/
def State.fresh (s : State) : Nat × State := (s.nextId, { s with nextId := s.nextId + 1 })

/-- The state with an operation in flight that lands from the next cycle to `bound` cycles on (R27). -/
def State.flight (s : State) (c : Ctx) (bound : Nat) (ws : List Write) : State :=
  let (id, s) := s.fresh
  s.onTile c.t (·.launchFlight
    { id := id, slot := c.slot, issue := c.now, ready := c.now + 1, bound := c.now + bound
      dests := ws.map Write.loc, writes := ws })

/-- A bound that no cycle reaches: the value is not there yet. -/
def never : Nat := 2 ^ 64

/-- The state with an operation in flight whose value is read later: places it will land in, by its bound (R27). -/
def State.flightTo (s : State) (c : Ctx) (dests : List Loc) (ready bound : Nat) : State :=
  let (id, s) := s.fresh
  s.onTile c.t (·.launchFlight
    { id := id, slot := c.slot, issue := c.now, ready := ready, bound := bound, dests := dests, writes := [] })

/-- The state with a result that the bundle issued last brings once it has waited: it belongs to that issue, so that what issues
from now on finds it pending, and lands by a stated cycle (R27, R28). -/
def State.flightBy (s : State) (t bound : Nat) (ws : List Write) : State :=
  let (id, s) := s.fresh
  s.onTile t fun x => x.launchFlight
    { id := id, slot := 0, issue := x.seq.issuedAt, ready := bound, bound := bound, dests := ws.map Write.loc, writes := ws }

/-- The state with a result to s[d] in flight; a write to s0 is discarded (R110). -/
def State.flightS (s : State) (c : Ctx) (lat : Nat) (d : BitVec 5) (x : Word) : State :=
  if d = 0 then s else s.flight c (lat * (s.tile c.t).divisor 0) [.s d.toNat x]

/-- The state with a result to p[d] in flight; a write to p0 is discarded (R110). -/
def State.flightP (s : State) (c : Ctx) (lat : Nat) (d : BitVec 3) (b : Bool) : State :=
  if d = 0 then s else s.flight c (lat * (s.tile c.t).divisor 0) [.p d.toNat b]

/-! ### Launches and records -/

/-- A word of a launch record, by its index (R14). -/
def Task.word (k : Task) (i : Nat) : Word := k.record.getD i 0

/-- Fields of a record: levels, class, determ, disp, world, yield and re-plan limits, the lease (R15 to R17). -/
def Task.levels (k : Task) : Nat := ((k.word 0).extractLsb' 53 3).toNat + 1
def Task.cls (k : Task) : Nat := ((k.word 0).extractLsb' 51 2).toNat
def Task.determ (k : Task) : Bool := (k.word 0).getLsbD 50
def Task.disp (k : Task) : Bool := (k.word 0).getLsbD 49
def Task.world (k : Task) : Bool := (k.word 0).getLsbD 48
def Task.roles (k : Task) : Nat := ((k.word 0).extractLsb' 32 11).toNat + 1
def Task.yieldMax (k : Task) : Nat := ((k.word 1).extractLsb' 48 16).toNat
def Task.replanMax (k : Task) : Nat := ((k.word 1).extractLsb' 38 10).toNat
def Task.podRank (k : Task) : Nat := ((k.word 2).extractLsb' 32 16).toNat
def Task.own (k : Task) : BitVec 31 := (k.word 2).extractLsb' 0 31
/-- Declared occupancy of a gather-accumulate queue and of a decoder FIFO (R19). -/
def Task.qOcc (k : Task) (q : Nat) : Nat := ((k.word 3).toNat / 2 ^ (16 * q)) % 65536
def Task.dfOcc (k : Task) (f : Nat) : Nat := ((k.word 4).toNat / 2 ^ (16 * f)) % 65536
/-- Base and size in bytes, and occupancy, of a deferral queue (R19). -/
def Task.dqBase (k : Task) (q : Nat) : Nat := ((k.word (5 + q)).extractLsb' 54 10).toNat * 1024
def Task.dqSize (k : Task) (q : Nat) : Nat := ((k.word (5 + q)).extractLsb' 43 11).toNat * 1024
def Task.dqOcc (k : Task) (q : Nat) : Nat := ((k.word (5 + q)).extractLsb' 0 32).toNat
/-- Domain, scope and group size of a level (R20). -/
def Task.domain (k : Task) (l : Nat) : Nat := ((k.word (9 + l)).extractLsb' 61 3).toNat
def Task.scope (k : Task) (l : Nat) : Nat := ((k.word (9 + l)).extractLsb' 58 3).toNat
def Task.groupSize (k : Task) (l : Nat) : Nat := ((k.word (9 + l)).extractLsb' 47 11).toNat + 1
/-- The task's group at a level (R12). -/
def Task.group (k : Task) (l : Nat) : Nat := k.role / k.groupSize l

/-- The banks the running task owns (R160). -/
def Tile.own (x : Tile) : BitVec 31 := match x.task with
  | some k => k.own
  | none => 0

/-- Whether the running task owns a bank (R160). -/
def Tile.owns (x : Tile) (b : Nat) : Bool := b < 31 && x.own.getLsbD b

/-! ### System registers -/

/-- The vault's refresh phase (R174). -/
def phiOf (t : Nat) : Nat := 3416 * (t % 16)

/-- The refresh interval of a class (R174). -/
def interval (cls : BitVec 2) : Nat := if cls = 0 then 54656 else if cls = 1 then 27328 else 13664

/-- The effective class E: the highest class announced for a layer that holds an owned bank (R179). -/
def effOf (v : Vault) (own : BitVec 31) : BitVec 2 :=
  (List.range 4).foldl
    (fun e n =>
      let p := (vget { } v.layers n).pend
      if (own.toNat / 2 ^ (8 * n)) % 256 ≠ 0 && e.toNat < p.toNat then p else e) 0

/-- sr.refclass (R177). -/
def refclassOf (x : Tile) (t : Nat) : Word :=
  let sched : Nat := if x.task.isSome then x.vault.sched.toNat else 0
  BitVec.ofNat 64 (phiOf t * 2 ^ 48 + sched * 2 ^ 42 + (effOf x.vault x.own).toNat * 2 ^ 40
    + (List.range 4).foldl (fun acc n =>
        let l := vget { } x.vault.layers n
        acc + (l.app.toNat * 64 + l.pend.toNat * 16 + l.sfail.toNat * 8 + l.warn.toNat) * 2 ^ (8 * n)) 0)

/-- sr.group (R26); 0 while no task is bound. -/
def groupWord (x : Tile) (t : Nat) : Word := match x.task with
  | none => 0
  | some k => BitVec.ofNat 64 (k.role * 2 ^ 53 + t * 2 ^ 42 + (k.levels - 1) * 2 ^ 39 + k.cls * 2 ^ 37
      + k.determ.toNat * 2 ^ 36 + k.disp.toNat * 2 ^ 35 + k.variant % 65536 * 2 ^ 16 + k.serial % 65536)

/-- sr.mode (R143). -/
def modeWord (y : Sys) : Word := BitVec.ofNat 64 (y.gm.toNat + 2 * y.er.toNat + 4 * y.hnd.toNat)

/-- sr.event; svc mirrors the service request (R144, R378). -/
def eventWord (y : Sys) (svc : Bool) : Word :=
  BitVec.ofNat 64 (svc.toNat + 2 * y.pre.toNat + 4 * y.thr.toNat + 8 * y.rcls.toNat + 16 * y.sfail.toNat
    + 32 * y.v1p.toNat + 64 * y.xp.toNat)

/-- sr.tvec (R145). -/
def tvecWord (y : Sys) : Word :=
  BitVec.ofNat 64 (y.en.toNat + y.handler.toNat * 8 + y.trec.toNat * 2 ^ 32)

/-- sr.clkdiv (R146). -/
def clkdivWord (y : Sys) : Word :=
  BitVec.ofNat 64 (vget 1 y.div 0 % 16 + vget 1 y.div 1 % 16 * 16 + vget 1 y.div 2 % 16 * 256
    + vget 1 y.div 3 % 16 * 4096)

/-- sr.ptp: seconds and nanoseconds (R147). -/
def ptpWord (s : State) : Word :=
  BitVec.ofNat 64 (s.ptpNs / 1000000000 * 2 ^ 30 + s.ptpNs % 1000000000)

/-- A system register as MFSR reads it (R51, R142 to R147). -/
def State.sysRead (s : State) (t : Nat) (n : Nat) : Word :=
  let x := s.tile t
  if n = 0x000 then modeWord x.sys
  else if n = 0x001 then x.sys.fpsr.setWidth 64
  else if n = 0x002 then x.sys.ftrapen.setWidth 64
  else if n = 0x003 then x.sys.dfpsr.setWidth 64
  else if n = 0x004 then x.sys.dtrapen.setWidth 64
  else if n = 0x005 then x.sys.drm.setWidth 64
  else if n = 0x006 then eventWord x.sys (s.svc != 0)
  else if n = 0x007 then tvecWord x.sys
  else if n = 0x008 then clkdivWord x.sys
  else if n = 0x009 then refclassOf x t
  else if n = 0x00A then groupWord x t
  else if n = 0x010 then BitVec.ofNat 64 s.pcc
  else if n = 0x011 then BitVec.ofNat 64 (s.icc t)
  else if 0x012 ≤ n && n ≤ 0x016 then BitVec.ofNat 64 (s.lcc t (n - 0x012))
  else ptpWord s

/-- A read-modify-write of one field of a register: MTSR, MSSR or MCSR (R142). -/
def rmw {w : Nat} (how : Nat) (old x : BitVec w) : BitVec w :=
  if how = 0 then x else if how = 1 then old ||| x else old &&& ~~~x

/-- The system registers after a write; read-only fields and reserved bits ignore it, a write of 5 to 7 to
sr.drm is ignored, and sr.event.sfail is cleared where the operand holds 1 (R2, R77, R142 to R146). -/
def Sys.write (y : Sys) (w : SrWrite) : Sys :=
  let x := w.x
  if w.sys = 0x000 then { y with er := (rmw w.how (BitVec.ofBool y.er) (x.extractLsb' 1 1)) == 1 }
  else if w.sys = 0x001 then { y with fpsr := rmw w.how y.fpsr (x.extractLsb' 0 6) }
  else if w.sys = 0x002 then { y with ftrapen := rmw w.how y.ftrapen (x.extractLsb' 0 5) }
  else if w.sys = 0x003 then { y with dfpsr := rmw w.how y.dfpsr (x.extractLsb' 0 5) }
  else if w.sys = 0x004 then { y with dtrapen := rmw w.how y.dtrapen (x.extractLsb' 0 5) }
  else if w.sys = 0x005 then
    let n := rmw w.how y.drm (x.extractLsb' 0 3)
    if n.toNat < 5 then { y with drm := n } else y
  else if w.sys = 0x006 then { y with sfail := y.sfail && !x.getLsbD 4 }
  else if w.sys = 0x007 then
    { y with
      en := (rmw w.how (BitVec.ofBool y.en) (x.extractLsb' 0 1)) == 1
      handler := rmw w.how y.handler (x.extractLsb' 3 19)
      trec := rmw w.how y.trec (x.extractLsb' 32 12) }
  else y

/-! ### Code -/

/-- The stacked-pooled address of a byte of a bank (R158, R255). -/
def vaultAddr (t bank off : Nat) : Nat := t * Config.vaultBytes + bank * Config.bankBytes + off

/-- The address of a byte of the code region (R160). -/
def codeAddr (t x : Nat) : Nat := vaultAddr t 31 (0x400000 + x)

/-- A granule of code (R35). -/
def State.granule (s : State) (t x : Nat) : Word := readWord s.mem (codeAddr t x)

/-- Whether a code address is a marked transfer target of its line (R36, R44, R153). -/
def State.isMarked (s : State) (t x : Nat) : Bool :=
  x % 8 == 0 && x < Config.codeBytes && x % 128 != 0
    && (LineHeader.ofBits (s.granule t (x / 128 * 128))).target.getLsbD (x % 128 / 8)

/-- The lowest start bit above a granule of a line, if any (R38). -/
def nextStart (h : LineHeader) (g : Nat) : Option Nat :=
  (List.range 16).find? fun k => g < k && h.start.getLsbD k

/-- The prefetch window from a line on: the line and the four that follow it, asked for now (R60). -/
def windowFrom (line now : Nat) : List FetchLine :=
  (List.range 5).map fun k => { addr := line + 128 * k, asked := now, here := false }

/-! ### Traps -/

/-- Age of an event, saturating at 255 (R161). -/
def ageOf (now : Nat) (at_ : Int) : Nat := min 255 ((now : Int) - at_).toNat

/-- Layer cycles until a bank's next due point (R161, R174). -/
def dueOf (lcc t bank : Nat) (cls : BitVec 2) : Nat :=
  let i := interval cls
  let r := ((((bank % 8 * 1708 + phiOf t : Nat) : Int) - (lcc : Int)) % (i : Int)).toNat
  if r = 0 then i else r

/-- The vault as a resumed or a restarted task takes it: its banks as they were, their ages as if no cycle had passed,
with the owed counts and row pointers that the sequencer has kept. -/
def Vault.giveBack (cur old : Vault) (own : BitVec 31) (since now : Nat) : Vault :=
  let late := fun (a : Int) => a + ((now : Int) - (since : Int))
  { cur with
    banks := Vector.ofFn fun b : Fin 32 =>
      let c := vget { } cur.banks b.val
      let k := vget { } old.banks b.val
      if b.val < 31 && own.getLsbD b.val then
        { k with owed := c.owed, rptr := c.rptr, act := late k.act, pre := late k.pre, rd := late k.rd, wr := late k.wr
                 ref := late k.ref }
      else c
    chan := { acts := old.chan.acts.map fun e => (late e.1, e.2), rd := (late old.chan.rd.1, old.chan.rd.2)
              wr := (late old.chan.wr.1, old.chan.wr.2) }
    sched := old.sched, keeper := false, reads := [], deficit := [] }

/-- A tile's vault as it stands (R189). That of a task which has still to go on is as it left it, since no cycle has passed for
it (R176, log entry 92). -/
def State.snap (s : State) (t : Nat) : Snap :=
  let x := s.tile t
  let now := s.icc t
  let v := match x.seq.phase, x.kept with
    | .resuming, some (since, old) => x.vault.giveBack old x.own since now
    | _, _ => x.vault
  ⟨now, s.pcc, v⟩

/-- The two words of a bank in the bank-state table, of the vault as it stood at a moment (R161, R162, R189). -/
def State.bankWords (s : State) (t b : Nat) (at_ : Snap) : Word × Word :=
  let x := s.tile t
  let now := at_.icc
  if b = 31 then
    let c := at_.vault.chan
    let a := fun k => ageOf now (vget (0, 0) c.acts k).1
    (BitVec.ofNat 64 (2 ^ 63),
     BitVec.ofNat 64 (a 0 * 2 ^ 56 + a 1 * 2 ^ 48 + a 2 * 2 ^ 40 + a 3 * 2 ^ 32
       + ageOf now c.rd.1 * 2 ^ 24 + ageOf now c.wr.1 * 2 ^ 16))
  else if x.owns b then
    let k := vget { } at_.vault.banks b
    (BitVec.ofNat 64 (2 ^ 62 + k.opened.toNat * 2 ^ 61 + (if k.opened then k.row.toNat else 0) * 2 ^ 48
       + (BitVec.ofInt 5 k.owed).toNat * 2 ^ 43 + k.rptr.toNat * 2 ^ 33
       + dueOf (s.lccAt at_.pcc t (1 + b / 8)) t b (vget { } at_.vault.layers (b / 8)).app * 2 ^ 17),
     BitVec.ofNat 64 (ageOf now k.act * 2 ^ 56 + ageOf now k.pre * 2 ^ 48 + ageOf now k.rd * 2 ^ 40
       + ageOf now k.wr * 2 ^ 32 + ageOf now k.ref * 2 ^ 24))
  else if x.saved.isSome && x.savedOwn.getLsbD b then (BitVec.ofNat 64 (3 * 2 ^ 62), 0)
  else (0, 0)

/-- The frame word at 0x0A8: refresh phase, running class and effective class (R173, R189). -/
def State.phaseWord (s : State) (t : Nat) (at_ : Snap) : Word :=
  BitVec.ofNat 64 (phiOf t * 2 ^ 48 + at_.vault.sched.toNat * 2 ^ 46 + (effOf at_.vault (s.tile t).own).toNat * 2 ^ 44)

/-- The tiles of the island gang of a tile, itself left out (R9). -/
def State.gang (s : State) (t : Nat) : List Nat :=
  match (s.tile t).task with
  | none => []
  | some k =>
    (s.tiles.filter fun e => e.1 / 16 == t / 16 && e.1 != t
      && (match e.2.task with | some j => j.serial == k.serial | none => false)).map (·.1)

/-- Phases in which a task can take a trap or be halted (R32, R152). -/
def Phase.live : Phase → Bool
  | .starting | .running | .suspending | .resuming => true
  | _ => false

/-- Whether a trap record is of a trap that enters the handler. -/
def Seq.entering (q : Seq) : Bool := q.phase == .trapping && (match q.trap with | some r => r.disp == 1 | none => false)

/-- Whether a tile can take a trap: it is live, or has ended and waits at its exit barrier, where a refresh deficit
reaches it still (R175). -/
def Seq.takes (q : Seq) (code : Nat) : Bool := q.phase.live || (q.phase == .ended && code == 0x11)

/-- The record of a trap, with what its frame shows of this cycle and of the vault (R150, R189). -/
def State.recordTrap (s : State) (t : Nat) (r : TrapReq) (disp addr next issue : Nat) (rest : Bool) (at_ : Snap) : TrapRec :=
  { req := r, disp := disp, addr := addr, next := next, issue := issue, rest := rest, icc := s.icc t, pcc := s.pcc
    banks := Vector.ofFn fun b : Fin 32 => s.bankWords t b at_, phase := s.phaseWord t at_ }

/-- The owned banks of a tile that stops: the idle refresh sequencer keeps them from this cycle on (R176). -/
def Tile.stopBanks (x : Tile) : Tile := { x with vault := { x.vault with keeper := true, deficit := [] } }

/-- What MODE, END or TRET of the bundle that issued last has still to do. -/
def Seq.toClose (q : Seq) : Option Stall := match q.stall with
  | .modeDrain _ _ | .tretDrain | .ending => some q.stall
  | _ => q.closing

/-- A tile that takes a trap stops issuing; the vault is kept as its frame has it (R150, R176), and what its bundle has
still to do for the return (log entry 87). -/
def Tile.trapped (x : Tile) (r : TrapRec) (at_ : Snap) : Tile :=
  { x with seq := { x.seq with phase := .trapping, stall := .none, trap := some r, after := [], closing := none
                               owed := x.seq.toClose :: x.seq.owed, under := x.seq.snap }
           kept := some (at_.icc, at_.vault) }

/-- The flights of the loads that an open line region has recorded. -/
def Tile.regionFlights (x : Tile) : List Nat :=
  match x.eng.region with
  | some r => r.2.filterMap (·.flight)
  | none => []

/-- A tile without its open line region, and without the flights of its loads (R132). -/
def Tile.dropRegion (x : Tile) : Tile :=
  { x with eng := { x.eng with region := none }
           seq := { x.seq with flights := x.seq.flights.filter fun f => !x.regionFlights.contains f.id } }

/-- A tile whose task issues nothing again: what it has issued goes on to land, and no fault of it is a trap (R344). -/
def Tile.closed (x : Tile) : Tile :=
  { x.dropRegion with
    vault := { x.vault with keeper := true, deficit := [] }
    seq := { x.dropRegion.seq with
      phase := .closing, stall := .none, after := [], closing := none, trap := none, faults := [], haltBy := none
      inHand := false, ceasing := false } }

/-- TAKING A TRAP. The tile stops issuing; the record keeps what the frame shows of this cycle, and of the vault as it
stood when the trapping issue was checked. An arithmetic trap, which only guarded mode raises (R79), enters, where a
handler is enabled, the handler if its address is a marked target, and stops the task with code 0x03 if it is not; every
other trap stops the task, and the other members of its gang are halted from the next cycle on, one that drains for its
handler included (R150 to R153, R189). A tile already taking a trap takes no other, and a trap of a cancelled launch's task is
none: it only ends the issues of its last bundle (R344). A member that has ended, or is suspended, issues nothing that could be
halted: it writes no frame (log entry 123). -/
def State.takeTrapAt (s : State) (t : Nat) (r : TrapReq) (addr next issue : Nat) (rest : Bool) (at_ : Option Snap) : State :=
  let x := s.tile t
  let v := at_.getD (s.snap t)
  if !x.seq.takes r.code then s else
  if x.seq.ceasing then s.onTile t Tile.closed else
  let arith := 0x30 ≤ r.code && r.code ≤ 0x3C && x.sys.en && !x.sys.hnd
  let good := arith && s.isMarked t (x.sys.handler.toNat * 8)
  let r' := if arith && !good then { r with code := 0x03, aux := r.code } else r
  let rec' := s.recordTrap t r' (if good then 1 else 0) addr next issue rest v
  let s := s.onTile t fun x => if good then x.trapped rec' v else (x.trapped rec' v).stopBanks
  if good then s
  else (s.gang t).foldl (fun s u => s.onSeq u fun q =>
    if (q.phase.live || q.entering) && q.haltBy.isNone then { q with haltBy := some t } else q) s

/-- A trap with the vault as it stands on this cycle. -/
def State.takeTrap (s : State) (t : Nat) (r : TrapReq) (addr next issue : Nat) (rest : Bool) : State :=
  s.takeTrapAt t r addr next issue rest none

/-- A trap at the bundle being issued (R58). -/
def State.trapAt (s : State) (t : Nat) (r : TrapReq) : State :=
  let q := (s.tile t).seq
  s.takeTrap t r q.pc q.next q.issueNo (q.issueNo < q.reps)

/-- A trap that an issue raises once it has gone out, with the vault as it stood when the issue was checked (R149, R189). -/
def State.trapIssued (s : State) (t : Nat) (r : TrapReq) : State :=
  let q := (s.tile t).seq
  s.takeTrapAt t r q.pc q.next q.issueNo (q.issueNo < q.reps) q.snap

/-- Whether a tile's dynamic engines act: its task runs, a trap that enters the handler is being taken, or its cancelled
launch waits for what it has issued; not after a stop, nor once an engine has found a fault (R225, R245, R247, R280, R344). -/
def Tile.working (x : Tile) : Bool :=
  x.task.isSome && (x.seq.phase == .closing || x.seq.faults.isEmpty)
    && (x.seq.phase.live || x.seq.phase == .closing
      || (x.seq.phase == .trapping && (match x.seq.trap with | some r => r.disp == 1 | none => false)))

/-- The flights of vector atomics that land nothing before a restart: of one that has faulted, and of those that the engine
keeps unstarted behind it or behind another fault (R280, R282). -/
def Tile.faultedFlights (x : Tile) : List Nat :=
  let halts := !x.working || x.eng.vatomics.any (·.stopped)
  x.eng.vatomics.filterMap fun a => if a.stopped || (halts && !a.started) then a.flight else none

/-- Whether every atomic line region that has left the tile has performed or faulted (R29, R128, R140). -/
def Tile.regionsDone (x : Tile) : Bool := x.eng.atomics.all fun a => a.stopped || match a.kind with
  | .line _ => false
  | .scalar _ _ _ _ _ => true

/-- Whether every issued operation with a static bound has landed or faulted (R29, R140, R150), atomic line regions that load
nothing among them; the loads of an open line region have not been performed, and nothing waits for them. -/
def Tile.drained (x : Tile) : Bool :=
  (x.seq.flights.all fun f => x.regionFlights.contains f.id || x.faultedFlights.contains f.id) && x.seq.stReads.isEmpty && x.seq.stWrites.isEmpty
    && x.vault.reads.all (·.written) && x.regionsDone

/-- The longest prefix of units performed of the oldest global copy of a C slot (R150, R280). -/
def GCopy.prefixDone (c : GCopy) : Nat :=
  (List.range c.units).foldl (fun n u => if n = u && c.done.contains u then n + 1 else n) 0

/-- The dynamic-engine words of a frame: M, C0, C1, X (R150). -/
def Engines.dynamicWords (e : Engines) : List Word :=
  let word := fun (pending : Bool) (n : Nat) =>
    if pending then BitVec.ofNat 64 (2 ^ 63 + n % 2 ^ 31 * 2 ^ 32) else (0 : Word)
  let cw := fun (slot : Nat) => match e.copies.find? (fun c => c.slot == slot) with
    | some c => word true c.prefixDone
    | none => 0
  [word (!e.mmad.reqs.isEmpty) e.mmad.rowsDone, cw 4, cw 5, word (!e.drf.reqs.isEmpty) e.drf.rowsDone]

/-- The head of a frame (R151). -/
def frameHead (x : Tile) (r : TrapRec) : Word :=
  BitVec.ofNat 64 (r.req.code % 256 * 2 ^ 56 + r.req.slot % 16 * 2 ^ 52 + r.disp % 4 * 2 ^ 50
    + x.sys.v1p.toNat * 2 ^ 49 + x.sys.hnd.toNat * 2 ^ 48 + r.issue % 256 * 2 ^ 40 + r.rest.toNat * 2 ^ 33
    + x.sys.xp.toNat * 2 ^ 32 + r.req.aux % 65536 * 2 ^ 16
    + (match x.task with | some k => k.serial % 65536 | none => 0))

/-- The word at 0x008: trapping and next bundle (R150). -/
def frameAddrs (r : TrapRec) : Word := BitVec.ofNat 64 (r.addr % 2 ^ 22 + r.next % 2 ^ 22 * 2 ^ 32)

/-- The target entries as a frame shows them, a PREP of the trapping bundle seen (R122). -/
def Seq.entries (q : Seq) : Vector Target 8 := q.prepPend.foldl (fun ts e => vset ts e.1 e.2) q.targets

/-- The 4 KiB of a trap frame (R150). An entry whose fill is in progress is shown as filled, so that it survives the trap as
R122 says entries do: a resumption fills it again (log entry 88). -/
def State.frameBytes (s : State) (t : Nat) (r : TrapRec) : List Byte :=
  let x := s.tile t
  let w := fun (v : Word) => leBytes 8 v.toNat
  let latch := fun k : Nat =>
    let l := vget { } x.seq.latches k
    leBytes 8 l.word.toNat ++ leBytes 4 l.index.toNat ++ leBytes 4 l.live.toNat
  let loop := fun k : Nat =>
    let l := vget { } x.seq.loops k
    leBytes 4 l.lc.toNat ++ leBytes 4 l.l.toNat ++ leBytes 4 l.body ++ leBytes 4 l.active.toNat
  let target := fun k : Nat =>
    let e := vget { } x.seq.entries k
    leBytes 8 (e.addr.toNat % 2 ^ 22 + (if e.fill = .empty then 0 else 2 ^ 63))
  let gen := fun k : Nat =>
    let g := vget { } x.regs.ag k
    w (g.space.setWidth 64) ++ w g.base ++ w g.step ++ (g.stride.toList.flatMap w) ++ w g.limit
  w (frameHead x r) ++ w (frameAddrs r) ++ leBytes 8 r.icc ++ leBytes 8 r.pcc
    ++ leBytes 128 r.req.mask.toNat ++ w r.req.word ++ w r.phase
    ++ (List.range 8).flatMap latch ++ (List.range 6).flatMap loop ++ (List.range 8).flatMap target
    ++ x.eng.dynamicWords.flatMap w ++ leBytes 16 0 ++ (List.range 16).flatMap gen
    ++ (List.range 32).flatMap (fun b => let e := vget (0, 0) r.banks b; w e.1 ++ w e.2)
    ++ (List.range 9).flatMap (fun n => w (s.sysRead t (if n = 6 then 8 else if n = 7 then 6 else if n = 8 then 9 else n)))
    ++ leBytes 8 ((List.range 8).foldl (fun a k => a + (k == 0 || vget false x.regs.p k).toNat * 2 ^ k) 0)
    ++ w 0 ++ (List.range 31).flatMap (fun k => w (vget 0 x.regs.s (k + 1))) ++ leBytes 1456 0

/-- The state with a tile's frame written: to rows 0 to 3 of b31, or, from inside a handler, to rows 4 to 7
(R150). -/
def State.writeFrame (s : State) (t : Nat) (r : TrapRec) : State :=
  let off := if (s.tile t).sys.hnd then 4096 else 0
  { s.homeMoves t t 64 with mem := writeBytes s.mem (vaultAddr t 31 off) (s.frameBytes t r) }

/-- Entering the handler: the frame, the 256-byte trap record, idle latches, inactive loops and sr.mode.hnd; the
handler's first bundle issues next (R153). -/
def State.enterHandler (s : State) (t : Nat) (r : TrapRec) : State :=
  let s := s.writeFrame t r
  let x := s.tile t
  let bytes := leBytes 8 (frameHead x r).toNat ++ leBytes 8 (frameAddrs r).toNat
    ++ leBytes 8 x.sys.fpsr.toNat ++ leBytes 8 x.sys.dfpsr.toNat ++ leBytes 128 r.req.mask.toNat ++ leBytes 96 0
  let h := x.sys.handler.toNat * 8
  let x := x.stage (s.icc t) (x.sys.trec.toNat * 256) bytes
  s.setTile t { x with
    sys := { x.sys with hnd := true }
    seq := { x.seq with
      phase := .running, trap := none, pc := h, next := h, inHand := false, issueNo := 0, hushed := false
      nextAt := s.icc t + 1
      latches := x.seq.latches.map fun _ => { }
      loops := x.seq.loops.map fun _ => { }
      window := windowFrom (h / 128 * 128) (s.icc t) } }

/-- RETURNING FROM A TRAP: what a frame gives back to the sequencer and the generators: latches, loop levels,
target entries, generators, sr.mode.gm and sr.mode.er (R154, log entry 88). -/
def restoreFrom (x : Tile) (m : Memory) (base now : Nat) : Tile :=
  let nat := fun off n => readNat m (base + off) n
  let mode := nat 0x900 8
  { x with
    sys := { x.sys with gm := mode % 2 == 1, er := mode / 2 % 2 == 1 }
    eng := { x.eng with early := if mode / 2 % 2 = 1 then x.eng.early else [] }
    regs := { x.regs with ag := Vector.ofFn fun g : Fin 16 =>
      let at_ := fun k : Nat => BitVec.ofNat 64 (nat (0x200 + 80 * g.val + 8 * k) 8)
      { space := (at_ 0).setWidth 4, base := at_ 1, step := at_ 2
        stride := Vector.ofFn fun k : Fin 6 => at_ (3 + k.val), limit := at_ 9 } }
    seq := { x.seq with
      latches := Vector.ofFn fun k : Fin 8 =>
        { word := BitVec.ofNat 64 (nat (0xB0 + 16 * k.val) 8)
          index := BitVec.ofNat 32 (nat (0xB8 + 16 * k.val) 4), live := nat (0xBC + 16 * k.val) 1 == 1 }
      loops := Vector.ofFn fun k : Fin 6 =>
        { lc := BitVec.ofNat 32 (nat (0x130 + 16 * k.val) 4), l := BitVec.ofNat 32 (nat (0x134 + 16 * k.val) 4)
          body := nat (0x138 + 16 * k.val) 4, active := nat (0x13C + 16 * k.val) 1 == 1 }
      targets := Vector.ofFn fun k : Fin 8 =>
        let e := nat (0x190 + 8 * k.val) 8
        { addr := BitVec.ofNat 64 (e % 2 ^ 22)
          fill := if e / 2 ^ 63 = 1 then .filling now else .empty } } }

/-- Where a frame resumes: issue number issue + 1 of the trapping bundle where its rest bit is set, else the bundle
it records as next (R154). -/
def resumeAt (x : Tile) (m : Memory) (base now : Nat) : Tile :=
  let head := readNat m base 8
  let addrs := readNat m (base + 8) 8
  let rest := head / 2 ^ 33 % 2 == 1
  let next := addrs / 2 ^ 32 % 2 ^ 22
  let pc := if rest then addrs % 2 ^ 22 else next
  { x with seq := { x.seq with
      phase := .running, trap := none, stall := .none, pc := pc, next := next, after := [], prepPend := []
      closing := x.seq.owed.headD none, owed := x.seq.owed.drop 1
      inHand := rest, issueNo := if rest then head / 2 ^ 40 % 256 else 0, hushed := false
      nextAt := now + 1, window := windowFrom (pc / 128 * 128) now } }

/-! ### Bundle boundaries -/

/-- The divisors that CLKDIV has set take effect, not below their floors (R30, R141, R334). -/
def Tile.newDivisors (x : Tile) : Tile :=
  { x with
    sys := x.seq.divPend.foldl (fun (y : Sys) e =>
      { y with div := vset y.div e.1 (max e.2 (vget 1 y.divFloor e.1)), divReq := vset y.divReq e.1 e.2 }) x.sys
    seq := { x.seq with divPend := [] } }

/-- The target entries that PREP and PREPR have set take effect (R122). -/
def Tile.newEntries (x : Tile) : Tile := { x with seq := { x.seq with targets := x.seq.entries, prepPend := [] } }

/-! ### Reports -/

/-- A service log of at most 4,096 records; the oldest gives way, and is counted (R380). -/
def State.logIt (s : State) (source code place detail : Nat) : State :=
  let r : LogRec := { pcc := s.pcc, source := source, code := code, place := place, detail := detail }
  if 4096 ≤ s.log.length then
    { s with log := s.log.tail ++ [r], overwritten := min (2 ^ 32 - 1) (s.overwritten + 1) }
  else { s with log := s.log ++ [r] }

/-- A message to a port's node. -/
def State.tell (s : State) (port : Nat) (m : Told) : State := { s with told := s.told ++ [(port, m)] }

/-- A message to the owning control node, if there is one. -/
def State.tellOwner (s : State) (m : Told) : State :=
  match s.owner with | some p => s.tell p m | none => s

/-- A fault report: logged, told to the owner, and the service request set by a bit of the status word (R378). -/
def State.reportFault (s : State) (bit source code place : Nat) : State :=
  let s := (s.logIt source code place 0).tellOwner (.warning code place)
  { s with svc := s.svc ||| BitVec.twoPow 8 bit, svcNew := s.svcNew ||| BitVec.twoPow 8 bit }

/-- The stores whose correctable errors are counted, by a number below 16: the vault's banks, code, contexts, lines of the
memory tiers at their home; then the tile's own stores, 4 to 10: staging, vector file, accumulators, masks, operand latch,
weight latch, queues (R372). -/
def storeVault : Nat := 0
def storeCode : Nat := 1
def storeContext : Nat := 2
def storeHome : Nat := 3

/-- A correctable error counted, by its store and tile; a count that reaches a multiple of 1,024 is logged (R158, R372,
R380). -/
def State.countCorrected (s : State) (t store : Nat) : State :=
  let n := look 0 (t * 16 + store) s.corrected + 1
  let s := { s with corrected := insertAt (t * 16 + store) n s.corrected }
  if n % 1024 = 0 then s.logIt 1 store t n else s

/-! ### Encrypted lines -/

/-- Lines of a byte range whose stored form was written under some key lose that key: the bytes are raw now
(R258, log entry 9). -/
def State.rawLines (s : State) (addr n : Nat) : State :=
  { s with lineKeys := s.lineKeys.filter fun e => (e.1 + 1) * 64 ≤ addr || addr + n ≤ e.1 * 64 }

/-! ### Padded-link channels -/

/-- An entry of a link table (R302): roles, level, lines, window bases, and the pod ranks if named. -/
structure LinkEntry where
  srole : Nat
  rrole : Nat
  lev : Nat
  lines : Nat
  sbase : Nat
  rbase : Nat
  ranks : Option (Nat × Nat)
  rsv : Bool
  deriving DecidableEq, Repr

/-- The entries of a link table's words after its count (R302). -/
def parseEntries : List Word → List LinkEntry
  | [] => []
  | w :: r =>
    let e : LinkEntry :=
      { srole := (w.extractLsb' 53 11).toNat, rrole := (w.extractLsb' 42 11).toNat
        lev := (w.extractLsb' 39 3).toNat, lines := (w.extractLsb' 30 9).toNat + 1
        sbase := (w.extractLsb' 16 14).toNat * 64, rbase := (w.extractLsb' 2 14).toNat * 64
        ranks := none, rsv := w.getLsbD 0 }
    if w.getLsbD 1 then
      match r with
      | [] => [{ e with rsv := true }]
      | y :: r' =>
        { e with ranks := some ((y.extractLsb' 48 16).toNat, (y.extractLsb' 32 16).toNat)
                 rsv := e.rsv || y.extractLsb' 0 32 != 0 } :: parseEntries r'
    else e :: parseEntries r

/-- The placement variant a task runs (R22). -/
def State.variantOf (s : State) (k : Task) : Option Variant :=
  (find ((k.word 0).toNat % 2 ^ 32) s.images).bind fun im => im.variants[k.variant]?

/-- The channels of a task's launch, numbered by their place in the link table (R302). -/
def State.channels (s : State) (k : Task) : List (Nat × LinkEntry) :=
  match s.variantOf k with
  | none => []
  | some v => (List.range (parseEntries v.links.tail).length).zip (parseEntries v.links.tail)

/-- The channels on which a task receives, or sends (R303). -/
def State.receives (s : State) (k : Task) : List (Nat × LinkEntry) :=
  (s.channels k).filter fun e => e.2.rrole == k.role
    && (match e.2.ranks with | some (_, r) => r == k.podRank | none => true)
def State.sends (s : State) (k : Task) : List (Nat × LinkEntry) :=
  (s.channels k).filter fun e => e.2.srole == k.role
    && (match e.2.ranks with | some (r, _) => r == k.podRank | none => true)

/-! ### Checks at an issue -/

/-- What the checks of an issue find (R28, R58). -/
inductive Verdict where
  | go
  | stall
  | trap (r : TrapReq)
  deriving DecidableEq, Repr

/-- Whether two byte ranges meet. -/
def meet (a n b m : Nat) : Bool := a < b + m && b < a + n

/-- The code of a trap of a slot, with an empty mask. -/
def trapOf (slot code : Nat) : TrapReq := { code := code, slot := slot }

/-- The checks on a generator: space and alignment give 0x05, then limit and range 0x08 (R47, R115). -/
def State.genFault (s : State) (c : Ctx) (g : BitVec 4) (spaces : Nat → Bool) (align : Nat) : Option Nat :=
  let (a, addr) := s.gen c g
  if !spaces a.space.toNat || addr.toNat % align ≠ 0 then some 0x05
  else if !a.inRange addr then some 0x08
  else none

/-- The tile a space-1 address names, and the byte in its staging (R115). -/
def islandTarget (t addr : Nat) : Nat × Nat := (t / 16 * 16 + addr / 2 ^ 20 % 16, addr % 2 ^ 20)

/-- Whether a tile belongs to the issuing tile's own island gang (R10). -/
def State.inGang (s : State) (t u : Nat) : Bool := u == t || (s.gang t).contains u

/-- Hops between two tiles of an island (R7). -/
def hopCount (t u : Nat) : Nat :=
  ((t % 16 / 4 : Int) - (u % 16 / 4 : Int)).natAbs + ((t % 4 : Int) - (u % 4 : Int)).natAbs

/-- Ranges read on one cycle, each with that cycle. -/
def readsAt (cycle : Nat) (rs : List (Nat × Nat)) : List (Nat × Nat × Nat) := rs.map fun r => (cycle, r)

/-- The early-read checker's finding on staging ranges that the tile reads on stated cycles: 0x60 for a static entry that is there
on the cycle of the read, 0x61 for a global one (R168, R278, log entry 113). -/
def Tile.earlyFault (x : Tile) (rs : List (Nat × Nat × Nat)) : Option Nat :=
  if !x.sys.er then none
  else
    let hit := fun (e : Listed) => rs.any fun r => (e.glob || r.1 < e.till) && meet r.2.1 r.2.2 e.addr e.len
    if x.eng.early.any fun e => !e.glob && hit e then some 0x60
    else if x.eng.early.any fun e => e.glob && hit e then some 0x61
    else none

/-- A read of a receive-window line that has not been delivered: the level of its channel (R305). -/
def State.lateLevel (s : State) (t : Nat) (rs : List (Nat × Nat)) : Option Nat :=
  match (s.tile t).task with
  | none => none
  | some k =>
    ((s.receives k).find? fun e =>
      (List.range e.2.lines).any fun l =>
        !(s.tile t).bar.full.contains (e.1, l) && rs.any fun r => meet r.1 r.2 (e.2.rbase + 64 * l) 64).map (·.2.lev)

/-- The checks on the staging ranges a tile's slot reads, each with the cycle of its read (R278, R305). -/
def State.readFault (s : State) (t : Nat) (rs : List (Nat × Nat × Nat)) : Option Nat :=
  match (s.tile t).earlyFault rs with
  | some e => some e
  | none =>
    match s.lateLevel t (rs.map (·.2)), (s.tile t).task with
    | some lev, some k => if k.lenient.contains lev then none else some 0x51
    | _, _ => none

/-- After a resumption, a read of an undelivered line stalls its bundle instead (R340). -/
def State.readStalls (s : State) (t : Nat) (rs : List (Nat × Nat)) : Bool :=
  match s.lateLevel t rs, (s.tile t).task with
  | some lev, some k => k.lenient.contains lev
  | _, _ => false

/-- Whether an RD in flight has not landed on staging ranges by the cycle on which an operation issued now reads them, so that it
waits in guarded mode; with the early-read checker the read traps instead, in either mode (R168). -/
def Tile.rdPending (x : Tile) (readAt : Nat) (rs : List (Nat × Nat)) : Bool :=
  !x.sys.er && x.vault.reads.any fun e => readAt ≤ e.cycle && rs.any fun r => meet r.1 r.2 e.addr 64

/-- Whether a write of the tile's own VST, VSCAT or RD to staging ranges has not performed by the cycle on which an
operation issued now reads them (R193). -/
def Tile.writePending (x : Tile) (t readAt : Nat) (rs : List (Nat × Nat)) : Bool :=
  x.rdPending readAt rs
    || (x.seq.stWrites.any fun w => w.tile == t && (w.slot == 1 || w.slot == 2) && readAt ≤ w.cycle
          && rs.any fun r => meet r.1 r.2 w.addr w.bytes.length)

/-- The staging bytes that a unit of a global copy writes (R267, R272, R274). -/
def GCopy.lands (g : GCopy) (u : Nat) : Option (Nat × Nat) := match g.kind with
  | .grd | .gath => some (g.dst + 64 * u, 64)
  | .dec => some (g.dst + 32 * g.width * u, 32 * g.width)
  | .gwr | .feed => none

/-- Whether a copy of the tile, static or global, has still to write to staging ranges; a global one that has faulted
writes nothing more (R234, R264, R280). -/
def Tile.copyPending (x : Tile) (t : Nat) (rs : List (Nat × Nat)) : Bool :=
  (x.seq.stWrites.any fun w => w.tile == t && (w.slot == 4 || w.slot == 5)
      && rs.any fun r => meet r.1 r.2 w.addr w.bytes.length)
    || (x.seq.stReads.any fun w => match w.use with
          | .copyTo _ u a _ => u == t && rs.any fun r => meet r.1 r.2 a w.len
          | .xpose _ _ _ u a _ _ _ => u == t && rs.any fun r => meet r.1 r.2 a 4096
          | _ => false)
    || (x.eng.copies.any fun g => g.fault.isNone && (List.range g.units).any fun u =>
          !g.done.contains u && (match g.lands u with
            | some w => rs.any fun r => meet r.1 r.2 w.1 w.2
            | none => false))

end Sys2Proof.Machine
end

