-- ==== Sys2Proof/Machine/Cipher.lean ====
section
/-! DEFINITION. The cipher of the memory tiers: AES-256-XTS (IEEE 1619, with the block cipher of FIPS 197), one data unit
of 64 bytes (R258, log entry 9). -/

namespace Sys2Proof.Machine

/-! ### The field of 256 elements -/

/-- A polynomial times x, modulo x^8 + x^4 + x^3 + x + 1. -/
def gfDouble (a : Byte) : Byte := (a <<< 1) ^^^ (if a.msb then 0x1B else 0)

/-- A product in the field. -/
def gfMul (a b : Byte) : Byte :=
  (List.range 8).foldr (fun i r => gfDouble r ^^^ (if b.getLsbD i then a else 0)) 0

/-- The inverse, the 254th power; 0 for 0. -/
def gfInv (a : Byte) : Byte :=
  ((List.range 7).foldl (fun (p : Byte × Byte) _ => let q := gfMul p.1 p.1; (q, gfMul p.2 q)) (a, 1)).2

/-- The substitution of a byte, its inverse, and both as tables. -/
def subByte (a : Byte) : Byte :=
  let y := gfInv a
  [1, 2, 3, 4].foldl (fun r k => r ^^^ y.rotateLeft k) (y ^^^ 0x63)
def unsubByte (a : Byte) : Byte := gfInv ([1, 3, 6].foldl (fun r k => r ^^^ a.rotateLeft k) 0x05)
def subTable : List Byte := (List.range 256).map fun n => subByte (BitVec.ofNat 8 n)
def unsubTable : List Byte := (List.range 256).map fun n => unsubByte (BitVec.ofNat 8 n)

/-! ### The block cipher; a block is 16 bytes, column by column -/

/-- Bytes added in pairs. -/
def xorBytes (a b : List Byte) : List Byte := List.zipWith (· ^^^ ·) a b

/-- Every byte looked up in a table. -/
def substitute (table : List Byte) (b : List Byte) : List Byte := b.map fun x => table.getD x.toNat 0

/-- Row r of a block turned by k r columns. -/
def turnRows (k : Nat) (b : List Byte) : List Byte :=
  (List.range 16).map fun n => b.getD (4 * ((n / 4 + k * (n % 4)) % 4) + n % 4) 0

/-- Every column multiplied by the circulant of four coefficients. -/
def mixColumns (k : List Byte) (b : List Byte) : List Byte :=
  (List.range 16).map fun n =>
    (List.range 4).foldl (fun r j => r ^^^ gfMul (k.getD ((4 + j - n % 4) % 4) 0) (b.getD (n / 4 * 4 + j) 0)) 0

/-- The next word of a key schedule, from the words so far, the last first. -/
def nextKeyWord (ws : List (List Byte)) : List Byte :=
  let n := ws.length
  let last := ws.headD []
  let rcon := (List.range (n / 8 - 1)).foldl (fun (r : Byte) _ => gfDouble r) 1
  let f :=
    if n % 8 = 0 then xorBytes (substitute subTable (last.tail ++ last.take 1)) [rcon, 0, 0, 0]
    else if n % 8 = 4 then substitute subTable last
    else last
  xorBytes f (ws.getD 7 [])

/-- The fifteen round keys of a 32-byte key. -/
def roundKeys (key : List Byte) : List (List Byte) :=
  let first := ((List.range 8).map fun k => (key.drop (4 * k)).take 4).reverse
  let ws := ((List.range 52).foldl (fun ws _ => nextKeyWord ws :: ws) first).reverse
  (List.range 15).map fun r => ((ws.drop (4 * r)).take 4).flatten

/-- A block enciphered, and deciphered, under round keys. -/
def aesEncrypt (ks : List (List Byte)) (b : List Byte) : List Byte :=
  let b := (List.range 13).foldl
    (fun b r => xorBytes (mixColumns [2, 3, 1, 1] (turnRows 1 (substitute subTable b))) (ks.getD (r + 1) []))
    (xorBytes b (ks.getD 0 []))
  xorBytes (turnRows 1 (substitute subTable b)) (ks.getD 14 [])
def aesDecrypt (ks : List (List Byte)) (b : List Byte) : List Byte :=
  let b := substitute unsubTable (turnRows 3 (xorBytes b (ks.getD 14 [])))
  let b := (List.range 13).foldr
    (fun r b => substitute unsubTable (turnRows 3 (mixColumns [14, 11, 13, 9] (xorBytes b (ks.getD (r + 1) []))))) b
  xorBytes b (ks.getD 0 [])

/-! ### A data unit -/

/-- The tweak of the next block of a unit: times x in the field of 2^128 elements. -/
def nextTweak (t : Nat) : Nat := if t < 2 ^ 127 then 2 * t else (2 * t - 2 ^ 128) ^^^ 0x87

/-- Blocks of a unit, each under its tweak. -/
def underTweaks (f : List Byte → List Byte) : List (List Byte) → Nat → List Byte
  | [], _ => []
  | b :: r, t =>
    let w := leBytes 16 t
    xorBytes (f (xorBytes b w)) w ++ underTweaks f r (nextTweak t)

/-- The two halves of a slot's key, data and tweak, as round keys; a key's number has its first byte lowest. -/
def keyHalves (key : Nat) : List (List Byte) × List (List Byte) :=
  (roundKeys (leBytes 32 key), roundKeys (leBytes 32 (key / 2 ^ 256)))

/-- The tweak of a line: its physical address, with the tier code in bits [63:62]. -/
def lineTweak (tier line : Nat) : Nat := tier * 2 ^ 62 + line * 64

/-- A line of 64 bytes as it is stored under a key, and as it reads under one. -/
def encryptLine (key tier line : Nat) (bs : List Byte) : List Byte :=
  let ks := keyHalves key
  underTweaks (aesEncrypt ks.1) ((List.range 4).map fun k => (bs.drop (16 * k)).take 16)
    (leNat (aesEncrypt ks.2 (leBytes 16 (lineTweak tier line))))
def decryptLine (key tier line : Nat) (bs : List Byte) : List Byte :=
  let ks := keyHalves key
  underTweaks (aesDecrypt ks.1) ((List.range 4).map fun k => (bs.drop (16 * k)).take 16)
    (leNat (aesEncrypt ks.2 (leBytes 16 (lineTweak tier line))))

/-! ### What the stores hold -/

/-- The memory of a tier, and the keys under which its lines were written (log entry 9). -/
def State.store? (s : State) (tier : Nat) : Memory × Table Nat :=
  if tier = 0 then (s.mem, s.lineKeys) else (s.mem2, s.lineKeys2)

/-- A line as its store holds it. -/
def State.storedLine (s : State) (tier line : Nat) : List Byte :=
  let m := s.store? tier
  let bs := readBytes m.1 (line * 64) 64
  match find line m.2 with
  | some k => encryptLine k tier line bs
  | none => bs

/-- A line as it reads under a key (R258). -/
def State.lineUnder (s : State) (key tier line : Nat) : List Byte :=
  let m := s.store? tier
  if find line m.2 = some key then readBytes m.1 (line * 64) 64 else decryptLine key tier line (s.storedLine tier line)

/-- A line written under a key. -/
def State.putLine (s : State) (key tier line : Nat) (bs : List Byte) : State :=
  if tier = 0 then { s with mem := writeBytes s.mem (line * 64) bs, lineKeys := insertAt line key s.lineKeys }
  else { s with mem2 := writeBytes s.mem2 (line * 64) bs, lineKeys2 := insertAt line key s.lineKeys2 }

/-- Bytes of a store as they stand in it. -/
def State.readRaw (s : State) (tier a n : Nat) : List Byte :=
  let m := s.store? tier
  if m.2.any fun e => meet a n (e.1 * 64) 64 then
    (((List.range ((a + n - 1) / 64 - a / 64 + 1)).flatMap fun k => s.storedLine tier (a / 64 + k)).drop (a % 64)).take n
  else readBytes m.1 a n

/-- Bytes written into a store as they are: what else the lines they touch hold stays as it is stored. -/
def State.writeRaw (s : State) (tier a : Nat) (bs : List Byte) : State :=
  let hit := fun (e : Nat × Nat) => meet a bs.length (e.1 * 64) 64
  let m := s.store? tier
  let bare := (m.2.filter hit).foldl (fun m e => writeBytes m (e.1 * 64) (s.storedLine tier e.1)) m.1
  let keys := m.2.filter fun e => !hit e
  if tier = 0 then { s with mem := writeBytes bare a bs, lineKeys := keys }
  else { s with mem2 := writeBytes bare a bs, lineKeys2 := keys }

end Sys2Proof.Machine
end

