-- ==== Sys2Proof/Machine/Flow.lean ====
section
/-! DEFINITION. The flow of control from one bundle to the next: lines and the prefetch window, transfers and loop ends, and
the traps that no issue raises, which name the bundle that would issue next (R36, R38, R44, R60, R119 to R123, R150, R152). -/

namespace Sys2Proof.Machine

/-! ### Lines (R36, R38, R60, R121) -/

/-- The line of a code address. -/
def lineOf (a : Nat) : Nat := a / 128 * 128

/-- The header of the line at an address. -/
def State.lineAt (s : State) (t a : Nat) : LineHeader := LineHeader.ofBits (s.granule t (lineOf a))

/-- The head of the bundle at a code address. -/
def State.headAt (s : State) (t a : Nat) : Head := Head.ofBits (s.granule t a)

/-- The window with a line in issue: that line and the four that follow it; those not there are asked for now. A fifth,
which a transfer has asked for after the two lines of its entry, stays asked for (R60). -/
def slide (w : List FetchLine) (line now : Nat) : List FetchLine :=
  ((windowFrom line now).map fun e => (w.find? fun x => x.addr == e.addr).getD e)
    ++ w.filter fun e => e.addr == line + 640

/-- The sequencer at a code address, whose bundle issues next. -/
def Seq.go (q : Seq) (a now : Nat) : Seq := { q with pc := a, next := a, window := slide q.window (lineOf a) now }

/-- The sequencer with its loop nest inactive, which ends the capture of a body that was active; a handler's transfer leaves
the capture of the body that it interrupts (R120, R121). -/
def Seq.leaveLoops (q : Seq) : Seq :=
  { q with loops := q.loops.map fun _ => { }, capture := q.capture && q.loops.toList.all fun l => !l.active }

/-- The sequencer after a taken transfer through an entry: the window restarts after the entry's two lines, and the
loop nest is inactive (R60, R120). -/
def Seq.jump (q : Seq) (a : Nat) (filled : Bool) (now : Nat) : Seq :=
  let two := [{ addr := lineOf a, asked := now, here := filled }, { addr := lineOf a + 128, asked := now, here := filled }]
  { q.leaveLoops with
           pc := a, next := a
           window := two ++ (windowFrom (lineOf a + 256) now).take 4 }

/-- The sequencer once the entry that a transfer waits for is filled: its two lines are there, and the four after them stay
asked for (R60). -/
def Seq.arrive (q : Seq) (a : Nat) : Seq :=
  { q with next := a, after := [], window := q.window.map fun e =>
      if e.addr == lineOf a || e.addr == lineOf a + 128 then { e with here := true } else e }

/-- Granule past the end of the bundle at an address. -/
def endGranule (a : Nat) (h : Head) : Nat := a % 128 / 8 + h.granules

/-- Where sequential flow goes from a bundle, or the code of its fault (R38). -/
def State.successor (s : State) (t a : Nat) : Except Nat Nat :=
  match nextStart (s.lineAt t a) (endGranule a (s.headAt t a) - 1) with
  | some k => .ok (lineOf a + 8 * k)
  | none =>
    let l := lineOf a + 128
    if Config.codeBytes ≤ l then .error 0x03
    else match (List.range 16).find? fun k => 0 < k && (s.lineAt t l).start.getLsbD k with
      | some k => .ok (l + 8 * k)
      | none => .error 0x02

/-- What a call writes to s31 (R44). -/
def State.returnAddr (s : State) (t a : Nat) : Nat :=
  match nextStart (s.lineAt t a) (endGranule a (s.headAt t a) - 1) with
  | some k => lineOf a + 8 * k
  | none => lineOf a + 136

/-! ### Transfers (R44, R120) -/

/-- A fault of a transfer, a loop end or sequential flow, or a region left open: at the bundle that issued last, with
the vault as it stood when that issue was checked (R189). -/
def State.flowTrap (s : State) (t : Nat) (code : Nat) : State :=
  let q := (s.tile t).seq
  s.takeTrapAt t (trapOf 0xE code) q.last q.next q.lastNo false q.snap

/-- The context in which a transfer's predicate is read. -/
def State.headCtx (s : State) (t : Nat) : Ctx := { t := t, slot := 8, index := 0, addr := (s.tile t).seq.last, now := s.icc t }

/-- A taken transfer through an entry: the loop nest is inactive, whatever the entry holds (R120). While the entry fills,
the transfer stands with its target chosen (log entry 77). -/
def State.transfer (s : State) (t : Nat) (xt : BitVec 3) : State :=
  let e := vget { } (s.tile t).seq.targets xt.toNat
  let a := e.addr.toNat
  let s := s.onSeq t Seq.leaveLoops
  match e.fill with
  | .empty => s.flowTrap t 0x07
  | .filling _ => s.onSeq t fun q =>
      if q.after = [.transferJump t xt 0 false] then q
      else { q.jump a false (s.icc t) with next := q.next, after := [.transferJump t xt 0 false] }
  | .filled =>
    if !s.isMarked t a then s.flowTrap t 0x03
    else s.onSeq t fun q =>
      if q.after = [.transferJump t xt 0 false] then q.arrive a else { q.jump a true (s.icc t) with after := [] }

/-- The call link: s31 receives the return address one cycle after the call's bundle has issued. A call that has waited, for its
predicate or for the release of its sync bundle, has it there for the bundle that issues next; behind an earlier result to s31
that is still in flight in guarded mode, it lands after that one (R27, R44, R123, log entry 114). -/
def State.linkCall (s : State) (t ret : Nat) : State :=
  let q := (s.tile t).seq
  let u := s.flightBy t (q.issuedAt + 1) [.s 31 (BitVec.ofNat 64 ret)]
  match (u.tile t).seq.flights.find? fun f => f.id == s.nextId with
  | some f => if q.issuedAt < s.icc t && (u.tile t).mayLand f (s.icc t) then u.onTile t (·.land f (s.undef (8000000 + f.id))) else u
  | none => u

/-- A transfer that its predicate takes: in an open region it traps, with the slot field of a head fault (log entry 32); a call
writes s31 even where its entry then traps, as R44 makes the predicate alone decide (log entry 85). -/
def State.taken (s : State) (t : Nat) (xt : BitVec 3) (call : Bool) : State :=
  let x := s.tile t
  if x.eng.region.isSome then (s.onTile t Tile.dropRegion).flowTrap t 0x05
  else
    let ret := s.returnAddr t x.seq.last
    let s := if call then s.linkCall t ret else s
    s.transfer t xt

/-! ### Loop ends (R38, R119) -/

/-- Misuse of the loop nest by a loop-end marker: a marked level inactive, or an unmarked active level inside it
(R119). -/
def loopMisuse (loops : Vector Loop 6) (lend : BitVec 6) : Bool :=
  let on := fun k => (vget { } loops k).active
  (List.range 6).any fun k => lend.getLsbD k
    && (!on k || (List.range 6).any fun j => k < j && on j && !lend.getLsbD j)

/-- The marked levels innermost first: the loops after it, and the body start if a level replays (R119). -/
def loopAdvance (lend : BitVec 6) : List Nat → Vector Loop 6 → Vector Loop 6 × Option (Nat × Nat)
  | [], loops => (loops, none)
  | k :: ks, loops =>
    if !lend.getLsbD k then loopAdvance lend ks loops
    else
      let l := vget { } loops k
      if l.l + 1 < l.lc then (vset loops k { l with l := l.l + 1 }, some (k, l.body))
      else loopAdvance lend ks (vset loops k { l with l := 0, active := false })

/-- The loop end of a bundle: a level that has iterations left replays its body, and otherwise sequential flow goes on (R38,
R119, R121). -/
def State.runLoopEnd (s : State) (t : Nat) (lend : BitVec 6) : State :=
  let q := (s.tile t).seq
  if loopMisuse q.loops lend then s.flowTrap t 0x09
  else
    let r := loopAdvance lend [5, 4, 3, 2, 1, 0] q.loops
    let s := s.onSeq t fun q => { q with loops := r.1 }
    match r.2 with
    | some (k, a) =>
      let outer := (r.1.toList.take k).all fun l => !l.active
      (s.onSeq t fun q =>
        let q := if outer then { q with capture := q.captured.isNone, captured := some (q.captured.getD (a, a)) } else q
        { q.go a (s.icc t) with after := q.after.drop 1 })
    | none =>
      let ends := (q.loops.toList.any (·.active)) && r.1.toList.all fun l => !l.active
      match s.successor t q.last with
      | .ok a => (s.onSeq t fun q =>
          { q.go a (s.icc t) with after := q.after.drop 1, capture := q.capture && !ends })
      | .error e => s.flowTrap t e

/-! ### Traps that no issue raises (R152, R172, R225) -/

/-- Where a tile stands for a trap that no issue raises: the bundle that waits to issue, a repeating bundle between
two issues with its last issue's number, or the sync bundle it waits at with number 1 or 2. A sync bundle whose slots still
hold it has not signalled its arrival (R172, R225, R294). -/
def Tile.standing (x : Tile) : Nat × Nat × Nat × Bool :=
  let point := match x.task with | some k => k.point | none => 0
  match x.seq.stall with
  | .arriving _ => (x.seq.last, x.seq.last, 1, false)
  | .released _ => (x.seq.last, x.seq.last, 2, false)
  | st =>
    if st == .draining && 2 ≤ point then (x.seq.last, x.seq.last, point - 1, false) else
    if x.seq.inHand then (x.seq.pc, x.seq.next, x.seq.issueNo, true)
    else match x.seq.after.head? with
      | some (.sync _ _) => (x.seq.last, x.seq.last, 1, false)
      | _ => (x.seq.pc, x.seq.pc, 0, false)

/-- Where TRET of a handler goes back to, from the frame in rows 0 to 3 (R154). -/
def State.returnsTo (s : State) (t : Nat) : Nat :=
  let base := vaultAddr t 31 0
  let addrs := readNat s.mem (base + 8) 8
  if readNat s.mem base 8 / 2 ^ 33 % 2 = 1 then addrs % 2 ^ 22 else addrs / 2 ^ 32 % 2 ^ 22

/-- Where a tile stands; after TRET's bundle the one that it goes back to issues next (R150, R154). -/
def State.standing (s : State) (t : Nat) : Nat × Nat × Nat × Bool :=
  if (s.tile t).seq.stall == .tretDrain then (s.returnsTo t, s.returnsTo t, 0, false) else (s.tile t).standing

/-- The predicate of a transfer as it reads it: the value that it has waited for, or the register as it stands (R44). -/
def State.predRead (s : State) (t : Nat) (xp : BitVec 3) : Bool :=
  (s.tile t).seq.xpHeld.getD (s.readP (s.headCtx t) xp)

/-- The value that a transfer's predicate has once what earlier bundles write to it has landed: what the transfer of a guarded
bundle waits for. What its own bundle writes is never seen (R44). -/
def State.predSettled (s : State) (t : Nat) (xp : BitVec 3) : Bool :=
  let x := s.tile t
  let waits := if !x.sys.gm || xp = 0 || x.seq.xpHeld.isSome then []
    else x.seq.flights.filter fun f => f.issue < x.seq.issuedAt && f.dests.contains (.p xp.toNat)
  match waits.getLast? with
  | some f => f.writes.any fun w => w == .p xp.toNat true
  | none => s.predRead t xp

/-- The bundle that issues next once a bundle that has issued is left by a trap: its transfer or its loop end selects it; its
kind does not act, and a sync bundle is not left (R29, R150, R294, log entry 100). -/
def State.leaveBundle (s : State) (t : Nat) : List Instr → State
  | .transferJump _ xt xp xn :: r => if s.predSettled t xp == xn then s.leaveBundle t r else s.taken t xt false
  | .transferCall _ xt xp xn :: r => if s.predSettled t xp == xn then s.leaveBundle t r else s.taken t xt true
  | .loopEnd _ lend :: _ => s.runLoopEnd t lend
  | .yield _ :: r | .rplan _ :: r => s.leaveBundle t r
  | _ => s

/-- The state once a bundle that has issued is left; the wait at a sync bundle, suspended or not, is not (R294). -/
def State.left (s : State) (t : Nat) : State :=
  let x := s.tile t
  let point := match x.task with | some k => k.point | none => 0
  match x.seq.stall with
  | .arriving _ | .released _ | .exiting => s
  | .draining => if 2 ≤ point then s else s.leaveBundle t x.seq.after
  | _ => s.leaveBundle t x.seq.after

/-- A trap at the bundle that issues or waits (R172, R225, R279). -/
def State.trapWaiting (s : State) (t : Nat) (r : TrapReq) : State :=
  let s := s.left t
  let (a, n, i, rest) := s.standing t
  s.takeTrap t r a n i rest

/-- A trap at the bundle that issues or waits; where the tile drains into its handler, at the handler's first bundle, and
where it drains to a stop, once it goes on after a restart (R171, R172, R175). -/
def State.trapNext (s : State) (t : Nat) (r : TrapReq) : State :=
  if (s.tile t).seq.phase == .trapping then s.onSeq t fun q => { q with faults := q.faults ++ [(s.icc t, r)] } else s.trapWaiting t r

/-- The record of a halt by a gang member, with code 0x00, slot 0xF and that member's index; its frame shows the vault as it
stands on the cycle on which the halt takes effect (R152, R189, log entry 101). -/
def State.haltRecord (s : State) (t by_ a n i : Nat) (rest : Bool) (v : Snap) : TrapRec :=
  s.recordTrap t { code := 0, slot := 0xF, aux := by_ } 2 a n i rest v

/-- A gang member's halt (R152). Where the bundle that issued last selects its next one by a transfer or a loop end that faults,
the frame is that of the halt all the same, and the fault is raised once the task goes on again (log entry 115). -/
def State.haltTile (s : State) (t by_ : Nat) : State :=
  if !(s.tile t).seq.phase.live then s else
  let v := s.snap t
  let u := s.left t
  match (u.tile t).seq.phase, (u.tile t).seq.trap with
  | .closing, _ => u
  | .trapping, some r =>
    u.onTile t fun x =>
      { x with
        kept := some (v.icc, v.vault)
        seq := { x.seq with haltBy := none, trap := some (u.haltRecord t by_ r.addr r.next r.issue r.rest v)
                            faults := x.seq.faults ++ [(u.icc t, r.req)] } }
  | _, _ =>
    let (a, n, i, rest) := u.standing t
    u.onTile t fun x =>
      let x := (x.trapped (u.haltRecord t by_ a n i rest v) v).stopBanks
      { x with seq := { x.seq with haltBy := none } }

end Sys2Proof.Machine
end

