-- ==== Sys2Proof/Machine/Flags.lean ====
section
/-! DEFINITION. Binary floating-point arithmetic and its flags (R67 to R74, R93 to R96, R102, R103). A finite value is
an exact rational n / d × 2^e until it is rounded once. -/

namespace Sys2Proof.Machine

/-! ### Flags and rounding -/

/-- Exceptions as they stand in sr.fpsr, and, without fz, in sr.dfpsr (R74, R76). -/
abbrev Flags := BitVec 6

def fIv : Flags := 1
def fDz : Flags := 2
def fOf : Flags := 4
def fUf : Flags := 8
def fNx : Flags := 16
def fFz : Flags := 32

/-- The flags if a condition holds. -/
def flagsIf (b : Bool) (f : Flags) : Flags := if b then f else 0

/-- Rounding modes of the rm field and of sr.drm (R72, R77). -/
inductive Rm where
  | rne | rna | rtz | rup | rdn
  deriving DecidableEq, Repr

/-- The mode of an rm field (R48). -/
def Rm.ofBits (b : BitVec 2) : Rm := if b = 0 then .rne else if b = 1 then .rtz else if b = 2 then .rup else .rdn

/-- The mode that sr.drm names (R77). -/
def Rm.ofDrm (b : BitVec 3) : Rm :=
  if b = 0 then .rne else if b = 1 then .rna else if b = 2 then .rtz else if b = 3 then .rup else .rdn

/-- The quotient n / d of a magnitude rounded to an integer, and whether it is inexact (R72, R77). -/
def Rm.quotient (rm : Rm) (neg : Bool) (n d : Nat) : Nat × Bool :=
  let q := n / d
  let r := n % d
  let up := match rm with
    | .rne => d < 2 * r || (2 * r == d && q % 2 == 1)
    | .rna => d ≤ 2 * r
    | .rtz => false
    | .rup => !neg && r != 0
    | .rdn => neg && r != 0
  (if up then q + 1 else q, r != 0)

/-- Whether an overflow takes the largest finite value instead of the infinity (R72). -/
def Rm.stopsShort (rm : Rm) (neg : Bool) : Bool :=
  match rm with
  | .rne | .rna => false
  | .rtz => true
  | .rup => neg
  | .rdn => !neg

/-- The floor of the base-2 logarithm of n / d. -/
def floorLog (n d : Nat) : Int :=
  let k : Int := (Nat.log2 n : Int) - (Nat.log2 d : Int)
  if n * 2 ^ (-k).toNat < d * 2 ^ k.toNat then k - 1 else k

/-! ### Formats -/

/-- What an exponent field of all ones stands for: infinities and NaNs, one NaN, or finite values (R69). -/
inductive Top where
  | ieee | oneNan | finite
  deriving DecidableEq, Repr

/-- A binary floating-point format: widths of the exponent and the fraction, and the bias (R68). -/
structure Fmt where
  ew : Nat
  mw : Nat
  bias : Nat
  top : Top
  deriving DecidableEq, Repr

def fp64 : Fmt := ⟨11, 52, 1023, .ieee⟩
def fp32 : Fmt := ⟨8, 23, 127, .ieee⟩
def bf16 : Fmt := ⟨8, 7, 127, .ieee⟩
def fp16 : Fmt := ⟨5, 10, 15, .ieee⟩
def e4m3 : Fmt := ⟨4, 3, 7, .oneNan⟩
def e5m2 : Fmt := ⟨5, 2, 15, .ieee⟩
def e2m1 : Fmt := ⟨2, 1, 1, .finite⟩

/-- The binary format of a format code (R67). -/
def fmtOf (code : Nat) : Option Fmt :=
  if code = 1 then some fp32 else if code = 2 then some bf16 else if code = 3 then some fp16
  else if code = 4 then some e4m3 else if code = 5 then some e5m2 else if code = 0xC then some fp64 else none

/-- The binary format of an element type (R190). -/
def fmtOfTy (ty : BitVec 3) : Fmt := if ty = 0 then fp32 else if ty = 1 then bf16 else if ty = 2 then fp16 else fp64

/-- Bits of an element. -/
def Fmt.width (f : Fmt) : Nat := 1 + f.ew + f.mw

/-- The sign bit of a sign. -/
def Fmt.sign (f : Fmt) (neg : Bool) : Nat := neg.toNat * 2 ^ (f.ew + f.mw)

/-- Largest exponent field, and the fraction that goes with it, of a finite value (R68, R69). -/
def Fmt.topField (f : Fmt) : Nat := if f.top = .ieee then 2 ^ f.ew - 2 else 2 ^ f.ew - 1
def Fmt.topFrac (f : Fmt) : Nat := if f.top = .oneNan then 2 ^ f.mw - 2 else 2 ^ f.mw - 1

/-- The largest finite value (R68). -/
def Fmt.largest (f : Fmt) (neg : Bool) : Nat := f.sign neg + f.topField * 2 ^ f.mw + f.topFrac

/-- An infinity; what an overflow writes in its place in E4M3, which has none: its NaN, with the sign kept (R69, R94). -/
def Fmt.inf (f : Fmt) (neg : Bool) : Nat :=
  match f.top with
  | .ieee => f.sign neg + (2 ^ f.ew - 1) * 2 ^ f.mw
  | .oneNan => f.sign neg + (2 ^ f.ew * 2 ^ f.mw - 1)
  | .finite => f.largest neg

/-- The default NaN (R69). -/
def Fmt.dnan (f : Fmt) : Nat :=
  if f.top = .oneNan then 2 ^ (f.ew + f.mw) - 1 else (2 ^ f.ew - 1) * 2 ^ f.mw + 2 ^ (f.mw - 1)

/-- What a code stands for: a NaN with its sign, whether it signals, and its fraction; an infinity; or the value
±m × 2^e, with m = 0 for a zero (R68, R69). -/
inductive Fp where
  | nan (neg sig : Bool) (frac : Nat)
  | inf (neg : Bool)
  | num (neg : Bool) (m : Nat) (e : Int)
  deriving DecidableEq, Repr

/-- Whether a code is a NaN, and whether it signals. -/
def Fp.isNan : Fp → Bool
  | .nan _ _ _ => true
  | _ => false
def Fp.signals : Fp → Bool
  | .nan _ b _ => b
  | _ => false

/-- Reads a code. -/
def Fmt.unpack (f : Fmt) (x : Nat) : Fp :=
  let neg := x / 2 ^ (f.ew + f.mw) % 2 == 1
  let ex := x / 2 ^ f.mw % 2 ^ f.ew
  let fr := x % 2 ^ f.mw
  if ex = 2 ^ f.ew - 1 && (f.top == .ieee || (f.top == .oneNan && fr == 2 ^ f.mw - 1)) then
    if f.top == .ieee && fr == 0 then .inf neg
    else .nan neg (f.top == .ieee && fr < 2 ^ (f.mw - 1)) fr
  else if ex = 0 then .num neg fr (1 - (f.bias : Int) - f.mw)
  else .num neg (2 ^ f.mw + fr) ((ex : Int) - f.bias - f.mw)

/-- Whether a code is a subnormal. -/
def Fmt.isSub (f : Fmt) (x : Nat) : Bool := x / 2 ^ f.mw % 2 ^ f.ew == 0 && x % 2 ^ f.mw != 0

/-- Reads an operand: a subnormal that is flushed is a zero of its sign, with fz (R71). -/
def Fmt.read (f : Fmt) (flush : Bool) (x : Nat) : Fp × Flags :=
  if flush && f.isSub x then (.num (x / 2 ^ (f.ew + f.mw) % 2 == 1) 0 0, fFz) else (f.unpack x, 0)

/-- An exact n / d × 2^e with a sign, n not 0, rounded once to a format: overflow, and a tiny result, delivered or
flushed (R71 to R73). In a mode that takes the largest finite value, whatever exceeds that value overflows (DEDUCED, log
entry 14). -/
def Fmt.round (f : Fmt) (flush : Bool) (rm : Rm) (neg : Bool) (n d : Nat) (e : Int) : Nat × Flags :=
  let ex := floorLog n d + e
  let quant := fun (q : Int) => rm.quotient neg (n * 2 ^ (e - q).toNat) (d * 2 ^ (q - e).toNat)
  let low : Int := 1 - f.bias
  let r := quant (ex - f.mw)
  let full := r.1 == 2 ^ (f.mw + 1)
  if ex < low && !(ex + 1 == low && full) then
    if flush then (f.sign neg, fUf ||| fNx ||| fFz)
    else
      let t := quant (low - f.mw)
      (f.sign neg + t.1, flagsIf t.2 (fUf ||| fNx))
  else
    let m := if full then 2 ^ f.mw else r.1
    let field := ((if full then ex + 1 else ex) + f.bias).toNat
    if f.topField < field || (field == f.topField && (2 ^ f.mw + f.topFrac < m ||
        (2 ^ f.mw + f.topFrac == m && r.2 && rm.stopsShort neg))) then
      (if rm.stopsShort neg then f.largest neg else f.inf neg, fOf ||| fNx)
    else (f.sign neg + field * 2 ^ f.mw + (m - 2 ^ f.mw), flagsIf r.2 fNx)

/-- The same, with a zero result of a given sign. -/
def Fmt.value (f : Fmt) (flush : Bool) (rm : Rm) (neg : Bool) (n d : Nat) (e : Int) : Nat × Flags :=
  if n = 0 then (f.sign neg, 0) else f.round flush rm neg n d e

/-- A NaN carried from a format to another: sign and the top of the payload kept, quiet (R70, R94). -/
def Fmt.carryNan (f g : Fmt) (neg : Bool) (frac : Nat) : Nat :=
  if g.top = .oneNan then g.sign neg + (2 ^ (g.ew + g.mw) - 1)
  else
    let quiet := frac ||| 2 ^ (f.mw - 1)
    let frac' := if f.mw ≤ g.mw then quiet * 2 ^ (g.mw - f.mw) else quiet / 2 ^ (f.mw - g.mw)
    if frac' = 0 then g.dnan else g.sign neg + (2 ^ g.ew - 1) * 2 ^ g.mw + frac'

/-- The NaN that an operation on these operands gives, if any operand is one: from the first (R70). -/
def Fmt.firstNan (f : Fmt) : List Fp → Option Nat
  | [] => none
  | .nan neg _ frac :: _ => some (f.carryNan f neg frac)
  | _ :: r => f.firstNan r

/-- iv of signalling operands (R70). -/
def sigFlags (xs : List Fp) : Flags := flagsIf (xs.any Fp.signals) fIv

/-- The sum of two signed magnitudes, each ±m × 2^e, rounded once; the sign of an exact zero (R72). -/
def Fmt.sum (f : Fmt) (flush : Bool) (rm : Rm) (na : Bool) (ma : Nat) (ea : Int) (nb : Bool) (mb : Nat) (eb : Int) :
    Nat × Flags :=
  let e := min ea eb
  let a : Int := (ma * 2 ^ (ea - e).toNat : Nat)
  let b : Int := (mb * 2 ^ (eb - e).toNat : Nat)
  let t := (if na then -a else a) + (if nb then -b else b)
  if t = 0 then (f.sign (if ma = 0 && mb = 0 && na == nb then na else rm == .rdn), 0)
  else f.round flush rm (t < 0) t.natAbs 1 e

/-! ### Operations (R102, R103, R195) -/

/-- An operand with the sign of its number inverted; a NaN keeps its own. -/
def Fp.neg : Fp → Fp
  | .inf n => .inf !n
  | .num n m e => .num (!n) m e
  | x => x

/-- a + b of operands already read. -/
def Fmt.addFp (f : Fmt) (flush : Bool) (rm : Rm) (a b : Fp) : Nat × Flags :=
  match f.firstNan [a, b] with
  | some x => (x, sigFlags [a, b])
  | none =>
    match a, b with
    | .inf na, .inf nb => if na = nb then (f.inf na, 0) else (f.dnan, fIv)
    | .inf na, _ => (f.inf na, 0)
    | _, .inf nb => (f.inf nb, 0)
    | .num na ma ea, .num nb mb eb => f.sum flush rm na ma ea nb mb eb
    | _, _ => (f.dnan, 0)

/-- a × b + c of operands already read. -/
def Fmt.fmaFp (f : Fmt) (flush : Bool) (rm : Rm) (a b c : Fp) : Nat × Flags :=
  let bad := match a, b with
    | .inf _, .num _ m _ | .num _ m _, .inf _ => m == 0
    | _, _ => false
  match f.firstNan [a, b, c] with
  | some x => (x, sigFlags [a, b, c] ||| flagsIf bad fIv)
  | none =>
    if bad then (f.dnan, fIv)
    else
      let negOf := fun (x : Fp) => match x with | .inf n | .num n _ _ | .nan n _ _ => n
      let np := negOf a != negOf b
      match a, b, c with
      | .num _ ma ea, .num _ mb eb, .num nc mc ec => f.sum flush rm np (ma * mb) (ea + eb) nc mc ec
      | .num _ _ _, .num _ _ _, .inf nc => (f.inf nc, 0)
      | _, _, .inf nc => if np = nc then (f.inf nc, 0) else (f.dnan, fIv)
      | _, _, _ => (f.inf np, 0)

/-- a × b of operands already read. -/
def Fmt.mulFp (f : Fmt) (flush : Bool) (rm : Rm) (a b : Fp) : Nat × Flags :=
  match f.firstNan [a, b] with
  | some x => (x, sigFlags [a, b])
  | none =>
    match a, b with
    | .num na ma ea, .num nb mb eb => f.value flush rm (na != nb) (ma * mb) 1 (ea + eb)
    | .inf na, .num nb m _ | .num na m _, .inf nb => if m = 0 then (f.dnan, fIv) else (f.inf (na != nb), 0)
    | .inf na, .inf nb => (f.inf (na != nb), 0)
    | _, _ => (f.dnan, 0)

/-- a / b of operands already read (R102). -/
def Fmt.divFp (f : Fmt) (flush : Bool) (rm : Rm) (a b : Fp) : Nat × Flags :=
  match f.firstNan [a, b] with
  | some x => (x, sigFlags [a, b])
  | none =>
    match a, b with
    | .num na ma ea, .num nb mb eb =>
      if mb = 0 then if ma = 0 then (f.dnan, fIv) else (f.inf (na != nb), fDz)
      else f.value flush rm (na != nb) ma mb (ea - eb)
    | .inf na, .num nb _ _ => (f.inf (na != nb), 0)
    | .num na _ _, .inf nb => (f.sign (na != nb), 0)
    | _, _ => (f.dnan, fIv)

/-- The integer square root, by bits from 2^k down. -/
def isqrt (n : Nat) : Nat → Nat → Nat
  | 0, r => r
  | k + 1, r => let t := r + 2 ^ k; isqrt n k (if t * t ≤ n then t else r)

/-- Bits kept of a root, and the number of an exact square root of m × 2^(2k) with a last bit for the rest. -/
def rootBits : Nat := 72
def rootOf (n : Nat) (exact : Nat → Bool) : Nat :=
  let r := isqrt n (Nat.log2 n / 2 + 1) 0
  2 * r + (!exact r).toNat

/-- √a of an operand already read. -/
def Fmt.sqrtFp (f : Fmt) (flush : Bool) (rm : Rm) (a : Fp) : Nat × Flags :=
  match a with
  | .nan neg sig frac => (f.carryNan f neg frac, flagsIf sig fIv)
  | .inf neg => if neg then (f.dnan, fIv) else (f.inf false, 0)
  | .num neg m e =>
    if m = 0 then (f.sign neg, 0)
    else if neg then (f.dnan, fIv)
    else
      let m := if e % 2 = 0 then m else 2 * m
      let e := if e % 2 = 0 then e else e - 1
      let n := m * 4 ^ rootBits
      f.round flush rm false (rootOf n fun r => r * r == n) 1 (e / 2 - rootBits - 1)

/-- 1 / √a of an operand already read (R102). -/
def Fmt.rsqFp (f : Fmt) (flush : Bool) (rm : Rm) (a : Fp) : Nat × Flags :=
  match a with
  | .nan neg sig frac => (f.carryNan f neg frac, flagsIf sig fIv)
  | .inf neg => if neg then (f.dnan, fIv) else (f.sign false, 0)
  | .num neg m e =>
    if m = 0 then (f.inf neg, fDz)
    else if neg then (f.dnan, fIv)
    else
      let m := if e % 2 = 0 then m else 2 * m
      let e := if e % 2 = 0 then e else e - 1
      let k := rootBits + f.mw + 2
      f.round flush rm false (rootOf (4 ^ k / m) fun r => m * r * r == 4 ^ k) 1 (-(e / 2) - k - 1)

/-- 1 / a of an operand already read (R102). -/
def Fmt.rcpFp (f : Fmt) (flush : Bool) (rm : Rm) (a : Fp) : Nat × Flags :=
  match a with
  | .nan neg sig frac => (f.carryNan f neg frac, flagsIf sig fIv)
  | .inf neg => (f.sign neg, 0)
  | .num neg m e => if m = 0 then (f.inf neg, fDz) else f.round flush rm neg 1 m (-e)

/-! ### Powers and logarithms of 2

Both are irrational but where the rules below catch them, and are computed to 320 fraction bits with a last bit that
stands for the rest (log entry 10). -/

/-- Fraction bits. -/
def fracBits : Nat := 320

/-- The sum of z^(2k+1) / (2k+1), times 2^320, for z = n / d below 1/2: the inverse hyperbolic tangent. -/
def atanhSum (zz : Nat) : Nat → Nat → Nat → Nat → Nat
  | 0, _, _, acc => acc
  | k + 1, i, t, acc => atanhSum zz k (i + 2) (t * zz / 2 ^ fracBits) (acc + t / i)
def atanhFrac (n d : Nat) : Nat :=
  let z := n * 2 ^ fracBits / d
  atanhSum (z * z / 2 ^ fracBits) 110 1 z 0

/-- ln 2 and ln (n / d) for 1 ≤ n / d < 2, times 2^320. -/
def lnTwo : Nat := 2 * atanhFrac 1 3
def lnOf (n d : Nat) : Nat := 2 * atanhFrac (n - d) (n + d)

/-- e^y for y = x / 2^320 below 1, times 2^320, by its series. -/
def expSum (x : Nat) : Nat → Nat → Nat → Nat → Nat
  | 0, _, _, acc => acc
  | k + 1, i, t, acc => expSum x k (i + 1) (t * x / 2 ^ fracBits / i) (acc + t)
def expFrac (x : Nat) : Nat := expSum x 80 1 (2 ^ fracBits) 0

/-- Precision kept of the two series before the last bit. -/
def keptBits : Nat := 280

/-- 2^a of an operand already read (R102). -/
def Fmt.exp2Fp (f : Fmt) (flush : Bool) (rm : Rm) (a : Fp) : Nat × Flags :=
  match a with
  | .nan neg sig frac => (f.carryNan f neg frac, flagsIf sig fIv)
  | .inf neg => (if neg then f.sign false else f.inf false, 0)
  | .num neg m e =>
    if m = 0 then f.round flush rm false 1 1 0
    else if 14 ≤ floorLog m 1 + e then f.round flush rm false 3 1 (if neg then -20000 else 20000)
    else if 0 ≤ e then f.round flush rm false 1 1 (if neg then -(m * 2 ^ e.toNat : Nat) else (m * 2 ^ e.toNat : Nat))
    else
      let d : Nat := 2 ^ (-e).toNat
      let v : Int := if neg then -(m : Int) else m
      let whole := v / (d : Int)
      let part := (v % (d : Int)).toNat
      if part = 0 then f.round flush rm false 1 1 whole
      else
        let y : Nat := part * lnTwo / d
        f.round flush rm false (2 * (expFrac y / 2 ^ (fracBits - keptBits)) + 1) 1 (whole - keptBits - 1)

/-- log₂ a of an operand already read (R102). -/
def Fmt.log2Fp (f : Fmt) (flush : Bool) (rm : Rm) (a : Fp) : Nat × Flags :=
  match a with
  | .nan neg sig frac => (f.carryNan f neg frac, flagsIf sig fIv)
  | .inf neg => if neg then (f.dnan, fIv) else (f.inf false, 0)
  | .num neg m e =>
    if m = 0 then (f.inf true, fDz)
    else if neg then (f.dnan, fIv)
    else
      let k := Nat.log2 m
      let ex : Int := e + k
      if m = 2 ^ k then f.value flush rm (ex < 0) ex.natAbs 1 0
      else
        let l := lnOf m (2 ^ k) * 2 ^ fracBits / lnTwo / 2 ^ (fracBits - keptBits)
        let t : Int := ex * 2 ^ keptBits + l
        let n : Int := 2 * t + 1
        f.round flush rm (n < 0) n.natAbs 1 (-(keptBits : Int) - 1)

/-! ### Order -/

/-- Of numbers and infinities, whether a is below b, with −0 below +0 where `zeros` asks for it. -/
def Fp.below (zeros : Bool) (a b : Fp) : Bool :=
  match a, b with
  | .inf na, .inf nb => na && !nb
  | .inf na, .num _ _ _ => na
  | .num _ _ _, .inf nb => !nb
  | .num na ma ea, .num nb mb eb =>
    if ma = 0 && mb = 0 then zeros && na && !nb
    else
      let e := min ea eb
      let x : Int := (ma * 2 ^ (ea - e).toNat : Nat)
      let y : Int := (mb * 2 ^ (eb - e).toNat : Nat)
      (if na then -x else x) < (if nb then -y else y)
  | _, _ => false

/-- A code written back from an operand that has been read: a flushed operand is a zero. -/
def Fmt.asRead (f : Fmt) (flush : Bool) (x : Nat) : Nat :=
  if flush && f.isSub x then f.sign (x / 2 ^ (f.ew + f.mw) % 2 == 1) else x

/-- minimumNumber and maximumNumber (R103). -/
def Fmt.extreme (f : Fmt) (flush max : Bool) (x y : Nat) : Nat × Flags :=
  let a := f.read flush x
  let b := f.read flush y
  let fl := a.2 ||| b.2 ||| sigFlags [a.1, b.1]
  let bits :=
    if a.1.isNan && b.1.isNan then (f.firstNan [a.1]).getD f.dnan
    else if a.1.isNan then f.asRead flush y
    else if b.1.isNan then f.asRead flush x
    else if max then if Fp.below true a.1 b.1 then f.asRead flush y else f.asRead flush x
    else if Fp.below true b.1 a.1 then f.asRead flush y else f.asRead flush x
  (bits, fl)

/-- The numerical tests of R93 and R199: equal, below, at or below, unordered. -/
inductive Test where
  | eq | ne | lt | le | un
  deriving DecidableEq, Repr

def Fmt.test (f : Fmt) (flush : Bool) (k : Test) (x y : Nat) : Bool × Flags :=
  let a := f.read flush x
  let b := f.read flush y
  let un := a.1.isNan || b.1.isNan
  let fl := a.2 ||| b.2 ||| (match k with
    | .lt | .le => flagsIf un fIv
    | _ => sigFlags [a.1, b.1])
  let lt := Fp.below false a.1 b.1
  let gt := Fp.below false b.1 a.1
  let r := match k with
    | .eq => !un && !lt && !gt
    | .ne => un || lt || gt
    | .lt => !un && lt
    | .le => !un && !gt
    | .un => un
  (r, fl)

/-! ### Operations on codes -/

/-- An operation on one, two or three codes, with the flags of its operands' flushing. -/
def Fmt.un (f : Fmt) (flush : Bool) (op : Fp → Nat × Flags) (x : Nat) : Nat × Flags :=
  let a := f.read flush x
  let r := op a.1
  (r.1, r.2 ||| a.2)
def Fmt.bin (f : Fmt) (flush : Bool) (op : Fp → Fp → Nat × Flags) (x y : Nat) : Nat × Flags :=
  let a := f.read flush x
  let b := f.read flush y
  let r := op a.1 b.1
  (r.1, r.2 ||| a.2 ||| b.2)
def Fmt.tri (f : Fmt) (flush : Bool) (op : Fp → Fp → Fp → Nat × Flags) (x y z : Nat) : Nat × Flags :=
  let a := f.read flush x
  let b := f.read flush y
  let c := f.read flush z
  let r := op a.1 b.1 c.1
  (r.1, r.2 ||| a.2 ||| b.2 ||| c.2)

/-! ### Conversions (R94 to R98) -/

/-- A k-bit code as a signed number, and its range. -/
def sext (k x : Nat) : Int := if x % 2 ^ k < 2 ^ (k - 1) then (x % 2 ^ k : Nat) else ((x % 2 ^ k : Nat) : Int) - 2 ^ k
def wrap (k : Nat) (x : Int) : Nat := (x % 2 ^ k).toNat
def clampS (k : Nat) (x : Int) : Int := max (-(2 ^ (k - 1) : Int)) (min (2 ^ (k - 1) - 1) x)

/-- Bits of an integer format code (R81). -/
def intBits (code : Nat) : Option Nat :=
  if code = 6 then some 8 else if code = 0xD then some 32 else if code = 0xE then some 64 else none

/-- A rounded value in FP8: with sat, an overflow gives the largest finite value and sets nx alone (R94). -/
def satFp8 (g : Fmt) (code : Nat) (sat neg : Bool) (r : Nat × Flags) : Nat × Flags :=
  if (code = 4 || code = 5) && sat && r.2 &&& fOf != 0 then (g.largest neg, (r.2 &&& ~~~fOf) ||| fNx) else r

/-- Between binary formats (R94). An infinity that E4M3 takes without sat becomes its default NaN, which comes from no
input NaN (R69, log entry 33). -/
def convertFp (f g : Fmt) (code : Nat) (flush : Bool) (rm : Rm) (sat : Bool) (x : Nat) : Nat × Flags :=
  let a := f.read flush x
  let r : Nat × Flags := match a.1 with
    | .nan neg sig frac => (f.carryNan g neg frac, flagsIf sig fIv)
    | .inf neg =>
      if (code = 4 || code = 5) && sat then (g.largest neg, fNx ||| flagsIf (code = 4) fIv)
      else (if code = 4 then g.dnan else g.inf neg, flagsIf (code = 4) fIv)
    | .num neg m e => satFp8 g code sat neg (g.value flush rm neg m 1 e)
  (r.1, r.2 ||| a.2)

/-- From floating point to a k-bit integer (R95). -/
def convertToInt (f : Fmt) (k : Nat) (flush : Bool) (rm : Rm) (sat : Bool) (x : Nat) : Nat × Flags :=
  let a := f.read flush x
  let bad := flagsIf (!sat) fIv
  let r : Nat × Flags := match a.1 with
    | .nan _ _ _ => (0, bad)
    | .inf neg => (wrap k (if neg then -(2 ^ (k - 1) : Int) else 2 ^ (k - 1) - 1), bad)
    | .num neg m e =>
      let q := rm.quotient neg (m * 2 ^ e.toNat) (2 ^ (-e).toNat)
      let v : Int := if neg then -(q.1 : Int) else q.1
      let w := clampS k v
      (wrap k w, if w = v then flagsIf q.2 fNx else bad)
  (r.1, r.2 ||| a.2)

/-- One element converted between two format codes (R94 to R96). An integer that overflows a floating-point format sets of; where the
result would be an infinity and the format has none, sat makes it the largest finite value (R98). -/
def convert (src dst : Nat) (flush : Bool) (rm : Rm) (sat : Bool) (x : Nat) : Nat × Flags :=
  match fmtOf src, fmtOf dst, intBits src, intBits dst with
  | some f, some g, _, _ => convertFp f g dst flush rm sat x
  | some f, none, _, some k => convertToInt f k flush rm sat x
  | none, some g, some k, _ =>
    let v := sext k x
    let r := g.value flush rm (v < 0) v.natAbs 1 0
    if g.top == .oneNan && sat && r.2 &&& fOf != 0 then (g.largest (v < 0), r.2) else r
  | none, none, some k, some j => (wrap j (if sat then clampS j (sext k x) else sext k x), 0)
  | _, _, _, _ => (0, 0)

end Sys2Proof.Machine
end

