-- ==== Sys2Proof/Machine/Decimal.lean ====
section
/-! DEFINITION. decimal64 arithmetic and its flags (R90 to R93, R97). -/

namespace Sys2Proof.Machine

/-- What a decimal64 code stands for: a NaN with sign, whether it signals, and payload; an infinity; or
±c × 10^q (R90). -/
inductive Dec where
  | nan (neg sig : Bool) (payload : Nat)
  | inf (neg : Bool)
  | num (neg : Bool) (c : Nat) (q : Int)
  deriving DecidableEq, Repr

def Dec.isNan : Dec → Bool
  | .nan _ _ _ => true
  | _ => false
def Dec.signals : Dec → Bool
  | .nan _ b _ => b
  | _ => false

/-- A coefficient above 10^16 − 1, and a payload of 10^15 or more, are read as 0 (R90). -/
def coefficient (c : Nat) : Nat := if c < 10 ^ 16 then c else 0
def payloadOf (p : Nat) : Nat := if p < 10 ^ 15 then p else 0

/-- Reads a code (R90). -/
def Dec.unpack (x : Nat) : Dec :=
  let neg := x / 2 ^ 63 % 2 == 1
  if x / 2 ^ 61 % 4 ≠ 3 then .num neg (coefficient (x % 2 ^ 53)) ((x / 2 ^ 53 % 2 ^ 10 : Nat) - 398)
  else if x / 2 ^ 59 % 4 ≠ 3 then .num neg (coefficient (2 ^ 53 + x % 2 ^ 51)) ((x / 2 ^ 51 % 2 ^ 10 : Nat) - 398)
  else if x / 2 ^ 58 % 2 = 0 then .inf neg
  else .nan neg (x / 2 ^ 57 % 2 == 1) (payloadOf (x % 2 ^ 50))

/-- The canonical code of a value whose exponent lies in −398 to 369 (R90). -/
def decNum (neg : Bool) (c : Nat) (q : Int) : Nat :=
  let e := (q + 398).toNat
  neg.toNat * 2 ^ 63 + (if c < 2 ^ 53 then e * 2 ^ 53 + c else 3 * 2 ^ 61 + e * 2 ^ 51 + (c - 2 ^ 53))
def decInf (neg : Bool) : Nat := neg.toNat * 2 ^ 63 + 0x7800000000000000
def decNan (neg : Bool) (payload : Nat) : Nat := neg.toNat * 2 ^ 63 + 0x7C00000000000000 + payload
def decDefault : Nat := 0x7C00000000000000

/-- The floor of the base-10 logarithm of n / d. -/
def floorLog10 (n d : Nat) : Int :=
  let atLeast := fun (k : Int) => d * 10 ^ k.toNat ≤ n * 10 ^ (-k).toNat
  let g := floorLog n d * 30103 / 100000
  if atLeast (g + 1) then g + 1 else if atLeast g then g else g - 1

/-- A coefficient with zeros at its end, its exponent raised towards a limit. -/
def raiseExp : Nat → Nat → Int → Int → Nat × Int
  | 0, c, q, _ => (c, q)
  | k + 1, c, q, lim => if q < lim && c % 10 = 0 then raiseExp k (c / 10) (q + 1) lim else (c, q)

/-- An exact n / d × 10^e rounded to 16 digits, with its cohort chosen by the preferred exponent (R91, R92); overflow as in
binary (R92, log entry 14). -/
def decRound (rm : Rm) (neg : Bool) (n d : Nat) (e pref : Int) : Nat × Flags :=
  if n = 0 then (decNum neg 0 (max (-398) (min 369 pref)), 0)
  else
    let k := floorLog10 n d + e
    let q := max (-398) (k - 15)
    let r := rm.quotient neg (n * 10 ^ (e - q).toNat) (d * 10 ^ (q - e).toNat)
    let c := if r.1 = 10 ^ 16 then 10 ^ 15 else r.1
    let q := if r.1 = 10 ^ 16 then q + 1 else q
    if 369 < q || (q == 369 && c == 10 ^ 16 - 1 && r.2 && rm.stopsShort neg) then
      (if rm.stopsShort neg then decNum neg (10 ^ 16 - 1) 369 else decInf neg, fOf ||| fNx)
    else if r.2 then (decNum neg c q, fNx ||| flagsIf (k < -383) fUf)
    else
      let m := raiseExp 16 c q (min 369 pref)
      (decNum neg m.1 m.2, 0)

/-- The NaN of an operation whose operands hold one: from the first, quiet (R90). -/
def decFirstNan : List Dec → Option Nat
  | [] => none
  | .nan neg _ p :: _ => some (decNan neg p)
  | _ :: r => decFirstNan r
def decSig (xs : List Dec) : Flags := flagsIf (xs.any Dec.signals) fIv

/-- Operations on two codes; `num` acts where neither is a NaN. -/
def decBin (num : Dec → Dec → Nat × Flags) (x y : Nat) : Nat × Flags :=
  let a := Dec.unpack x
  let b := Dec.unpack y
  match decFirstNan [a, b] with
  | some v => (v, decSig [a, b])
  | none => num a b

/-- The sum of two numbers or infinities (R91, R92). -/
def Dec.add (rm : Rm) (a b : Dec) : Nat × Flags :=
  match a, b with
  | .num na ca qa, .num nb cb qb =>
    let q := min qa qb
    let x : Int := (ca * 10 ^ (qa - q).toNat : Nat)
    let y : Int := (cb * 10 ^ (qb - q).toNat : Nat)
    let t := (if na then -x else x) + (if nb then -y else y)
    let neg := if t = 0 then (if na == nb then na else rm == .rdn) else decide (t < 0)
    decRound rm neg t.natAbs 1 q q
  | .inf na, .inf nb => if na = nb then (decInf na, 0) else (decDefault, fIv)
  | .inf na, _ => (decInf na, 0)
  | _, .inf nb => (decInf nb, 0)
  | _, _ => (decDefault, 0)

def Dec.neg : Dec → Dec
  | .num n c q => .num (!n) c q
  | .inf n => .inf !n
  | x => x

/-- The product (R91, R92). -/
def Dec.mul (rm : Rm) (a b : Dec) : Nat × Flags :=
  match a, b with
  | .num na ca qa, .num nb cb qb => decRound rm (na != nb) (ca * cb) 1 (qa + qb) (qa + qb)
  | .inf na, .num nb c _ | .num na c _, .inf nb => if c = 0 then (decDefault, fIv) else (decInf (na != nb), 0)
  | .inf na, .inf nb => (decInf (na != nb), 0)
  | _, _ => (decDefault, 0)

/-- The quotient (R91, R92). -/
def Dec.div (rm : Rm) (a b : Dec) : Nat × Flags :=
  match a, b with
  | .num na ca qa, .num nb cb qb =>
    if cb = 0 then if ca = 0 then (decDefault, fIv) else (decInf (na != nb), fDz)
    else decRound rm (na != nb) ca cb (qa - qb) (qa - qb)
  | .inf na, .num nb _ _ => (decInf (na != nb), 0)
  | .num na _ _, .inf nb => (decNum (na != nb) 0 (-398), 0)
  | _, _ => (decDefault, fIv)

/-- a with the exponent of b (R91). -/
def Dec.quantize (rm : Rm) (a b : Dec) : Nat × Flags :=
  match a, b with
  | .num na ca qa, .num _ _ qb =>
    let r := rm.quotient na (ca * 10 ^ (qa - qb).toNat) (10 ^ (qb - qa).toNat)
    if 10 ^ 16 ≤ r.1 then (decDefault, fIv) else (decNum na r.1 qb, flagsIf r.2 fNx)
  | .inf na, .inf _ => (decInf na, 0)
  | _, _ => (decDefault, fIv)

/-- Whether a is below b, of numbers and infinities. -/
def Dec.below (a b : Dec) : Bool :=
  match a, b with
  | .inf na, .inf nb => na && !nb
  | .inf na, .num _ _ _ => na
  | .num _ _ _, .inf nb => !nb
  | .num na ca qa, .num nb cb qb =>
    let q := min qa qb
    let x : Int := (ca * 10 ^ (qa - q).toNat : Nat)
    let y : Int := (cb * 10 ^ (qb - q).toNat : Nat)
    (if na then -x else x) < (if nb then -y else y)
  | _, _ => false

/-- The decimal compares (R93). -/
def decTest (k : Test) (x y : Nat) : Bool × Flags :=
  let a := Dec.unpack x
  let b := Dec.unpack y
  let un := a.isNan || b.isNan
  let fl := match k with
    | .lt | .le => flagsIf un fIv
    | _ => decSig [a, b]
  let r := match k with
    | .eq => !a.below b && !b.below a
    | .ne => a.below b || b.below a
    | .lt => a.below b
    | .le => !b.below a
    | .un => false
  (!un && r, fl)

/-- Binary to decimal, preferred exponent 0 (R91, R97). -/
def toDecimal (f : Fmt) (rm : Rm) (x : Nat) : Nat × Flags :=
  match f.unpack x with
  | .nan neg sig frac => (decNan neg (payloadOf (frac % 2 ^ (f.mw - 1))), flagsIf sig fIv)
  | .inf neg => (decInf neg, 0)
  | .num neg m e => decRound rm neg (m * 2 ^ e.toNat) (2 ^ (-e).toNat) 0 0

/-- Decimal to binary (R97). -/
def ofDecimal (f : Fmt) (rm : Rm) (x : Nat) : Nat × Flags :=
  match Dec.unpack x with
  | .nan neg sig p =>
    (f.sign neg + (2 ^ f.ew - 1) * 2 ^ f.mw + 2 ^ (f.mw - 1) + p % 2 ^ (f.mw - 1), flagsIf sig fIv)
  | .inf neg => (f.inf neg, 0)
  | .num neg c q => f.value false rm neg (c * 10 ^ q.toNat) (10 ^ (-q).toNat) 0

end Sys2Proof.Machine
end

