-- ==== Sys2Proof/Machine/CheckV.lean ====
section
/-! DEFINITION. What the V and X slots' operations check and wait for at an issue (R28, R190 to R221). -/

namespace Sys2Proof.Machine

/-- Bytes of an element of a type (R190). -/
def tyWidth (ty : BitVec 3) : Nat :=
  if ty = 0 || ty = 4 then 4 else if ty = 1 || ty = 2 then 2 else if ty = 6 then 1 else 8

/-- Elements of a register of a type (R190). -/
def tyCount (ty : BitVec 3) : Nat := 1024 / tyWidth ty

/-- The mask of active elements of an operation: all with me = 0 (R191). -/
def State.active (s : State) (c : Ctx) (m : BitVec 4) (me : Bool) : MReg :=
  if me then s.readM c m else BitVec.allOnes 1024

/-- Element i of a register of k-bit elements (R190). -/
def elem (v : VReg) (k i : Nat) : Nat := (v.toNat >>> (k * i)) % 2 ^ k

/-- Staging ranges of a VLD or VST (R205). -/
def vmRange (addr : Word) (n : BitVec 2) : Nat × Nat := (addr.toNat, 1024 * (n.toNat + 1))

/-- The checks of VLD and VST on their generator: 0x05, then 0x08 for any byte of the run (R205). -/
def State.vmFault (s : State) (c : Ctx) (f : VM) : Option Nat :=
  match s.genFault c f.g (· == 0) 64 with
  | some e => some e
  | none =>
    let (a, addr) := s.gen c f.g
    let last := addr.toNat + 1024 * (f.n.toNat + 1) - 1
    if a.limit.toNat ≤ last || 0x100000 ≤ last then some 0x08 else none

/-- The lanes of a gather, scatter or vector atomic, active and not skipped: lane and address (R206, R207). -/
def State.lanes (s : State) (c : Ctx) (f : VM) : List (Nat × Nat) :=
  let w := tyWidth f.ty
  let act := s.active c f.m f.me
  let x := s.readV c f.x.toNat
  let base := (s.gen c f.g).2.toNat
  ((List.range (tyCount f.ty)).filter fun i => act.getLsbD i && elem x 32 i != 0xFFFFFFFF).map
    fun i => (i, base + elem x 32 i * w)

/-- The lanes out of range, as an element mask: at the generator's limit, or the end of staging in space 0, and the
end of the address space in space 2 (R206, R207). -/
def State.badLanes (s : State) (c : Ctx) (f : VM) : MReg :=
  let a := (s.gen c f.g).1
  let lim := min a.limit.toNat (if a.space = 2 then 2 ^ 52 else 0x100000)
  (s.lanes c f).foldl
    (fun m e => if lim < e.2 + tyWidth f.ty then m ||| BitVec.twoPow 1024 e.1 else m) 0

/-- The checks on the generator of a gather, scatter or vector atomic, made at the issue (R115, R206, R207). -/
def State.laneGen (s : State) (c : Ctx) (f : VM) (space : Nat) : Option Nat :=
  s.genFault c f.g (· == space) (tyWidth f.ty)

/-- The range trap of a gather, scatter or vector atomic at decode. The checks on its generator, which are issue faults,
come first in the instruction's own order, so a lane is looked at only where they pass (R206, R207, log entry 31). -/
def State.laneFault (s : State) (c : Ctx) (f : VM) (space : Nat) : Option TrapReq :=
  let bad := s.badLanes c f
  if (s.laneGen c f space).isNone && bad != 0 then some { code := 0x41, slot := c.slot, mask := bad } else none

/-- A determinism check of a vector atomic (R130, R207). -/
def State.determ (s : State) (t : Nat) : Bool :=
  match (s.tile t).task with | some k => k.determ | none => false

/-- The lanes a DEFER appends: set bits of mask [255:0] (R210). -/
def deferCount (m : MReg) : Nat := (List.range 256).countP fun i => m.getLsbD i

/-- The decode traps of the deferral instructions (R210, R211). -/
def State.dqFault (s : State) (c : Ctx) (i : Instr) : Option Nat :=
  match (s.tile c.t).task with
  | none => none
  | some k =>
    let e := (s.tile c.t).eng
    match i with
    | .defer f =>
      let q := vget { } e.dq f.q.toNat
      let wd := f.n.toNat + 1
      let n := q.entries.length
      if k.dqSize f.q.toNat = 0 then some 0x43
      else if 0 < n && q.width ≠ wd then some 0x43
      else if k.dqOcc f.q.toNat < (n + deferCount (s.readM c f.m)) * 4 * wd then some 0x49
      else none
    | .drain f =>
      let q := vget { } e.dq f.q.toNat
      if k.dqSize f.q.toNat = 0 || q.entries.length < 256 || q.width ≠ f.n.toNat + 1 then some 0x43 else none
    | .drainp f =>
      let q := vget { } e.dq f.q.toNat
      if k.dqSize f.q.toNat = 0 || (!q.entries.isEmpty && q.width ≠ f.n.toNat + 1) then some 0x43 else none
    | _ => none

/-- Group size of an INT4G operand of XUNP4 (R49, R217). -/
def unpGroup (gs : Nat) : Nat := 32 * 2 ^ gs

/-- Whether the trailer of an INT4G block at a byte offset of a register is malformed (R82). -/
def badTrailer (v : VReg) (off g : Nat) : Bool :=
  elem v 8 (off + g / 2 + 2) / 16 != 0 || elem v 8 (off + g / 2 + 3) != 0

/-- The elements of the malformed blocks of an XUNP4 operand (R217). -/
def unpBad (v : VReg) (gs : Nat) : MReg :=
  let g := unpGroup gs
  (List.range (512 / g)).foldl
    (fun m b => if badTrailer v (b * (g / 2 + 4)) g then
        (List.range g).foldl (fun m e => m ||| BitVec.twoPow 1024 (b * g + e)) m else m) 0

/-- The decode traps of a V or X operation beyond its fields: decimal in open mode, then its own (R58). -/
def vectorDecode (s : State) (c : Ctx) (i : Instr) : Option TrapReq :=
  let one := fun (e : Option Nat) => e.map (trapOf c.slot)
  let open_ := fun (_ : Unit) => if (s.tile c.t).sys.gm then none else some (trapOf c.slot 0x0A)
  match i with
  | .dadd _ | .dsub _ | .dmul _ | .ddiv _ | .dqua _ | .dcmpeq _ | .dcmplt _ | .dcmple _ | .dcvtb _ | .dcvtd _ =>
    open_ ()
  | .vgath f | .vscat f => s.laneFault c f 0
  | .vstadd f | .vstmin f | .vstmax f | .vstfmin f | .vstfmax f => s.laneFault c f 2
  | .vstfadd f | .vldadd f | .vldmin f | .vldmax f =>
    (s.laneFault c f 2).orElse fun _ =>
      if s.determ c.t && (s.laneGen c f 2).isNone then some (trapOf c.slot 0x2C) else none
  | .defer _ | .drain _ | .drainp _ => one (s.dqFault c i)
  | .xunp4 f =>
    let bad := unpBad (s.readV c f.a.toNat) (f.low.toNat / 64)
    if bad != 0 then some { code := 0x44, slot := c.slot, mask := bad } else none
  | .xdrf f =>
    match (s.tile c.t).task with
    | none => none
    | some k => if k.dfOcc f.f.toNat = 0 || k.qOcc f.q.toNat = 0 then some (trapOf c.slot 0x43) else none
  | _ => none

/-- Latency of a binary operation by type, and its interval (R192). -/
def fpLat (ty : BitVec 3) : Nat × Nat := if ty = 3 then (16, 2) else (8, 1)
def divLat (ty : BitVec 3) : Nat × Nat := if ty = 3 then (60, 8) else (30, 4)
def redLat (ty : BitVec 3) : Nat × Nat := if ty = 3 then (96, 8) else (48, 4)

/-- Latency and issue interval of a V or X operation in vector-clock cycles (R192, R212). -/
def vectorTime : Instr → Nat × Nat
  | .vadd f | .vsub f | .vmul f | .vfma f | .vfms f | .vfnma f | .vmin f | .vmax f | .vabs f | .vneg f => fpLat f.ty
  | .vdiv f | .vsqrt f | .vrcp f | .vrsq f | .vexp2 f | .vlog2 f => divLat f.ty
  | .vrsum f | .vrmax f | .vrmin f | .vscan f => redLat f.ty
  | .virsum _ => (12, 1)
  | .mand _ | .mor _ | .mxor _ | .mnot _ | .mset _ => (2, 1)
  | .vcvt f => if f.src = 0xC || f.dst = 0xC then (16, 2) else (8, 1)
  | .vqnt _ => (12, 2)
  | .vld _ => (9, 1)
  | .vst _ => (7, 1)
  | .vgath _ => (12, 1)
  | .vscat _ => (9, 1)
  | .vrng _ => (14, 1)
  | .defer _ | .drain _ | .drainp _ => (32, 4)
  | .dadd _ | .dsub _ | .dqua _ | .dcvtb _ | .dcvtd _ => (48, 8)
  | .dmul _ => (96, 8)
  | .ddiv _ => (160, 8)
  | .dcmpeq _ | .dcmplt _ | .dcmple _ => (16, 8)
  | .xunp4 _ => (12, 2)
  | .xpose _ => (10, 1)
  | .xcvt _ => (8, 1)
  | .xmx _ => (12, 1)
  | _ => (4, 1)

/-- The island cycle from which a V or X slot may issue again (R192). -/
def Seq.vectorFree (q : Seq) (slot : Nat) : Nat := if slot = 7 then q.xFree else vget 0 q.vFree (slot - 1)

/-- Whether an instruction is a vector atomic (R207). -/
def isVAtomic : Instr → Bool
  | .vstadd _ | .vstmin _ | .vstmax _ | .vstfadd _ | .vstfmin _ | .vstfmax _ | .vldadd _ | .vldmin _ | .vldmax _ => true
  | _ => false

/-- The NOPs of the V and X slots, with which nothing issues (R45). -/
def isVectorNop : Instr → Bool
  | .vNop | .xNop => true
  | _ => false

/-- Whether a V operation finds its unit inside an interval, or the vector atomic engine's list full; `before` are
the vector atomics of the same issue that come before it (R28, R282). -/
def State.vectorBusy (s : State) (c : Ctx) (i : Instr) (before : Nat) : Bool :=
  let x := s.tile c.t
  (!isVectorNop i && c.now < x.seq.vectorFree c.slot) || (isVAtomic i && 4 ≤ x.eng.vatomics.length + before)

/-- The staging bytes a V operation reads, with the cycle of the read (R205, R206, R278). A VST under a mask leaves
its inactive elements as they stand, which the early-read checker counts as a read. -/
def State.vectorReads (s : State) (c : Ctx) (i : Instr) : List (Nat × Nat) :=
  match i with
  | .vld f => [vmRange (s.gen c f.g).2 f.n]
  | .vgath f => (s.lanes c f).map fun e => (e.2, tyWidth f.ty)
  | _ => []
def State.maskedStores (s : State) (c : Ctx) (i : Instr) : List (Nat × Nat) :=
  match i with
  | .vst f =>
    if !f.me then [] else
    let w := tyWidth f.ty
    let act := s.readM c f.m
    let base := (s.gen c f.g).2.toNat
    (List.range (f.n.toNat + 1)).flatMap fun k =>
      ((List.range (tyCount f.ty)).filter fun j => !act.getLsbD j).map fun j => (base + 1024 * k + w * j, w)
  | _ => []

/-- The issue faults of a V or X operation (R205 to R207, R278, R305, R28). -/
def vectorFault (s : State) (c : Ctx) (i : Instr) (before : Nat) : Option TrapReq :=
  let own := match i with
    | .vld f | .vst f => s.vmFault c f
    | .vgath f | .vscat f => s.laneGen c f 0
    | .vstadd f | .vstmin f | .vstmax f | .vstfmin f | .vstfmax f | .vstfadd f | .vldadd f | .vldmin f | .vldmax f =>
      s.laneGen c f 2
    | _ => none
  let d := (s.tile c.t).divisor 2
  let read := fun (_ : Unit) => s.readFault c.t (readsAt (c.now + 2 * d) (s.vectorReads c i) ++ readsAt (c.now + 1) (s.maskedStores c i))
  let busy := fun (_ : Unit) =>
    if !(s.tile c.t).sys.gm && s.vectorBusy c i before then some 0x06 else none
  ((own.orElse read).orElse busy).map (trapOf c.slot)

/-- What a V or X operation waits for beyond its register sources: its interval, pending writes to the staging
bytes it reads, a full request list of the decoder, which ends at the latest with the yield count (R28, R193, R221,
R227). -/
def vectorStall (s : State) (c : Ctx) (i : Instr) (before : Nat) : Bool :=
  let x := s.tile c.t
  let reads := s.vectorReads c i
  (x.sys.gm && (s.vectorBusy c i before
      || x.writePending c.t (c.now + 2 * x.divisor 2) reads))
    || s.readStalls c.t (reads ++ s.maskedStores c i)
    || (match i with | .xdrf _ => 64 ≤ x.eng.drf.reqs.length | _ => false)

end Sys2Proof.Machine
end

