-- ==== Sys2Proof/Machine/Translate.lean ====
section
/-! DEFINITION. Launches by their serial, region tables, page-table entries, walks and translation (R252 to R257, R362). -/

namespace Sys2Proof.Machine

/-! ### Launches -/

/-- The stack of a tile (R5). -/
def stackOf (t : Nat) : Nat := t / 384

/-- A launch's record, by its serial. -/
def State.launch (s : State) (serial : Nat) : Option Launch := find serial s.launches

/-- The state with a launch changed. -/
def State.onLaunch (s : State) (serial : Nat) (f : Launch → Launch) : State :=
  match find serial s.launches with
  | some l => { s with launches := insertAt serial (f l) s.launches }
  | none => s

/-- The translation root of the task on a tile (R252). -/
def State.rootOf (s : State) (t : Nat) : Word :=
  match (s.tile t).task with
  | some k => match s.launch k.serial with | some l => l.sub.root | none => 0
  | none => 0

/-! ### Region tables (R362) -/

/-- Whether a valid entry of a stack's region table, or of any stack's, covers a frame with a bit set: 62 for a
secure region, 61 for a table region. -/
def State.regionHas (s : State) (stack : Option Nat) (tier frame bit : Nat) : Bool :=
  s.regions.any fun e =>
    let w0 := e.2.1
    (match stack with | some k => e.1 / 64 == k | none => true)
      && w0.getLsbD 63 && w0.getLsbD bit && (w0.extractLsb' 59 2).toNat == tier
      && (w0.extractLsb' 0 36).toNat ≤ frame && frame ≤ (e.2.2.extractLsb' 0 36).toNat

/-- Whether frames from one on meet a region with a bit set, in some stack's table (R362). -/
def State.regionMeets (s : State) (tier frame n bit : Nat) : Bool :=
  s.regions.any fun e =>
    let w0 := e.2.1
    let base := (w0.extractLsb' 0 36).toNat
    let limit := (e.2.2.extractLsb' 0 36).toNat
    w0.getLsbD 63 && w0.getLsbD bit && (w0.extractLsb' 59 2).toNat == tier && base ≤ limit
      && base < frame + n && frame ≤ limit

/-- The tier of a root's table: the one in which a table region covers it (log entry 23). -/
def State.rootTier (s : State) (root : Word) : Nat :=
  if s.regionHas none 0 ((root.toNat % 2 ^ 52) / 65536) 61 then 0 else 1

/-! ### Entries (R253 to R255) -/

def Leaf.size (l : Leaf) : Nat := (l.entry.extractLsb' 61 2).toNat
def Leaf.tier (l : Leaf) : Nat := (l.entry.extractLsb' 59 2).toNat
def Leaf.world (l : Leaf) : Bool := l.entry.getLsbD 58
def Leaf.wr (l : Leaf) : Bool := l.entry.getLsbD 57
def Leaf.ep (l : Leaf) : Bool := l.entry.getLsbD 56
def Leaf.fmt (l : Leaf) : Nat := (l.entry.extractLsb' 52 4).toNat
def Leaf.geom (l : Leaf) : Nat := (l.entry.extractLsb' 48 4).toNat
def Leaf.key (l : Leaf) : Nat := (l.entry.extractLsb' 36 12).toNat
def Leaf.frame (l : Leaf) : Nat := (l.entry.extractLsb' 0 36).toNat

/-- First address bit that a level indexes, and how many entries its tables have (R252). -/
def levelShift (n : Nat) : Nat := if n = 0 then 16 else if n = 1 then 21 else if n = 2 then 30 else 39
def levelCount (n : Nat) : Nat := if n = 0 then 32 else if n = 3 then 8192 else 512

/-- Whether an entry covers an address, and the physical address it gives it in its tier. -/
def Leaf.covers (l : Leaf) (va : Nat) : Bool := l.va ≤ va && va < l.va + 2 ^ levelShift l.level
def Leaf.phys (l : Leaf) (va : Nat) : Nat := l.frame * 65536 + (va - l.va)

/-- Geometry codes that a format admits (R85). -/
def geomOk (fmt geom : Nat) : Bool := if fmt = 7 then geom < 3 else if fmt = 8 || fmt = 9 then geom < 8 else geom == 0

/-- Whether a bank is pooled: neither owned nor held (R160). -/
def State.pooled (s : State) (t b : Nat) : Bool :=
  let x := s.tile t
  b < 31 && !x.owns b && !(x.saved.isSome && x.savedOwn.getLsbD b)

/-- The second tier's channels or ports, by the option that the configuration record selects, and the one that serves a
frame (R5, R371, log entry 22). -/
def State.tier2Units (s : State) : Nat := match s.record with | some r => if r.cxl then 4 else 24 | none => 24
def State.tier2Home (s : State) (frame : Nat) : Nat := Config.tier2Unit frame % s.tier2Units

/-- Frames of a page, by its size field. -/
def Leaf.frames (l : Leaf) : Nat := if l.size = 1 then 1 else if l.size = 2 then 32 else 16384

/-- A frame that is not valid for its tier and size (R255). -/
def State.badFrame (s : State) (l : Leaf) : Bool :=
  let f := l.frame
  if l.tier = 0 then
    l.size == 3 || f / 2 ^ 23 != 0 || Config.tiles ≤ f / 2 ^ 12 || 22 < f / 2 ^ 7 % 32
      || !s.pooled (f / 2 ^ 12) (f / 2 ^ 7 % 32)
  else if l.tier = 1 then s.capacity < f + l.frames
  else false

/-- A leaf that would map a table region, which no task can (R252, R362); the walk ends as at a malformed entry (log entry
89). -/
def State.mapsTables (s : State) (l : Leaf) : Bool := l.tier < 2 && s.regionMeets l.tier l.frame l.frames 61

/-- A malformed entry at a level (R254). -/
def State.malformed (s : State) (l : Leaf) : Bool :=
  if l.size = 0 then l.level == 0 || (l.entry.extractLsb' 44 15) != 0 || 1 < l.tier
  else
    l.size + l.level != (if l.size = 1 then 1 else if l.size = 2 then 3 else 5)
      || l.tier == 3 || l.fmt == 0xF || !geomOk l.fmt l.geom || (l.ep && l.tier != 0)
      || (l.size == 2 && l.frame % 32 != 0) || (l.size == 3 && l.frame % 16384 != 0)
      || s.badFrame l || (l.tier == 2 && l.key != 0)

/-! ### Walks (R252, R256, R257) -/

/-- An entry as a walk finds it: what the table holds, or an entry that the stack's cache still keeps; which of them
is not stated (R257). -/
def State.entryAt (s : State) (stack : Nat) (root : Word) (n va tier addr : Nat) : Leaf :=
  let base := va / 2 ^ levelShift n * 2 ^ levelShift n
  let now := BitVec.ofNat 64 (leNat (s.readRaw tier addr 8))
  let old := (s.caches.filter fun c =>
    c.1 == stack && c.2.1 == root && c.2.2.level == n && c.2.2.va == base && c.2.2.entry != now).map (·.2.2.entry)
  { va := base, entry := (now :: old).getD (s.undef (9000000 + n) % (old.length + 1)) now, level := n }

/-- The walk from a table of level n − 1 down: the leaf or the code of the first failure, and the entries visited. A table
outside the table regions, where no table stands, ends it as a malformed entry does (R252, R256, log entry 89). -/
def State.walkFrom (s : State) (stack : Nat) (root : Word) (va : Nat) :
    Nat → Nat → Nat → List Leaf → Except Nat Leaf × List Leaf
  | 0, _, _, seen => (.error 0x23, seen)
  | n + 1, tier, addr, seen =>
    let at_ := addr + 8 * (va / 2 ^ levelShift n % levelCount n)
    let l := s.entryAt stack root n va tier at_
    let seen := seen ++ [l]
    if !s.regionHas none tier (at_ / 65536) 61 then (.error 0x23, seen)
    else if !l.entry.getLsbD 63 then (.error 0x20, seen)
    else if s.malformed l then (.error 0x23, seen)
    else if l.size = 0 then s.walkFrom stack root va n l.tier ((l.entry.extractLsb' 0 44).toNat * 256) seen
    else if s.mapsTables l then (.error 0x23, seen)
    else (.ok l, seen)

/-- The walk of an address from a root. -/
def State.walk (s : State) (stack : Nat) (root : Word) (va : Nat) : Except Nat Leaf × List Leaf :=
  s.walkFrom stack root va 4 (s.rootTier root) (root.toNat % 2 ^ 52) []

/-- What an access asks of its page: a write, an atomic, a decoding copy, with the format and geometry that its first
page had (R256). -/
structure Want where
  writes : Bool := false
  atomic : Bool := false
  dec : Bool := false
  like : Option (Nat × Nat) := none
  deriving DecidableEq, Repr

/-- Steps 3 to 6 of R256, for a leaf reached by an access at an address. A host-window leaf, whose key is 0, names no slot, and step 4
passes it (R255, log entry 108). -/
def State.leafFault (s : State) (stack : Nat) (secure : Bool) (w : Want) (l : Leaf) (va : Nat) : Option Nat :=
  if !secure && (l.world || s.regionHas (some stack) l.tier (l.phys va / 65536) 62) then some 0x24
  else if l.tier ≠ 2 && ((find l.key s.keys).isNone || (!l.world && l.key < 256)) then some 0x25
  else if w.writes && !l.wr then some 0x21
  else if w.atomic && (l.tier = 2 || !([0, 1, 0xC, 0xD, 0xE].contains l.fmt)) then some 0x2D
  else if w.dec && (!([7, 8, 9].contains l.fmt)
      || (match w.like with | some p => p != (l.fmt, l.geom) | none => false)) then some 0x22
  else none

/-- A whole translation of one access by a tile's task, the entries visited joining its stack's cache (R256, R257). -/
def State.translate (s : State) (t : Nat) (w : Want) (va : Nat) : Except Nat Leaf × State :=
  let root := s.rootOf t
  let k := stackOf t
  let secure := match (s.tile t).task with | some j => j.world | none => false
  let r := s.walk k root va
  let fresh := (r.2.map fun l => (k, root, l)).filter fun e => !s.caches.contains e
  let s' := { s with caches := s.caches ++ fresh, freeCtr := s.freeCtr + 1 }
  match r.1 with
  | .error e => (.error e, s')
  | .ok l => match s.leafFault k secure w l va with
    | some e => (.error e, s')
    | none => (.ok l, s')

end Sys2Proof.Machine
end

