-- ==== Sys2Proof/Machine/CheckC.lean ====
section
/-! DEFINITION. What the C slots' copies check and wait for at an issue (R28, R263 to R274, R278). -/

namespace Sys2Proof.Machine

/-- Bytes of an element of CXPOS and of a group element of CDEC, by format code (R271, R272). -/
def copyWidth (fmt : Nat) : Nat := if fmt = 6 then 1 else if fmt = 2 then 2 else if fmt = 1 then 4 else 8

/-- Spaces that the source and the destination of a copy may hold (R263). -/
def copySpaces : Instr → (Nat → Bool) × (Nat → Bool)
  | .cisl _ => ((· == 0), (· == 1))
  | .cgrd _ | .cdec _ => ((· == 2), (· == 0))
  | .cgwr _ => ((· == 0), (· == 2))
  | .cfeed _ | .cgath _ => ((fun n => n == 0 || n == 2), (· == 0))
  | _ => ((· == 0), (· == 0))

/-- The copy fields of a copy. -/
def copyFields : Instr → Option CW
  | .cloc f | .cisl f | .cgrd f | .cgwr f | .cfill f | .cxpos f | .cdec f | .cfeed f | .cgath f => some f
  | _ => none

/-- Bytes of an MX row, and of a row's elements (R83, R272). -/
def mxElemBytes (fmt geom : Nat) : Nat := 2 ^ geom * (if fmt = 8 then 32 else 16)
def mxRowBytes (fmt geom : Nat) : Nat := (mxElemBytes fmt geom + 2 ^ geom + 63) / 64 * 64

/-- Bytes that n groups of a decoding copy span from its source on, in a page of a format and geometry: whole INT4G blocks,
or MX rows up to the last group's scale (R272). -/
def decodedBytes (fmt geom n : Nat) : Nat :=
  if fmt = 7 then ((n - 1) / 2 ^ geom + 1) * (16 * 2 ^ geom + 4)
  else (n - 1) / 2 ^ geom * mxRowBytes fmt geom + mxElemBytes fmt geom + (n - 1) % 2 ^ geom + 1

/-- Units of a copy (R263). -/
def copyUnits (f : CW) : Nat := f.n.toNat + 1

/-- Whether a range lies whole below a generator's limit and, in spaces 0 and 1, in one staging (R264). -/
def Gen.holds (a : Gen) (addr : Word) (n : Nat) : Bool :=
  addr.toNat + n ≤ a.limit.toNat
    && (a.space != 0 || addr.toNat + n ≤ 0x100000)
    && (a.space != 1 || (addr.toNat < 0x1000000 && addr.toNat % 2 ^ 20 + n ≤ 0x100000))
    && (a.space != 2 || addr.toNat + n ≤ 2 ^ 52)

/-- Whether unit u of a CFILL lies in its window (R269). -/
def State.inWindow (s : State) (c : Ctx) (f : CW) (u : Nat) : Bool :=
  let (g, w) := s.gen c f.gw
  let l := g.limit.toNat - g.base.toNat
  let a := (s.gen c f.ga).2.toNat + 64 * u
  w.toNat ≤ a && a < w.toNat + l

/-- The data units of a CFILL (R269). -/
def State.dataUnits (s : State) (c : Ctx) (f : CW) : List Nat :=
  (List.range (copyUnits f)).filter fun u => s.inWindow c f u

/-- The indices of a CGATH, read at issue (R274). -/
def State.gatherIdx (s : State) (c : Ctx) (f : CW) : List Nat :=
  let a := (s.gen c f.gw).2.toNat
  (List.range (copyUnits f)).map fun u => readNat (s.tile c.t).st (a + 2 * u) 2

/-- The units of a CGATH whose row is out of range (R274). -/
def State.gatherOut (s : State) (c : Ctx) (f : CW) : BitVec 1024 :=
  let (g, a) := s.gen c f.ga
  let lim := min g.limit.toNat (if g.space = 2 then 2 ^ 52 else 0x100000)
  ((List.range (copyUnits f)).zip (s.gatherIdx c f)).foldl
    (fun m e => if e.2 ≠ 0xFFFF && lim < a.toNat + 64 * e.2 + 64 then m ||| BitVec.twoPow 1024 e.1 else m) 0

/-- The source bytes of a CDEC, as the page of its first byte gives its format; where that page gives none, the copy faults
there after its issue, and one byte is what is known (R264, R272). -/
def State.decBytes (s : State) (c : Ctx) (f : CW) : Nat :=
  match (s.walk (stackOf c.t) (s.rootOf c.t) (s.gen c f.ga).2.toNat).1 with
  | .ok l => if [7, 8, 9].contains l.fmt then decodedBytes l.fmt l.geom (copyUnits f) else 1
  | .error _ => 1

/-- The checked reads of staging that a CGATH makes of its index list: those of a static one, as a source of it; the list of R278
names none of a global one (R278, R305, log entry 105). -/
def State.listReads (s : State) (c : Ctx) (i : Instr) : List (Nat × Nat) :=
  match i with
  | .cgath f => if (s.gen c f.ga).1.space = 2 then [] else [((s.gen c f.gw).2.toNat, 2 * copyUnits f)]
  | _ => []

/-- The bytes of a CGATH's index list, which it reads at its issue (R274). -/
def State.indexList (s : State) (c : Ctx) (i : Instr) : List (Nat × Nat) :=
  match i with
  | .cgath f => [((s.gen c f.gw).2.toNat, 2 * copyUnits f)]
  | _ => []

/-- The staging bytes a copy reads at stated cycles, its sources (R265, R267, R278). -/
def State.copyReads (s : State) (c : Ctx) (i : Instr) : List (Nat × Nat) :=
  match copyFields i with
  | none => []
  | some f =>
    let (g, a) := s.gen c f.ga
    if g.space ≠ 0 then []
    else match i with
      | .cfill f => (s.dataUnits c f).map fun u => (a.toNat + 64 * u, 64)
      | .cxpos f => [(a.toNat, 4096 * (copyUnits f))]
      | .cgath f => ((s.gatherIdx c f).filter (· ≠ 0xFFFF)).map fun h => (a.toNat + 64 * h, 64)
      | .cloc _ | .cisl _ | .cgwr _ => [(a.toNat, 64 * (copyUnits f))]
      | _ => []

/-- The sources of a copy with the cycles on which it reads them: four units a cycle of its engine, or one for CISL; of CXPOS 256
bytes of a tile (R265, R267, R271). -/
def State.sourceReads (s : State) (c : Ctx) (i : Instr) : List (Nat × Nat × Nat) :=
  match copyFields i with
  | none => []
  | some f =>
    let (g, a) := s.gen c f.ga
    let at_ := fun (k : Nat) => c.now + k * (s.tile c.t).divisor 3
    let unit := fun (u : Nat) (k : Nat) => (at_ (2 + k), a.toNat + 64 * u, 64)
    let units := List.range (copyUnits f)
    if g.space ≠ 0 then []
    else match i with
      | .cfill f => (s.dataUnits c f).map fun u => unit u (u / 4)
      | .cxpos _ => units.flatMap fun u => (List.range 16).map fun k => (at_ (2 + 32 * u + k), a.toNat + 4096 * u + 256 * k, 256)
      | .cgath f => ((units.zip (s.gatherIdx c f)).filter (·.2 != 0xFFFF)).map fun e => unit e.2 (e.1 / 4)
      | .cloc _ | .cgwr _ => units.map fun u => unit u (u / 4)
      | .cisl _ => units.map fun u => unit u u
      | _ => []

/-- Step 1 of R264: spaces, alignment, and the three further cases. -/
def State.copyShape (s : State) (c : Ctx) (i : Instr) (f : CW) : Bool :=
  let (okS, okD) := copySpaces i
  let (gs, a) := s.gen c f.ga
  let (gd, d) := s.gen c f.gd
  let (gw, w) := s.gen c f.gw
  let feed := match i with | .cfeed _ => true | _ => false
  okS gs.space.toNat && a.toNat % 64 == 0
    && (feed || (okD gd.space.toNat && d.toNat % 64 == 0))
    && (!f.aw || (gw.space.toNat < 2 && w.toNat % 16 == 0))
    && (match i with
        | .cgath _ => gw.space == 0 && w.toNat % 2 == 0 && (copyUnits f) ≤ 512
        | .cxpos _ => (copyUnits f) ≤ 256
        | .cfeed _ => (match (s.tile c.t).task with
            | some k => k.dfOcc f.df.toNat == 0 || 64 ≤ k.dfOcc f.df.toNat
            | none => true)
        | _ => true)

/-- Step 2 of R264: the ranges that the copy reads and writes, each taken whole, the arrival word and the index list that gw
names among them; the window of a CFILL is no range (R47). -/
def State.copyRanges (s : State) (c : Ctx) (i : Instr) (f : CW) : Bool :=
  let (gs, a) := s.gen c f.ga
  let (gd, d) := s.gen c f.gd
  let (gw, w) := s.gen c f.gw
  (match i with
    | .cfill _ => (s.dataUnits c f).all fun u => gs.holds (a + BitVec.ofNat 64 (64 * u)) 64
    | .cxpos _ => gs.holds a (4096 * (copyUnits f))
    | .cdec f => gs.holds a (s.decBytes c f)
    | .cgath _ => gs.inRange a
    | _ => gs.holds a (64 * (copyUnits f)))
    && (match i with
        | .cfeed _ => true
        | .cxpos _ => gd.holds d (4096 * (copyUnits f))
        | .cdec _ => gd.holds d (32 * copyWidth f.fmt.toNat * (copyUnits f))
        | _ => gd.holds d (64 * (copyUnits f)))
    && (!f.aw || gw.holds w 16)
    && (match i with | .cgath _ => gw.holds w (2 * (copyUnits f)) | _ => true)

/-- Whether a copy kind is global as it issues (R265, R268). -/
def State.isGlobal (s : State) (c : Ctx) (i : Instr) : Bool :=
  match i with
  | .cgrd _ | .cgwr _ | .cdec _ | .cfeed _ => true
  | .cgath f => (s.gen c f.ga).1.space == 2
  | _ => false

/-- Whether a copy adds an entry to the early-read checker's list: it writes the tile's own staging (R278). -/
def State.addsEntry (s : State) (c : Ctx) (i : Instr) : Bool :=
  match i with
  | .cloc _ | .cgrd _ | .cfill _ | .cxpos _ | .cdec _ | .cgath _ => true
  | .cisl f => (islandTarget c.t (s.gen c f.gd).2.toNat).1 == c.t
  | _ => false

/-- Whether a copy finds its engine inside an interval, 16 global copies outstanding, or the early-read checker's
list full; `before` are the copies that the other C slot adds to the list on this issue (R28, R268, R278). -/
def State.copyBusy (s : State) (c : Ctx) (i : Instr) (before : Nat) : Bool :=
  let x := s.tile c.t
  ((copyFields i).isSome && c.now < vget 0 x.seq.cFree (c.slot - 4))
    || (s.isGlobal c i && 16 ≤ x.eng.copies.countP fun g => g.slot == c.slot)
    || (x.sys.er && s.addsEntry c i && 64 ≤ before + x.eng.early.countP fun e => e.slot != 6 && (e.glob || c.now < e.till))

/-- The issue faults of a copy (R264, R278, R28). -/
def copyFault (s : State) (c : Ctx) (i : Instr) (before : Nat) : Option TrapReq :=
  let one := fun (e : Nat) => some (trapOf c.slot e)
  match copyFields i with
  | none => none
  | some f =>
    if !s.copyShape c i f then one 0x05
    else if !s.copyRanges c i f then one 0x08
    else
      let (gd, d) := s.gen c f.gd
      let (gw, w) := s.gen c f.gw
      let far := fun (g : Gen) (a : Word) => g.space == 1 && !s.inGang c.t (islandTarget c.t a.toNat).1
      if (match i with | .cisl _ => far gd d | _ => false) || (f.aw && far gw w) then one 0x27
      else
        let last : Option TrapReq := match i with
          | .cfeed _ => (match (s.tile c.t).task with
              | some k => if k.dfOcc f.df.toNat = 0 then one 0x43 else none
              | none => none)
          | .cgath _ =>
            if s.gatherOut c f ≠ 0 then some { code := 0x4C, slot := c.slot, mask := s.gatherOut c f } else none
          | _ => none
        (last.orElse fun _ => (s.readFault c.t (readsAt c.now (s.listReads c i) ++ s.sourceReads c i)).bind one).orElse fun _ =>
          if !(s.tile c.t).sys.gm && s.copyBusy c i before then one 0x06 else none

/-- What a copy waits for: in guarded mode its interval and limits, and every earlier pending write to the staging
bytes it reads (R264); an undelivered line after a resumption (R340). -/
def copyStall (s : State) (c : Ctx) (i : Instr) (before : Nat) : Bool :=
  let x := s.tile c.t
  let list := s.indexList c i
  let rs := s.copyReads c i
  (x.sys.gm && (s.copyBusy c i before || x.writePending c.t c.now list || x.copyPending c.t list
      || x.writePending c.t (c.now + 2 * x.divisor 3) rs || x.copyPending c.t rs))
    || s.readStalls c.t (s.listReads c i ++ rs)

end Sys2Proof.Machine
end

