-- ==== Sys2Proof/Machine/CheckD.lean ====
section
/-! DEFINITION. The vault's timing checker and what the D slot's commands check at an issue (R163 to R173). -/

namespace Sys2Proof.Machine

/-- The commands of the D slot. -/
inductive VaultCmd where
  | act | rd | wr | pre | refpb
  deriving DecidableEq, Repr

/-- D opcode of a command (R55). -/
def VaultCmd.op : VaultCmd → Nat
  | .act => 1 | .rd => 2 | .wr => 3 | .pre => 4 | .refpb => 6

/-- A constraint of R163: its id, the cycles it needs, the age of its earlier event and that event's bank. -/
structure Constraint where
  id : Nat
  need : Nat
  age : Nat
  ebank : Nat
  deriving DecidableEq, Repr

/-- The constraints on a command to a bank, by ascending id, with the ages as they stand (R163). -/
def constraints (v : Vault) (now : Nat) (cmd : VaultCmd) (b : Nat) : List Constraint :=
  let k := vget { } v.banks b
  let age := ageOf now
  let act1 := vget (0, 0) v.chan.acts 0
  let act4 := vget (0, 0) v.chan.acts 3
  match cmd with
  | .act => [⟨0x02, 21, age k.pre, b⟩, ⟨0x04, 70, age k.act, b⟩, ⟨0x05, 4, age act1.1, act1.2⟩,
      ⟨0x06, 28, age act4.1, act4.2⟩, ⟨0x0C, 210, age k.ref, b⟩]
  | .rd => [⟨0x01, 21, age k.act, b⟩, ⟨0x07, 2, age k.rd, b⟩, ⟨0x0A, 14, age v.chan.wr.1, v.chan.wr.2⟩]
  | .wr => [⟨0x01, 21, age k.act, b⟩, ⟨0x07, 2, age k.wr, b⟩, ⟨0x0B, 4, age v.chan.rd.1, v.chan.rd.2⟩]
  | .pre => [⟨0x03, 49, age k.act, b⟩, ⟨0x08, 8, age k.rd, b⟩, ⟨0x09, 26, age k.wr, b⟩]
  | .refpb => [⟨0x02, 21, age k.pre, b⟩, ⟨0x05, 4, age act1.1, act1.2⟩, ⟨0x06, 28, age act4.1, act4.2⟩,
      ⟨0x0C, 210, age k.ref, b⟩]

/-- The frame word at 0x0A0 (R173). -/
def constraintWord (id bank ebank need age op row col : Nat) (owed : Int) : Word :=
  BitVec.ofNat 64 (id * 2 ^ 58 + bank % 32 * 2 ^ 53 + ebank % 32 * 2 ^ 48 + need * 2 ^ 40 + age * 2 ^ 32
    + op * 2 ^ 27 + row * 2 ^ 14 + col * 2 ^ 10
    + (if id = 0x14 || id = 0x15 then (BitVec.ofInt 5 owed).toNat * 32 else 0))

/-- The checks of a command in the order of R165: vault failed, ownership, bank state, refresh ahead, and the lowest
unmet constraint: the only checks that refresh puts on a schedule beside the deficit (R186). -/
def Tile.commandFault (x : Tile) (now : Nat) (cmd : VaultCmd) (b row col : Nat) : Option TrapReq :=
  let k := vget { } x.vault.banks b
  let mine := x.owns b
  let r := match cmd with
    | .act => row
    | _ => if mine && k.opened then k.row.toNat else 0
  let trap := fun code id => some
    { code := code, slot := 6, word := constraintWord id b 0 0 0 cmd.op r col k.owed : TrapReq }
  if x.vault.failed then trap 0x15 0x16
  else if !mine then trap 0x12 0x13
  else match cmd with
    | .act => if k.opened then trap 0x13 0x10 else unmet r
    | .rd | .wr => if !k.opened then trap 0x13 0x11 else unmet r
    | .refpb => if k.opened then trap 0x13 0x12 else if k.owed ≤ -8 then trap 0x14 0x15 else unmet r
    | .pre => unmet r
where
  /-- Trap 0x10 for the lowest unmet constraint (R165). -/
  unmet (r : Nat) : Option TrapReq :=
    ((constraints x.vault now cmd b).find? fun e => e.age < e.need).map fun e =>
      { code := 0x10, slot := 6, word := constraintWord e.id b e.ebank e.need e.age cmd.op r col 0 }

/-- The column of an RD or WR issue (R49, R168). -/
def columnOf (f : DC) (index : Nat) : Nat := f.col.toNat + (if f.cstep then index else 0)

/-- The faults of a D command, its operands and generator first (R165, R168, R169, R278). -/
def vaultFault (s : State) (c : Ctx) (i : Instr) : Option TrapReq :=
  let x := s.tile c.t
  let gen := fun (f : DC) => if 15 < columnOf f c.index then some 0x05 else s.genFault c f.g (· == 0) 64
  match i with
  | .act f => x.commandFault c.now .act f.bank.toNat f.row.toNat 0
  | .rd f =>
    match gen f with
    | some e => some (trapOf 6 e)
    | none => x.commandFault c.now .rd f.bank.toNat 0 (columnOf f c.index)
  | .wr f =>
    match (gen f).orElse fun _ => s.readFault c.t (readsAt (c.now + 2) [((s.gen c f.g).2.toNat, 64)]) with
    | some e => some (trapOf 6 e)
    | none => x.commandFault c.now .wr f.bank.toNat 0 (columnOf f c.index)
  | .pre b =>
    if x.owns b.toNat && (vget { } x.vault.banks b.toNat).opened then x.commandFault c.now .pre b.toNat 0 0
    else if x.owns b.toNat then none
    else some { code := 0x12, slot := 6, word := constraintWord 0x13 b.toNat 0 0 0 4 0 0 0 }
  | .prea =>
    ((List.range 31).filter fun b => x.owns b && (vget { } x.vault.banks b).opened).findSome? fun b =>
      (x.commandFault c.now .pre b 0 0).map fun r =>
        { r with word := r.word + BitVec.ofNat 64 (2 ^ 27) }
  | .refpb b => x.commandFault c.now .refpb b.toNat 0 0
  | _ => none

/-- What a D command waits for: in guarded mode a WR waits for an RD that lands on its bytes after its read, and any
WR for an undelivered line after a resumption (R168, R340). -/
def vaultStall (s : State) (c : Ctx) (i : Instr) : Bool :=
  match i with
  | .wr f =>
    let a := (s.gen c f.g).2.toNat
    ((s.tile c.t).sys.gm && (s.tile c.t).rdPending (c.now + 3) [(a, 64)])
      || s.readStalls c.t [(a, 64)]
  | _ => false

end Sys2Proof.Machine
end

