-- ==== Sys2Proof/Machine/CheckM.lean ====
section
/-! DEFINITION. What the M slot's operations check and wait for at an issue (R28, R231 to R249). -/

namespace Sys2Proof.Machine

/-- The group of M instructions whose interval an instruction meets: MGATH, MLDW, MMA and MMAD, MRD and MWR,
MZERO; MSTAT none (R231). -/
def matrixGroup : Instr → Option Nat
  | .mgath _ => some 0
  | .mldw _ => some 1
  | .mma _ | .mmad _ => some 2
  | .mrd _ | .mwr _ => some 3
  | .mzero _ => some 4
  | _ => none

/-- Bytes and K of a weight format (R237, R238). -/
def weightBytes (fmt : Nat) : Nat :=
  if fmt = 7 then 1280 else if fmt = 8 then 4224 else if fmt = 9 then 4352 else 4096

/-- The staging bytes an MGATH or MLDW reads (R236, R237). -/
def State.matrixReads (s : State) (c : Ctx) (i : Instr) : List (Nat × Nat) :=
  match i with
  | .mgath f =>
    let a := (s.gen c f.g).2.toNat
    let x := s.readV c f.x.toNat
    (List.range 64).flatMap fun k =>
      let h := elem x 16 k
      if h = 0xFFFF then [] else if k < 32 then [(a + 64 * h, 64)] else [(a + 4 * h, 4)]
  | .mldw f => [((s.gen c f.g).2.toNat, weightBytes f.fmt.toNat)]
  | _ => []

/-- The same with the cycles of the reads: the bytes of an MLDW past the first 4,096 come a cycle of the engine later (R231). -/
def State.matrixReadsAt (s : State) (c : Ctx) (i : Instr) : List (Nat × Nat × Nat) :=
  let d := (s.tile c.t).divisor 1
  match i with
  | .mldw f =>
    let a := (s.gen c f.g).2.toNat
    let n := weightBytes f.fmt.toNat
    readsAt (c.now + 2 * d) [(a, min n 4096)] ++ (if n ≤ 4096 then [] else readsAt (c.now + 3 * d) [(a + 4096, n - 4096)])
  | _ => readsAt (c.now + 2 * d) (s.matrixReads c i)

/-- The lanes of an MGATH index vector outside the generator's limit or staging (R236). -/
def State.gatherBad (s : State) (c : Ctx) (f : MG) : BitVec 1024 :=
  let (g, a) := s.gen c f.g
  let lim := min g.limit.toNat 0x100000
  let x := s.readV c f.x.toNat
  (List.range 64).foldl
    (fun m k =>
      let h := elem x 16 k
      let n := if k < 32 then 64 else 4
      if h ≠ 0xFFFF && lim < a.toNat + n * h + n then m ||| BitVec.twoPow 1024 k else m) 0

/-- The columns whose INT4G trailer in the weight latch is malformed (R239). -/
def badColumns (w : BitVec 34816) : BitVec 1024 :=
  (List.range 64).foldl
    (fun m j =>
      let t := (w.toNat >>> (8 * (1024 + 4 * j))) % 2 ^ 32
      if t / 2 ^ 20 ≠ 0 then m ||| BitVec.twoPow 1024 j else m) 0

/-- The weight latch as an MMA reads it, undefined while a load is in flight; in guarded mode it waits
for the load (R27, R238, R251). -/
def State.weights (s : State) (c : Ctx) : BitVec 34816 :=
  if (s.tile c.t).pending c.now .wLatch then BitVec.ofNat 34816 (s.undef 2000000) else (s.tile c.t).regs.wLatch

/-- The decode trap of MMAD: a queue that the launch does not declare (R241). -/
def matrixDecode (s : State) (c : Ctx) (i : Instr) : Option TrapReq :=
  match i, (s.tile c.t).task with
  | .mmad f, some k => if k.qOcc f.q.toNat = 0 then some (trapOf c.slot 0x43) else none
  | _, _ => none

/-- Whether an M operation falls inside a binding interval, or an MMA finds MMAD requests pending (R231, R232). -/
def State.matrixBusy (s : State) (c : Ctx) (i : Instr) : Bool :=
  let x := s.tile c.t
  (match matrixGroup i with | some g => c.now < vget 0 x.seq.mFree g | none => false)
    || (match i with | .mma _ => !x.eng.mmad.reqs.isEmpty | _ => false)

/-- The issue faults of an MMAD, which come before its wait for the request list (R241). -/
def State.mmadFault (s : State) (c : Ctx) (f : MD) : Option Nat :=
  let (g, a) := s.gen c f.g
  if g.space ≠ 0 || a.toNat % 64 ≠ 0 || 31 < c.index then some 0x05
  else if !g.inRange a then some 0x08 else none

/-- The issue faults of an M operation (R236 to R241, R278). Of a weight latch that is still in flight nothing is
reported (R251). An MMA in open mode whose weight tag is still in flight is checked against the tag before it (log entry 104). -/
def matrixFault (s : State) (c : Ctx) (i : Instr) : Option TrapReq :=
  let one := fun (e : Nat) => some (trapOf c.slot e)
  let own : Option TrapReq := match i with
    | .mgath f =>
      match s.genFault c f.g (· == 0) 64 with
      | some e => one e
      | none => if s.gatherBad c f ≠ 0 then some { code := 0x40, slot := c.slot, mask := s.gatherBad c f } else none
    | .mldw f =>
      match s.genFault c f.g (· == 0) 64 with
      | some e => one e
      | none =>
        let (g, a) := s.gen c f.g
        if min g.limit.toNat 0x100000 < a.toNat + weightBytes f.fmt.toNat then one 0x08 else none
    | .mma f =>
      let x := s.tile c.t
      if f.fmt ≠ x.regs.wTag then one 0x4B
      else if f.fmt = 7 && !x.pending c.now .wLatch && badColumns (s.weights c) ≠ 0 then
        some { code := 0x44, slot := c.slot, mask := badColumns (s.weights c) }
      else none
    | .mmad f => (s.mmadFault c f).bind one
    | _ => none
  let read := fun (_ : Unit) => (s.readFault c.t (s.matrixReadsAt c i)).bind one
  let busy := fun (_ : Unit) => if !(s.tile c.t).sys.gm && s.matrixBusy c i then one 0x06 else none
  (own.orElse read).orElse busy

/-- What an M operation waits for beyond its register sources: an interval, writes to the bytes it reads that have not performed,
a full request list, and in guarded mode the MMAD requests on the tile it names (R231, R234, R241, R243). -/
def matrixStall (s : State) (c : Ctx) (i : Instr) : Bool :=
  let x := s.tile c.t
  let onTile := fun (n : BitVec 6) => x.eng.mmad.reqs.any fun r => r.acc == n.toNat
  (x.sys.gm && (s.matrixBusy c i || x.writePending c.t c.now (s.matrixReads c i)
      || x.copyPending c.t (s.matrixReads c i)
      || (match i with | .mrd f | .mwr f | .mzero f => onTile f.acc | _ => false)))
    || s.readStalls c.t (s.matrixReads c i)
    || (match i with | .mmad f => 32 ≤ x.eng.mmad.reqs.length && (s.mmadFault c f).isNone | _ => false)

end Sys2Proof.Machine
end

