-- ==== Sys2Proof/Machine/CheckS.lean ====
section
/-! DEFINITION. What the S slot's operations check and wait for at an issue (R28, R58, R109 to R149). -/

namespace Sys2Proof.Machine

/-- The S operations an atomic line region admits besides LD, ST and ALEND: ALU and multiplier (R109, R132). The list of R132
does not name NOP, which issues nothing (R50); the model admits it (log entry 96). -/
def inRegion : Instr → Bool
  | .sNop | .ld _ | .st _ | .alend | .add _ | .sub _ | .mul _ | .mulhs _ | .mulhu _ | .and _ | .or _ | .xor _ | .andn _
  | .shl _ | .shr _ | .sar _ | .rol _ | .min _ | .max _ | .minu _ | .maxu _ | .clz _ | .ctz _ | .popc _
  | .bswap _ | .addi _ | .subi _ | .muli _ | .mulhsi _ | .mulhui _ | .andi _ | .ori _ | .xori _ | .andni _
  | .mini _ | .maxi _ | .minui _ | .maxui _ | .shli _ | .shri _ | .sari _ | .roli _ | .lih _ | .cmpeq _
  | .cmpne _ | .cmplt _ | .cmple _ | .cmpltu _ | .cmpleu _ | .cmpeqi _ | .cmpnei _ | .cmplti _ | .cmplei _
  | .cmpltui _ | .cmpleui _ | .pand _ | .por _ | .pxor _ | .pnot _ | .agget _ | .mfsr _ => true
  | _ => false

/-- A space-0 or space-1 access (R124, R125): the island gang check after the generator's (R10). -/
def State.stagingFault (s : State) (c : Ctx) (g : BitVec 4) (size : Nat) : Option Nat :=
  match s.genFault c g (· < 2) size with
  | some e => some e
  | none =>
    let (a, addr) := s.gen c g
    if a.space = 1 && !s.inGang c.t (islandTarget c.t addr.toNat).1 then some 0x27 else none

/-- An access of an open line region: in the line, of the region's space, at most eight (R131, R132). -/
def State.regionFault (s : State) (c : Ctx) (g : BitVec 4) (size : Nat) (region : Nat × List LineAccess) : Option Nat :=
  match s.genFault c g (· == 2) size with
  | some e => some e
  | none =>
    if (s.gen c g).2.toNat / 128 * 128 != region.1 || 8 ≤ region.2.length then some 0x05 else none

/-- Bytes a slot-operation's size code names (R48). -/
def sizeOf (z : BitVec 3) : Nat := 2 ^ z.toNat

/-- LD and ST (R124, R125, R131). -/
def State.accessFault (s : State) (c : Ctx) (f : SM) (load : Bool) : Option Nat :=
  match (s.tile c.t).eng.region with
  | some r =>
    match s.regionFault c f.g (sizeOf f.size) r with
    | some e => some e
    | none => if load && (match (s.tile c.t).task with | some k => k.determ | none => false) then some 0x2C else none
  | none =>
    match s.stagingFault c f.g (sizeOf f.size) with
    | some e => some e
    | none =>
      let (a, addr) := s.gen c f.g
      if load && a.space = 0 then s.readFault c.t (readsAt (c.now + 1) [(addr.toNat, sizeOf f.size)]) else none

/-- Whether 64 returning atomics and line regions are outstanding: each from its issue until its values land, or
until a region without loads has performed (R128). -/
def State.atomicsFull (s : State) (c : Ctx) : Bool :=
  let x := s.tile c.t
  64 ≤ x.seq.flights.countP (·.atomic) + x.eng.region.isSome.toNat
    + x.eng.atomics.countP fun a => match a.kind with
        | .line _ => a.flight.isNone
        | .scalar _ _ _ _ _ => false

/-- A scalar atomic (R126, R130): `det` says that a deterministic launch does not admit the form. -/
def State.atomicFault (s : State) (c : Ctx) (f : SM) (det : Bool) : Option Nat :=
  match s.genFault c f.g (· == 2) (sizeOf f.size) with
  | some e => some e
  | none => if det && (match (s.tile c.t).task with | some k => k.determ | none => false) then some 0x2C else none

/-- The count that LOOP computes (R118). -/
def State.loopCount (s : State) (c : Ctx) (f : SL) : Nat := (s.readS c f.a + f.imm.setWidth 64).toNat

/-- Misuse of the loop nest by LOOP (R118). -/
def State.loopFault (s : State) (c : Ctx) (f : SL) : Bool :=
  let n := s.loopCount c f
  n = 0 || 2 ^ 32 ≤ n
    || (List.range 6).any fun j => f.k.toNat ≤ j && (vget { } (s.tile c.t).seq.loops j).active

/-- The issue faults of the S slot, in the order of its rules; an operation that a line region does not admit
comes first (R132). Returning atomics beyond 64 and a busy divider are slot-busy conditions (R28). -/
def scalarFault (s : State) (c : Ctx) (i : Instr) : Option Nat :=
  let x := s.tile c.t
  let busyDiv := if !x.sys.gm && c.now < x.seq.divFree then some 0x06 else none
  let busyAtomic := if !x.sys.gm && s.atomicsFull c then some 0x06 else none
  let ret := fun f => (s.atomicFault c f true).orElse fun _ => busyAtomic
  match i with
  | .mode _ _ | .clkdiv _ _ =>
    if x.eng.region.isSome || x.sys.hnd || x.seq.loops.toList.any (·.active) then some 0x0B else none
  | _ =>
  if x.eng.region.isSome && !inRegion i then some 0x05 else
  match i with
  | .div _ | .divu _ | .rem _ | .remu _ | .divi _ | .divui _ | .remi _ | .remui _ => busyDiv
  | .agset f =>
    if f.f = 0 && 2 < (s.readS c f.a + f.imm.signExtend 64).toNat then some 0x05 else none
  | .loop f => if s.loopFault c f then some 0x09 else none
  | .prepr f => if (s.readS c f.a).toNat % 8 ≠ 0 then some 0x05 else none
  | .ld f => s.accessFault c f true
  | .st f => s.accessFault c f false
  | .stadd f | .stand f | .stor f | .stxor f | .stmin f | .stmax f | .stminu f | .stmaxu f
  | .stfmin f | .stfmax f => s.atomicFault c f false
  | .stfadd f => s.atomicFault c f true
  | .ldadd f | .ldand f | .ldor f | .ldxor f | .ldmin f | .ldmax f | .ldminu f | .ldmaxu f
  | .ldfadd f | .ldfmin f | .ldfmax f | .swp f | .cas f => ret f
  | .albegin g => (s.genFault c g (· == 2) 128).orElse fun _ => busyAtomic
  | .alend => if x.eng.region.isNone then some 0x05 else none
  | .waita f => s.genFault c f.g (· == 0) 16
  | .tret => if x.sys.hnd then none else some 0x0B
  | _ => none

/-- What an S operation waits for in guarded mode, its sources apart: the divider, the limit of atomics, and an RD
that is to land on the bytes an LD reads (R28, R109, R128, R168). -/
def scalarStall (s : State) (c : Ctx) (i : Instr) : Bool :=
  let x := s.tile c.t
  match i with
  | .div _ | .divu _ | .rem _ | .remu _ | .divi _ | .divui _ | .remi _ | .remui _ =>
    x.sys.gm && c.now < x.seq.divFree
  | .ldadd _ | .ldand _ | .ldor _ | .ldxor _ | .ldmin _ | .ldmax _ | .ldminu _ | .ldmaxu _
  | .ldfadd _ | .ldfmin _ | .ldfmax _ | .swp _ | .cas _ | .albegin _ => x.sys.gm && s.atomicsFull c
  | .ld f =>
    let (a, addr) := s.gen c f.g
    let rs := [(addr.toNat, sizeOf f.size)]
    x.eng.region.isNone && a.space = 0 && ((x.sys.gm && x.rdPending (c.now + 1) rs) || s.readStalls c.t rs)
  | _ => false

end Sys2Proof.Machine
end

