-- ==== Sys2Proof/Machine/Issue.lean ====
section
/-! DEFINITION. Issuing one slot operation: its register sources, the checks in their order, and the one form that
every slot operation's meaning has (R27, R28, R46, R58, R193). -/

namespace Sys2Proof.Machine

/-- Mask m as a source, where it is applied (R191). -/
def maskSource (m : BitVec 4) (me : Bool) : List Loc := if me then [.m m.toNat] else []

/-- The consecutive registers of a VM word (R48). -/
def vmRegs (f : VM) : List Loc := (List.range (f.n.toNat + 1)).map fun k => .v (f.d.toNat + k)

/-- The registers a VD word names (R210). -/
def vdRegs (f : VD) : List Nat := ([f.a, f.b, f.c, f.e].take (f.n.toNat + 1)).map (·.toNat)

/-- Registers of an MRD or MWR, by format (R248). -/
def mrCount (fmt : BitVec 4) : Nat :=
  if fmt = 1 || fmt = 0xD then 8 else if fmt = 2 || fmt = 3 then 4 else 2

/-- The registers, masks, predicates, accumulators and latches that a slot operation reads at its issue. -/
def sources : Instr → List Loc
  | .add f => [.s f.a.toNat, .s f.b.toNat]
  | .sub f => [.s f.a.toNat, .s f.b.toNat]
  | .mul f => [.s f.a.toNat, .s f.b.toNat]
  | .mulhs f => [.s f.a.toNat, .s f.b.toNat]
  | .mulhu f => [.s f.a.toNat, .s f.b.toNat]
  | .div f => [.s f.a.toNat, .s f.b.toNat]
  | .divu f => [.s f.a.toNat, .s f.b.toNat]
  | .rem f => [.s f.a.toNat, .s f.b.toNat]
  | .remu f => [.s f.a.toNat, .s f.b.toNat]
  | .and f => [.s f.a.toNat, .s f.b.toNat]
  | .or f => [.s f.a.toNat, .s f.b.toNat]
  | .xor f => [.s f.a.toNat, .s f.b.toNat]
  | .andn f => [.s f.a.toNat, .s f.b.toNat]
  | .shl f => [.s f.a.toNat, .s f.b.toNat]
  | .shr f => [.s f.a.toNat, .s f.b.toNat]
  | .sar f => [.s f.a.toNat, .s f.b.toNat]
  | .rol f => [.s f.a.toNat, .s f.b.toNat]
  | .min f => [.s f.a.toNat, .s f.b.toNat]
  | .max f => [.s f.a.toNat, .s f.b.toNat]
  | .minu f => [.s f.a.toNat, .s f.b.toNat]
  | .maxu f => [.s f.a.toNat, .s f.b.toNat]
  | .clz f => [.s f.a.toNat]
  | .ctz f => [.s f.a.toNat]
  | .popc f => [.s f.a.toNat]
  | .bswap f => [.s f.a.toNat]
  | .addi f => [.s f.a.toNat]
  | .subi f => [.s f.a.toNat]
  | .muli f => [.s f.a.toNat]
  | .mulhsi f => [.s f.a.toNat]
  | .mulhui f => [.s f.a.toNat]
  | .divi f => [.s f.a.toNat]
  | .divui f => [.s f.a.toNat]
  | .remi f => [.s f.a.toNat]
  | .remui f => [.s f.a.toNat]
  | .andi f => [.s f.a.toNat]
  | .ori f => [.s f.a.toNat]
  | .xori f => [.s f.a.toNat]
  | .andni f => [.s f.a.toNat]
  | .shli f => [.s f.a.toNat]
  | .shri f => [.s f.a.toNat]
  | .sari f => [.s f.a.toNat]
  | .roli f => [.s f.a.toNat]
  | .mini f => [.s f.a.toNat]
  | .maxi f => [.s f.a.toNat]
  | .minui f => [.s f.a.toNat]
  | .maxui f => [.s f.a.toNat]
  | .lih f => [.s f.a.toNat]
  | .cmpeq f => [.s f.a.toNat, .s f.b.toNat]
  | .cmpne f => [.s f.a.toNat, .s f.b.toNat]
  | .cmplt f => [.s f.a.toNat, .s f.b.toNat]
  | .cmple f => [.s f.a.toNat, .s f.b.toNat]
  | .cmpltu f => [.s f.a.toNat, .s f.b.toNat]
  | .cmpleu f => [.s f.a.toNat, .s f.b.toNat]
  | .cmpeqi f => [.s f.a.toNat]
  | .cmpnei f => [.s f.a.toNat]
  | .cmplti f => [.s f.a.toNat]
  | .cmplei f => [.s f.a.toNat]
  | .cmpltui f => [.s f.a.toNat]
  | .cmpleui f => [.s f.a.toNat]
  | .pand f => [.p f.pa.toNat, .p f.pb.toNat]
  | .por f => [.p f.pa.toNat, .p f.pb.toNat]
  | .pxor f => [.p f.pa.toNat, .p f.pb.toNat]
  | .pnot f => [.p f.pa.toNat]
  | .agset f => [.s f.a.toNat]
  | .loop f => [.s f.a.toNat]
  | .prepr f => [.s f.a.toNat]
  | .st f => [.s f.d.toNat]
  | .stadd f => [.s f.b.toNat]
  | .stand f => [.s f.b.toNat]
  | .stor f => [.s f.b.toNat]
  | .stxor f => [.s f.b.toNat]
  | .stmin f => [.s f.b.toNat]
  | .stmax f => [.s f.b.toNat]
  | .stminu f => [.s f.b.toNat]
  | .stmaxu f => [.s f.b.toNat]
  | .stfadd f => [.s f.b.toNat]
  | .stfmin f => [.s f.b.toNat]
  | .stfmax f => [.s f.b.toNat]
  | .ldadd f => [.s f.b.toNat]
  | .ldand f => [.s f.b.toNat]
  | .ldor f => [.s f.b.toNat]
  | .ldxor f => [.s f.b.toNat]
  | .ldmin f => [.s f.b.toNat]
  | .ldmax f => [.s f.b.toNat]
  | .ldminu f => [.s f.b.toNat]
  | .ldmaxu f => [.s f.b.toNat]
  | .ldfadd f => [.s f.b.toNat]
  | .ldfmin f => [.s f.b.toNat]
  | .ldfmax f => [.s f.b.toNat]
  | .swp f => [.s f.b.toNat]
  | .cas f => [.s f.b.toNat, .s f.d.toNat]
  | .waita f => [.s f.b.toNat]
  | .mtsr f => [.s f.d.toNat]
  | .mssr f => [.s f.d.toNat]
  | .mcsr f => [.s f.d.toNat]
  | .vadd f => [.v f.a.toNat, .v f.b.toNat] ++ maskSource f.m f.me
  | .vsub f => [.v f.a.toNat, .v f.b.toNat] ++ maskSource f.m f.me
  | .vmul f => [.v f.a.toNat, .v f.b.toNat] ++ maskSource f.m f.me
  | .vfma f => [.v f.a.toNat, .v f.b.toNat, .v f.c.toNat] ++ maskSource f.m f.me
  | .vfms f => [.v f.a.toNat, .v f.b.toNat, .v f.c.toNat] ++ maskSource f.m f.me
  | .vfnma f => [.v f.a.toNat, .v f.b.toNat, .v f.c.toNat] ++ maskSource f.m f.me
  | .vmin f => [.v f.a.toNat, .v f.b.toNat] ++ maskSource f.m f.me
  | .vmax f => [.v f.a.toNat, .v f.b.toNat] ++ maskSource f.m f.me
  | .vabs f => [.v f.a.toNat] ++ maskSource f.m f.me
  | .vneg f => [.v f.a.toNat] ++ maskSource f.m f.me
  | .vdiv f => [.v f.a.toNat, .v f.b.toNat] ++ maskSource f.m f.me
  | .vsqrt f => [.v f.a.toNat] ++ maskSource f.m f.me
  | .vrcp f => [.v f.a.toNat] ++ maskSource f.m f.me
  | .vrsq f => [.v f.a.toNat] ++ maskSource f.m f.me
  | .vexp2 f => [.v f.a.toNat] ++ maskSource f.m f.me
  | .vlog2 f => [.v f.a.toNat] ++ maskSource f.m f.me
  | .viadd f => [.v f.a.toNat, .v f.b.toNat] ++ maskSource f.m f.me
  | .visub f => [.v f.a.toNat, .v f.b.toNat] ++ maskSource f.m f.me
  | .vimul f => [.v f.a.toNat, .v f.b.toNat] ++ maskSource f.m f.me
  | .vimin f => [.v f.a.toNat, .v f.b.toNat] ++ maskSource f.m f.me
  | .vimax f => [.v f.a.toNat, .v f.b.toNat] ++ maskSource f.m f.me
  | .viminu f => [.v f.a.toNat, .v f.b.toNat] ++ maskSource f.m f.me
  | .vimaxu f => [.v f.a.toNat, .v f.b.toNat] ++ maskSource f.m f.me
  | .vand f => [.v f.a.toNat, .v f.b.toNat] ++ maskSource f.m f.me
  | .vor f => [.v f.a.toNat, .v f.b.toNat] ++ maskSource f.m f.me
  | .vxor f => [.v f.a.toNat, .v f.b.toNat] ++ maskSource f.m f.me
  | .vshl f => [.v f.a.toNat, .v f.b.toNat] ++ maskSource f.m f.me
  | .vshr f => [.v f.a.toNat, .v f.b.toNat] ++ maskSource f.m f.me
  | .vsar f => [.v f.a.toNat, .v f.b.toNat] ++ maskSource f.m f.me
  | .viadds f => [.v f.a.toNat, .v f.b.toNat] ++ maskSource f.m f.me
  | .visubs f => [.v f.a.toNat, .v f.b.toNat] ++ maskSource f.m f.me
  | .vadd128 f => [.v f.a.toNat, .v f.b.toNat] ++ maskSource f.m f.me
  | .vcmpeq f => [.v f.a.toNat, .v f.b.toNat] ++ maskSource f.m f.me
  | .vcmpne f => [.v f.a.toNat, .v f.b.toNat] ++ maskSource f.m f.me
  | .vcmplt f => [.v f.a.toNat, .v f.b.toNat] ++ maskSource f.m f.me
  | .vcmple f => [.v f.a.toNat, .v f.b.toNat] ++ maskSource f.m f.me
  | .vcmpun f => [.v f.a.toNat, .v f.b.toNat] ++ maskSource f.m f.me
  | .vicmplt f => [.v f.a.toNat, .v f.b.toNat] ++ maskSource f.m f.me
  | .vicmpltu f => [.v f.a.toNat, .v f.b.toNat] ++ maskSource f.m f.me
  | .mand f => [.m f.ma.toNat, .m f.mb.toNat]
  | .mor f => [.m f.ma.toNat, .m f.mb.toNat]
  | .mxor f => [.m f.ma.toNat, .m f.mb.toNat]
  | .mnot f => [.m f.ma.toNat]
  | .mpop f => [.m f.ma.toNat]
  | .mset f => [.s f.d.toNat]
  | .vsel f => [.v f.a.toNat, .v f.b.toNat] ++ maskSource f.m f.me
  | .vperm f => [.v f.a.toNat, .v f.b.toNat] ++ (if f.ty = 6 then [.v (f.b.toNat + 1)] else []) ++ maskSource f.m f.me
  | .vbcst f => [.s (f.a.toNat % 32)] ++ maskSource f.m f.me
  | .vcompact f => [.v f.a.toNat] ++ maskSource f.m f.me
  | .vexpand f => [.v f.a.toNat] ++ maskSource f.m f.me
  | .vmovs f => [.s (f.a.toNat % 32), .s (f.b.toNat % 32)]
  | .vrsum f => [.v f.a.toNat] ++ maskSource f.m f.me
  | .vrmax f => [.v f.a.toNat] ++ maskSource f.m f.me
  | .vrmin f => [.v f.a.toNat] ++ maskSource f.m f.me
  | .vscan f => [.v f.a.toNat] ++ maskSource f.m f.me
  | .virsum f => [.v f.a.toNat] ++ maskSource f.m f.me
  | .vcvt f => [.v f.a.toNat] ++ maskSource f.m f.me
  | .vqnt f => [.v f.a.toNat] ++ maskSource f.m f.me
  | .vld f => maskSource f.m f.me
  | .vst f => vmRegs f ++ maskSource f.m f.me
  | .vgath f => [.v f.x.toNat] ++ maskSource f.m f.me
  | .vscat f => [.v f.d.toNat, .v f.x.toNat] ++ maskSource f.m f.me
  | .vstadd f => [.v f.d.toNat, .v f.x.toNat] ++ maskSource f.m f.me
  | .vstmin f => [.v f.d.toNat, .v f.x.toNat] ++ maskSource f.m f.me
  | .vstmax f => [.v f.d.toNat, .v f.x.toNat] ++ maskSource f.m f.me
  | .vstfadd f => [.v f.d.toNat, .v f.x.toNat] ++ maskSource f.m f.me
  | .vstfmin f => [.v f.d.toNat, .v f.x.toNat] ++ maskSource f.m f.me
  | .vstfmax f => [.v f.d.toNat, .v f.x.toNat] ++ maskSource f.m f.me
  | .vldadd f => [.v f.d.toNat, .v f.x.toNat] ++ maskSource f.m f.me
  | .vldmin f => [.v f.d.toNat, .v f.x.toNat] ++ maskSource f.m f.me
  | .vldmax f => [.v f.d.toNat, .v f.x.toNat] ++ maskSource f.m f.me
  | .vrng f => [.v f.a.toNat, .v f.b.toNat] ++ maskSource f.m f.me
  | .defer f => (vdRegs f).map .v ++ [.m f.m.toNat]
  | .dadd f => [.v f.a.toNat, .v f.b.toNat] ++ maskSource f.m f.me
  | .dsub f => [.v f.a.toNat, .v f.b.toNat] ++ maskSource f.m f.me
  | .dmul f => [.v f.a.toNat, .v f.b.toNat] ++ maskSource f.m f.me
  | .ddiv f => [.v f.a.toNat, .v f.b.toNat] ++ maskSource f.m f.me
  | .dqua f => [.v f.a.toNat, .v f.b.toNat] ++ maskSource f.m f.me
  | .dcmpeq f => [.v f.a.toNat, .v f.b.toNat] ++ maskSource f.m f.me
  | .dcmplt f => [.v f.a.toNat, .v f.b.toNat] ++ maskSource f.m f.me
  | .dcmple f => [.v f.a.toNat, .v f.b.toNat] ++ maskSource f.m f.me
  | .dcvtb f => [.v f.a.toNat] ++ maskSource f.m f.me
  | .dcvtd f => [.v f.a.toNat] ++ maskSource f.m f.me
  | .mgath f => [.v f.x.toNat]
  | .mma f => [.opLatch, .wLatch, .acc f.acc.toNat]
  | .mrd f => [.acc f.acc.toNat]
  | .mwr f => (List.range (mrCount f.fmt)).map fun k => .v (f.v.toNat + k)
  | .xunp4 f => [.v f.a.toNat]
  | .xpose f => [.v f.a.toNat]
  | .xcvt f => [.v f.a.toNat]
  | .xmx f => [.v f.a.toNat]
  | _ => []

/-- Decode traps beyond the fields' own (R58). -/
def decodeTrap (s : State) (c : Ctx) (i : Instr) : Option TrapReq :=
  match slotFor i with
  | some .v0 | some .x => vectorDecode s c i
  | some .m => matrixDecode s c i
  | _ => none

/-- Whether an operation waits, in guarded mode, for a register that it reads (R28). -/
def sourceWaits (s : State) (c : Ctx) (i : Instr) : Bool :=
  (s.tile c.t).sys.gm && (sources i).any ((s.tile c.t).pending c.now)

/-- Whether an operation stalls its bundle (R28, R32); `before` counts what the other V or C slot of the issue puts
into a shared list first. -/
def opStalls (s : State) (c : Ctx) (i : Instr) (before : Nat) : Bool :=
  sourceWaits s c i
    || (match slotFor i with
        | some .s => scalarStall s c i
        | some .v0 | some .x => vectorStall s c i before
        | some .m => matrixStall s c i
        | some .c0 => copyStall s c i before
        | some .d => vaultStall s c i
        | _ => false)

/-- Issue faults (R58). -/
def issueTrap (s : State) (c : Ctx) (i : Instr) (before : Nat) : Option TrapReq :=
  match slotFor i with
  | some .s => (scalarFault s c i).map (trapOf c.slot)
  | some .v0 | some .x => vectorFault s c i before
  | some .m => matrixFault s c i
  | some .c0 => copyFault s c i before
  | some .d => vaultFault s c i
  | _ => none

/-- What one operation's checks find: the registers it waits for, decode traps, what else it waits for, then issue faults
(R28, R58). -/
def verdict (s : State) (c : Ctx) (i : Instr) : Verdict :=
  if sourceWaits s c i then .stall
  else match decodeTrap s c i with
  | some r => .trap r
  | none =>
    if opStalls s c i 0 then .stall
    else match issueTrap s c i 0 with
      | some r => .trap r
      | none => .go

/-- A refused issue: the trap, and, for trap 0x05 of the S slot, the open line region discarded with the flights
of its loads (R58, R132). -/
def State.refuse (s : State) (t : Nat) (r : TrapReq) : State :=
  (if r.code = 0x05 && r.slot = 0 then s.onTile t Tile.dropRegion else s).trapAt t r

/-- THE FORM OF EVERY SLOT OPERATION. Its checks find it able to go, and its effect takes place; or it waits, and
nothing changes; or it traps. A bundle's issue makes the checks for all its slots first (R58), and then only the
effect is left. -/
def runSlot (i : Instr) (s : State) (eff : Ctx → State → State) : Host.Outcome State Fault Refusal :=
  let c := s.ctx i
  if s.focus.checked then .next (eff c s).nextFree
  else match verdict s c i with
    | .go => .next (eff c s).nextFree
    | .stall => .next s
    | .trap r => .next (s.refuse c.t r)

end Sys2Proof.Machine
end

