-- ==== Sys2Proof/Machine/Operands.lean ====
section
/-! DEFINITION. Elements of registers, the forms of V and X operations, block formats and the window sum
(R78, R79, R82 to R84, R99, R104, R190 to R192). -/

namespace Sys2Proof.Machine

/-! ### Elements -/

/-- The first n elements of a register of k-bit elements (R190). -/
def elems (v : VReg) (k n : Nat) : List Nat := (List.range n).map fun i => elem v k i

/-- k-bit elements side by side, element 0 lowest (R190). -/
def packElems (k : Nat) : List Nat → Nat
  | [] => 0
  | x :: r => x % 2 ^ k + packElems k r * 2 ^ k

/-- A register of k-bit elements. -/
def packReg (k : Nat) (xs : List Nat) : VReg := BitVec.ofNat 8192 (packElems k xs)

/-- The bits of a register that inactive elements keep, of n elements of k bits. -/
def keepOf (k n : Nat) (act : MReg) : VReg :=
  packReg k ((List.range n).map fun i => if act.getLsbD i then 0 else 2 ^ k - 1)

/-- A mask whose bits are those of a list. -/
def packMask (bs : List Bool) : MReg := BitVec.ofNat 1024 (packElems 1 (bs.map Bool.toNat))

/-- Whether the tile flushes subnormals: open mode (R71). -/
def State.flushes (s : State) (c : Ctx) : Bool := !(s.tile c.t).sys.gm

/-- The elements that raise each exception (R79). -/
def Check.ofFlags (dec : Bool) (fl : List Flags) : Check :=
  { dec := dec, raised := (List.range 5).map fun k => packMask (fl.map fun f => f.getLsbD k) }

/-- All the flags of the elements of an operation. -/
def anyFlags (fl : List Flags) : Flags := fl.foldl (· ||| ·) 0

/-- Bits [8w − 1:0] of the first enabled exception that elements raised, and the trap's code and mask (R79, R80). -/
def Check.trap (k : Check) (slot : Nat) (en : BitVec 5) : Option TrapReq :=
  let on := fun i => en.getLsbD i && k.raised.getD i 0 != 0
  match (List.range 5).find? on with
  | none => none
  | some i =>
    some { code := (if k.dec then 0x38 else 0x30) + i, slot := slot
           mask := (List.range 5).foldl (fun m j => if on j then m ||| k.raised.getD j 0 else m) 0 }

/-- Bits of an element of a format code (R190). -/
def codeBits (code : Nat) : Nat :=
  match fmtOf code, intBits code with
  | some f, _ => f.width
  | _, some k => k
  | _, _ => 64

/-! ### Operations in flight on the vector clock -/

/-- An arithmetic result in flight: its writes, the flags of its elements, and whether it is trap-checked
(R75, R78, R79). -/
def State.flightArith (s : State) (c : Ctx) (lat : Nat) (ws : List Write) (fl : List Flags) (dec : Bool) : State :=
  let x := s.tile c.t
  let all := anyFlags fl
  let en := if dec then x.sys.dtrapen else x.sys.ftrapen
  let (id, s) := s.fresh
  s.onTile c.t (·.launchFlight
    { id := id, slot := c.slot, issue := c.now, ready := c.now + 1, bound := c.now + lat * x.divisor 2
      dests := ws.map Write.loc, writes := ws
      bflags := if dec then 0 else all, dflags := if dec then all.setWidth 5 else 0
      check := if x.sys.gm && en != 0 then some (Check.ofFlags dec fl) else none })

/-- A result in flight that raises no flag. -/
def State.flightV (s : State) (c : Ctx) (i : Instr) (ws : List Write) : State :=
  s.flight c ((vectorTime i).1 * (s.tile c.t).divisor 2) ws

/-- The unit of the operation is taken for its interval (R192). -/
def State.takeVector (s : State) (c : Ctx) (i : Instr) : State :=
  let n := c.now + (vectorTime i).2 * (s.tile c.t).divisor 2
  s.onSeq c.t fun q =>
    if c.slot = 7 then { q with xFree := n } else { q with vFree := vset q.vFree (c.slot - 1) n }

/-- The form of a V or X operation's meaning (R192). -/
def runVector (i : Instr) (s : State) (eff : Ctx → State → State) : Host.Outcome State Fault Refusal :=
  runSlot i s fun c s => (eff c s).takeVector c i

/-- The active elements of a result, with no flag of the inactive (R78, R191). -/
def onActive (act : MReg) (rs : List (Nat × Flags)) : List Nat × List Flags :=
  let ys := (List.range rs.length).map fun i => if act.getLsbD i then rs.getD i (0, 0) else (0, 0)
  (ys.map (·.1), ys.map (·.2))

/-- A floating-point or decimal operation on the elements of its sources (R195, R213). -/
def State.mapArith (s : State) (c : Ctx) (i : Instr) (f : VR) (dec : Bool) (op : Nat → Nat → Nat → Nat × Flags) :
    State :=
  let n := tyCount f.ty
  let k := 8 * tyWidth f.ty
  let act := s.active c f.m f.me
  let a := s.readV c f.a.toNat
  let b := s.readV c f.b.toNat
  let cc := s.readV c f.c.toNat
  let rs := (List.range n).map fun j =>
    if act.getLsbD j then op (elem a k j) (elem b k j) (elem cc k j) else (0, 0)
  s.flightArith c (vectorTime i).1 [.v f.d.toNat (keepOf k n act) (packReg k (rs.map (·.1)))] (rs.map (·.2)) dec

/-- An operation that raises no flag on the elements of its sources (R197). -/
def State.mapBits (s : State) (c : Ctx) (i : Instr) (f : VR) (op : Nat → Nat → Nat → Nat) : State :=
  let n := tyCount f.ty
  let k := 8 * tyWidth f.ty
  let act := s.active c f.m f.me
  let a := s.readV c f.a.toNat
  let b := s.readV c f.b.toNat
  let rs := (List.range n).map fun j => op k (elem a k j) (elem b k j)
  s.flightV c i [.v f.d.toNat (keepOf k n act) (packReg k rs)]

/-- A compare into a mask: bits of inactive elements and above n are 0 (R199, R214). -/
def State.compare (s : State) (c : Ctx) (i : Instr) (f : VK) (arith dec : Bool) (op : Nat → Nat → Nat → Bool × Flags) :
    State :=
  let n := tyCount f.ty
  let k := 8 * tyWidth f.ty
  let act := s.active c f.m f.me
  let a := s.readV c f.a.toNat
  let b := s.readV c f.b.toNat
  let rs := (List.range n).map fun j =>
    if act.getLsbD j then op k (elem a k j) (elem b k j) else (false, 0)
  let w := [Write.m f.md.toNat (packMask (rs.map (·.1)))]
  if arith then s.flightArith c (vectorTime i).1 w (rs.map (·.2)) dec else s.flightV c i w

/-! ### Reductions (R104 to R106) -/

/-- One level of the tree: pairs combined, an absent operand giving way to the other. A value carries the lowest
active index beneath it, which its flags are charged to. -/
def treeLevel (comb : Nat → Nat → Nat × Flags) :
    List (Option (Nat × Nat)) → List (Option (Nat × Nat)) × List (Nat × Flags)
  | some x :: some y :: r =>
    let z := comb x.1 y.1
    let t := treeLevel comb r
    (some (z.1, x.2) :: t.1, (x.2, z.2) :: t.2)
  | none :: y :: r => let t := treeLevel comb r; (y :: t.1, t.2)
  | x :: none :: r => let t := treeLevel comb r; (x :: t.1, t.2)
  | r => (r, [])

/-- The tree, over at most 2^k values: its value, if any, and the flags of its combinations. -/
def treeOf (comb : Nat → Nat → Nat × Flags) : Nat → List (Option (Nat × Nat)) → Option Nat × List (Nat × Flags)
  | 0, xs => ((xs.head?.join).map (·.1), [])
  | k + 1, xs =>
    let t := treeLevel comb xs
    let u := treeOf comb k t.1
    (u.1, t.2 ++ u.2)

/-- The active elements of a register as leaves of the tree. -/
def leavesOf (xs : List Nat) (act : Nat → Bool) : List (Option (Nat × Nat)) :=
  (List.range xs.length).map fun i => if act i then some (xs.getD i 0, i) else none

/-- Flags charged to elements, as a list by element. -/
def chargeFlags (n : Nat) (fs : List (Nat × Flags)) : List Flags :=
  let gs := fs.filter fun e => e.2 != 0
  (List.range n).map fun i => anyFlags ((gs.filter fun e => e.1 == i).map (·.2))

/-! ### Block formats -/

/-- The nibble of a byte string at an element (R82, R83). -/
def nibbleAt (bs : List Byte) (e : Nat) : Nat :=
  let b := (bs.getD (e / 2) 0).toNat
  if e % 2 = 0 then b % 16 else b / 16

/-- An INT4G element: scale × (q − z), as an exact value (R82, R217). -/
def int4gValue (flush : Bool) (scale q z : Nat) : Fp × Flags :=
  let a := fp16.read flush scale
  let d : Int := (q : Int) - z
  let v : Fp × Flags := match a.1 with
    | .nan neg sig frac => (.nan neg sig frac, flagsIf sig fIv)
    | .inf neg => if d = 0 then (.nan false false (2 ^ 9), fIv) else (.inf (neg != decide (d < 0)), 0)
    | .num neg m e => if d = 0 then (.num false 0 0, 0) else (.num (neg != decide (d < 0)) (m * d.natAbs) e, 0)
  (v.1, v.2 ||| a.2)

/-- A value in a format, from one read in another. -/
def Fmt.ofFp (g : Fmt) (src : Fmt) (flush : Bool) (rm : Rm) : Fp → Nat × Flags
  | .nan neg _ frac => (src.carryNan g neg frac, 0)
  | .inf neg => (g.inf neg, 0)
  | .num neg m e => g.value flush rm neg m 1 e

/-- An element of an INT4G block of group size g that stands at a byte of a string: FP32 (R82, R217). -/
def int4gElem (bs : List Byte) (g : Nat) (flush : Bool) (e : Nat) : Nat × Flags :=
  let blk := (bs.drop (e / g * (g / 2 + 4))).take (g / 2 + 4)
  let v := int4gValue flush (leNat ((blk.drop (g / 2)).take 2)) (nibbleAt blk (e % g)) ((blk.getD (g / 2 + 2) 0).toNat % 16)
  let r := fp32.ofFp fp16 false .rne v.1
  (r.1, v.2)

/-- The value of an MX element (R84). -/
def mxValue (g : Fmt) (scale x : Nat) : Fp :=
  if scale = 0xFF then .nan false false (2 ^ (g.mw - 1))
  else match g.unpack x with
    | .num neg m e => .num neg m (e + (scale : Int) - 127)
    | y => y

/-- The encoding of a block of inputs of format f: the scale byte, the element codes, and the flags of each element
(R84). -/
def mxEncode (f g : Fmt) (emax : Nat) (flush : Bool) (xs : List Nat) : Nat × List (Nat × Flags) :=
  let rs := xs.map (f.read flush)
  let odd := rs.any fun r => match r.1 with | .num _ _ _ => false | _ => true
  if odd then
    (0xFF, rs.map fun r => (0, r.2 ||| (match r.1 with
      | .inf _ => fIv
      | .nan _ sig _ => flagsIf sig fIv
      | .num _ _ _ => 0)))
  else
    let tops := rs.filterMap fun r => match r.1 with
      | .num _ m e => if m = 0 then none else some (floorLog m 1 + e)
      | _ => none
    match tops with
    | [] => (0, rs.map fun r => ((match r.1 with | .num neg _ _ => g.sign neg | _ => 0), r.2))
    | t :: ts =>
      let x := max (-127) (min 127 (ts.foldl max t - emax))
      ((x + 127).toNat, rs.map fun r => match r.1 with
        | .num neg m e =>
          let v := g.value false .rne neg m 1 (e - x)
          ((if v.2 &&& fOf != 0 then g.largest neg else v.1), r.2 ||| (v.2 &&& fNx))
        | _ => (0, r.2))

/-! ### The window sum (R99) -/

/-- A term: NaN, ∞ × 0, an infinity, or the exact value m × 2^e. -/
inductive Term where
  | nan
  | invalid
  | inf (neg : Bool)
  | num (m : Int) (e : Int)
  deriving DecidableEq, Repr

/-- An operand element as the matrix engine reads it: a subnormal is a zero (R71). -/
def termOf (f : Fmt) (x : Nat) : Term :=
  if f.isSub x then .num 0 0
  else match f.unpack x with
    | .nan _ _ _ => .nan
    | .inf neg => .inf neg
    | .num neg m e => .num (if neg then -(m : Int) else m) e

/-- An exact product (R99). -/
def Term.mul : Term → Term → Term
  | .nan, _ | _, .nan => .nan
  | .invalid, _ | _, .invalid => .invalid
  | .inf a, .inf b => .inf (a != b)
  | .inf a, .num m _ | .num m _, .inf a => if m = 0 then .invalid else .inf (a != decide (m < 0))
  | .num m e, .num k d => .num (m * k) (e + d)

/-- A term scaled by a power of 2. -/
def Term.scale (k : Int) : Term → Term
  | .num m e => .num m (e + k)
  | t => t

/-- A result of the matrix engine: rounded RNE, zero of its sign with fz where it is below the smallest normal; it
raises iv, of and fz alone (R71, R79, R99). -/
def matrixRound (neg : Bool) (n : Nat) (e : Int) : Nat × Flags :=
  let r := fp32.round true .rne neg n 1 e
  (r.1, r.2 &&& (fOf ||| fFz))

/-- The window sum of terms (R99). -/
def windowSum (ts : List Term) : Nat × Flags :=
  let pos := ts.any (· == .inf false)
  let neg := ts.any (· == .inf true)
  let iv := ts.any (· == .invalid) || (pos && neg)
  if iv || ts.any (· == .nan) then (fp32.dnan, flagsIf iv fIv)
  else if pos || neg then (fp32.inf neg, 0)
  else
    let tops := ts.filterMap fun t => match t with
      | .num m e => if m = 0 then none else some ((Nat.log2 m.natAbs : Int) + e)
      | _ => none
    match tops with
    | [] => (0, 0)
    | t :: r =>
      let q := r.foldl max t - 54
      let sum : Int := ts.foldl (fun a t => match t with
        | .num m e =>
          let k := m.natAbs * 2 ^ (e - q).toNat / 2 ^ (q - e).toNat
          if m < 0 then a - k else a + k
        | _ => a) 0
      if sum = 0 then (0, 0) else matrixRound (sum < 0) sum.natAbs q

end Sys2Proof.Machine
end

