-- ==== Sys2Proof/Machine/Transform.lean ====
section
/-! DEFINITION. The X slot's operations and the denomination decoder (R86 to R89, R216 to R226). -/

namespace Sys2Proof.Machine

/-- Flags set at once (R74, R78). -/
def Tile.raise (x : Tile) (f : Flags) : Tile :=
  { x with sys := { x.sys with fpsr := x.sys.fpsr ||| f }
           seq := { x.seq with landedB := x.seq.landedB ||| f } }

/-- A fault that an engine finds, raised on the next island cycle (R225, R245, R279). -/
def State.found (s : State) (t : Nat) (r : TrapReq) : State :=
  s.onSeq t fun q => { q with faults := q.faults ++ [(s.icc t + 1, r)] }

/-- The first fault found for a slot is raised, once its cycle has come, at the bundle that issues or waits. -/
def State.raiseFound (s : State) (t : Nat) (p : TrapReq → Bool) : State :=
  match (s.tile t).seq.faults.find? fun e => p e.2 && e.1 ≤ s.icc t with
  | none => s
  | some e => (s.trapWaiting t e.2).onSeq t fun q => { q with faults := q.faults.erase e }

/-! ### X-slot meanings -/

/-- X_NOP: the X latch is idle (R45, R216). -/
def execXNop (s : State) : Host.Outcome State Fault Refusal :=
  runSlot .xNop s fun c s => s.onSeq c.t fun q =>
    { q with latches := vset q.latches 7 { } }

/-- XUNP4: R217. -/
def execXunp4 (f : XV) (s : State) : Host.Outcome State Fault Refusal :=
  runVector (.xunp4 f) s fun c s =>
    let bs := leBytes 1024 (s.readV c f.a.toNat).toNat
    let g := unpGroup (f.low.toNat / 64)
    let rs := (List.range 512).map fun e => int4gElem bs g (s.flushes c) e
    s.flightArith c (vectorTime (.xunp4 f)).1
      [.v f.d.toNat 0 (packReg 32 ((rs.take 256).map (·.1))),
       .v (f.d.toNat + 1) 0 (packReg 32 ((rs.drop 256).map (·.1)))] (rs.map (·.2)) false

/-- XPOSE: R218. -/
def execXpose (f : XV) (s : State) : Host.Outcome State Fault Refusal :=
  runVector (.xpose f) s fun c s =>
    let ty := f.low.extractLsb' 5 3
    let k := 8 * tyWidth ty
    let n := tyCount ty
    let a := s.readV c f.a.toNat
    s.flightV c (.xpose f)
      [.v f.d.toNat 0 (packReg k ((List.range n).map fun e => elem a k (e % 16 * (n / 16) + e / 16)))]

/-- XCVT: R219. -/
def execXcvt (f : XV) (s : State) : Host.Outcome State Fault Refusal :=
  runVector (.xcvt f) s fun c s =>
    let src := f.low.toNat / 16
    let dst := f.low.toNat % 16
    let n := min (8192 / codeBits src) (8192 / codeBits dst)
    let a := s.readV c f.a.toNat
    let rs := (List.range n).map fun j => convert src dst (s.flushes c) .rne false (elem a (codeBits src) j)
    let w := [Write.v f.d.toNat 0 (packReg (codeBits dst) (rs.map (·.1)))]
    if (fmtOf src).isSome || (fmtOf dst).isSome then
      s.flightArith c (vectorTime (.xcvt f)).1 w (rs.map (·.2)) false
    else s.flightV c (.xcvt f) w

/-- XMX: R220. -/
def execXmx (f : XV) (s : State) : Host.Outcome State Fault Refusal :=
  runVector (.xmx f) s fun c s =>
    let a := s.readV c f.a.toNat
    let fp4 := f.low.getLsbD 7
    let bs := (List.range 8).map fun b =>
      mxEncode fp32 (if fp4 then e2m1 else e4m3) (if fp4 then 2 else 8) (s.flushes c)
        ((List.range 32).map fun j => elem a 32 (32 * b + j))
    let rs := bs.flatMap (·.2)
    let k := if fp4 then 4 else 8
    s.flightArith c (vectorTime (.xmx f)).1
      [.v f.d.toNat 0 (BitVec.ofNat 8192
        (packElems k (rs.map (·.1)) + packElems 8 (bs.map (·.1)) * 2 ^ (256 * k)))] (rs.map (·.2)) false

/-- XDRF: one request joins the decoder's list (R221). -/
def execXdrf (f : XF) (s : State) : Host.Outcome State Fault Refusal :=
  runVector (.xdrf f) s fun c s =>
    let (id, s) := s.fresh
    s.onTile c.t fun x => { x with eng := { x.eng with drf := { x.eng.drf with reqs := x.eng.drf.reqs ++
      [{ id := id, f := f.f.toNat, q := f.q.toNat, ratio := f.ratio.toNat + 1, issue := c.now }] } } }

/-! ### The denomination decoder -/

/-- Queue entries: a position, a group-boundary token, a row token (R222). -/
def positionEntry (p : Nat) : BitVec 32 := BitVec.ofNat 32 p
def groupEntry (g : Nat) (v : BitVec 16) : BitVec 32 := BitVec.ofNat 32 (2 ^ 30 + g * 2 ^ 16 + v.toNat)
def rowEntry (k : Nat) : BitVec 32 := BitVec.ofNat 32 (2 ^ 31 + (k - 1))

/-- A row header (R86, R88). -/
def DrfRow.header (r : DrfRow) (w : Nat) : DrfRow :=
  let empty := w / 2 ^ 11 % 2 == 1
  let g := w / 2 ^ 12 % 64
  let r := { r with k := w / 2 ^ 18 + 1, groups := g + 1 }
  if w % 2 ^ 11 ≠ 0 || (empty && g ≠ 0) then { r with err := some 0x45 }
  else { r with stage := if empty then 4 else 1 }

/-- A group header (R87, R88). -/
def DrfRow.groupHeader (r : DrfRow) (w : Nat) : DrfRow :=
  let v := BitVec.ofNat 16 (w / 2 ^ 16)
  let ex := v.toNat / 2 ^ 7 % 256
  if ex = 0 || ex = 255 || r.values.contains v || w % 2 = 1 then { r with err := some 0x46 }
  else { r with stage := 2, bitmap := w / 2 % 2 == 1, value := v, left := w / 4 % 2 ^ 14 + 1, pos := 0
                values := r.values ++ [v] }

/-- A position is checked and emitted (R88). -/
def DrfRow.place (r : DrfRow) (p : Nat) : DrfRow :=
  if r.k ≤ p then { r with err := some 0x47 }
  else if r.seen.getLsbD p then { r with err := some 0x48 }
  else { r with seen := r.seen ||| BitVec.twoPow 16384 p, emit := r.emit ++ [positionEntry p], left := r.left - 1 }

/-- The bits of a bitmap word, in ascending order (R87, R88). -/
def DrfRow.bits (r : DrfRow) (w : Nat) : Nat → DrfRow
  | 0 => r
  | n + 1 =>
    let r := r.bits w n
    if r.err.isSome || w / 2 ^ n % 2 = 0 then r
    else if r.left = 0 then { r with err := some 0x47 }
    else r.place (r.pos + n)

/-- Bytes that the next piece of the row takes from the FIFO, from the bytes that stand there. -/
def DrfRow.wants (r : DrfRow) (bs : List Byte) : Nat :=
  if r.stage = 3 then (4 - r.used % 4) % 4
  else if r.stage = 4 then 0
  else if r.stage < 2 || r.bitmap then 4
  else if bs.head? = some 0 then 3 else 1

/-- The row after its next piece: a header, a position of a delta group, a word of a bitmap, padding with the token
that follows, or the row token (R86 to R89). -/
def DrfRow.piece (r : DrfRow) (bs : List Byte) : DrfRow :=
  let w := leNat bs
  let used := r.used + bs.length
  let blk := (used - 1) / 256
  let r := { r with used := used, block := blk, charge := if blk = r.block then r.charge else 0 }
  if r.stage = 0 then r.header w
  else if r.stage = 1 then r.groupHeader w
  else if r.stage = 2 then
    if r.bitmap then
      let r := r.bits w 32
      let r := { r with pos := r.pos + 32 }
      if r.err.isSome || r.pos < r.k then r
      else if r.left ≠ 0 then { r with err := some 0x47 } else { r with stage := 3 }
    else
      let p := if bs.length = 3 then w / 256 else r.pos + w - 1
      let r := if bs.length = 3 && p < r.pos then { r with err := some 0x47 } else r.place p
      if r.err.isSome then r
      else { r with pos := p + 1, stage := if r.left = 0 then 3 else 2 }
  else if r.stage = 3 then
    { r with emit := r.emit ++ [groupEntry r.group r.value], group := r.group + 1
             stage := if r.group + 1 < r.groups then 1 else 4 }
  else { r with emit := r.emit ++ [rowEntry r.k], stage := 5 }

/-- The state with a tile's decoder changed. -/
def State.onDrf (s : State) (t : Nat) (f : Drf → Drf) : State :=
  s.onTile t fun x => { x with eng := { x.eng with drf := f x.eng.drf } }

/-- Where the decoder can go on: at work, a request, nothing waiting to be emitted, and the bytes of its row's next
piece in the FIFO. -/
def Tile.drfReady (x : Tile) : Option (DrfReq × DrfRow × List Byte × Nat) :=
  match x.working, x.eng.drf.reqs with
  | true, q :: _ =>
    let r := x.eng.drf.row.getD { }
    let bs := vget [] x.eng.df q.f
    let n := r.wants bs
    if r.emit.isEmpty && r.err.isNone && n ≤ bs.length then some (q, r, bs, n) else none
  | _, _ => none

/-- The decoder's list after a request has ended; its count of rows starts again once the list is empty (R225). -/
def Drf.ended (d : Drf) (now : Nat) : Drf :=
  { d with reqs := d.reqs.tail, row := none, rowsDone := if d.reqs.length ≤ 1 then 0 else d.rowsDone + 1
           endedAt := now }

/-- DRF_ROW_DECODE: the decoder takes the next piece of the row of its first request from the FIFO, whose bytes are
freed; an error stops the row once what stands before it has been emitted. Disabled without a request or without the
bytes (R221 to R225, log entries 5, 7). -/
def execDrfRowDecode (t : Nat) (s : State) : Host.Outcome State Fault Refusal :=
  if t ≥ Config.tiles then .fault .noSuchPart
  else
    match (s.tile t).drfReady with
    | none => .next s
    | some (q, r, bs, n) =>
      let r := r.piece (bs.take n)
      let s := s.onTile t fun x => { x with eng := { x.eng with
        df := vset x.eng.df q.f (bs.drop n), drf := { x.eng.drf with row := some r } } }
      match r.err, r.emit with
      | some e, [] => .next (s.found t { code := e, slot := 7 })
      | _, _ => .next s

/-- DECODER_ENTRY_EMIT: the first waiting entry goes to the queue if it has room, an entry popped on this cycle leaving its
slot from the next one on; one that would bring its block's
charge above the ratio is not emitted and faults, whether or not the queue has room (log entry 107). After the row token the request ends (R222, R223, R226, R242). -/
def execDecoderEntryEmit (t : Nat) (s : State) : Host.Outcome State Fault Refusal :=
  if t ≥ Config.tiles then .fault .noSuchPart
  else
    let x := s.tile t
    match x.working, x.task, x.eng.drf.reqs, x.eng.drf.row with
    | true, some k, q :: _, some r =>
      match r.emit with
      | [] => .next s
      | e :: rest =>
        let into := vget [] x.eng.q q.q
        let taken := into.length + x.eng.pops.count (s.icc t, q.q)
        if q.ratio * 256 ≤ r.charge then .next (s.found t { code := 0x42, slot := 7 })
        else if k.qOcc q.q ≤ taken then .next s
        else
          let r := { r with emit := rest, charge := r.charge + 1 }
          let s := s.onTile t fun x => { x with eng := { x.eng with
            q := vset x.eng.q q.q (into ++ [e])
            drf := if r.stage = 5 then x.eng.drf.ended (s.icc t) else { x.eng.drf with row := some r } } }
          match r.err, rest with
          | some e, [] => .next (s.found t { code := e, slot := 7 })
          | _, _ => .next s
    | _, _, _, _ => .next s

/-- DECODER_TRAP: the decoder's fault is raised on the next island cycle (R225). -/
def execDecoderTrap (t : Nat) (s : State) : Host.Outcome State Fault Refusal :=
  if t ≥ Config.tiles then .fault .noSuchPart
  else .next (s.raiseFound t fun r => r.slot == 7 && (r.code == 0x42 || (0x45 ≤ r.code && r.code ≤ 0x48)))

end Sys2Proof.Machine
end

