-- ==== Sys2Proof/Machine/Global.lean ====
section
/-! DEFINITION. Global memory: translation, tiers, keys, writer tags, and atomics at the home of their line
(R107, R126 to R131, R252 to R258, R279 to R284, R308 to R311). -/

namespace Sys2Proof.Machine

/-! ### Lines at their home (R258) -/

/-- A host window's byte address in node memory, if an open window holds the address (R255, R360). -/
def State.hostAddr (s : State) (a : Nat) : Option Nat :=
  (s.windows.find? fun w => w.1 ≤ a / 65536 && a / 65536 < w.1 + w.2.1).map fun w => a + w.2.2 * 65536 - w.1 * 65536

/-- The failure at its home of an access whose page has translated: 0x72 in a failed vault, 0x28 through a unit that is down, 0x26
outside every window (R255, R371, R376). -/
def State.homeFault (s : State) (l : Leaf) (va : Nat) : Option Nat :=
  let a := l.phys va
  if l.tier = 0 then if (s.tile (a / Config.vaultBytes)).vault.failed then some 0x72 else none
  else if l.tier = 1 then if s.unitsDown.contains (s.tier2Home (a / 65536)) then some 0x28 else none
  else if (s.hostAddr a).isNone then some 0x26 else none

/-- The failure of an access at an address of a page that has been translated: 0x24 where a task of world 0 comes to a frame of a
secure region, else a failure at its home (R256, R279, R362). -/
def State.frameFault (s : State) (t : Nat) (l : Leaf) (va : Nat) : Option Nat :=
  let secure := match (s.tile t).task with | some k => k.world | none => false
  if !secure && s.regionHas (some (stackOf t)) l.tier (l.phys va / 65536) 62 then some 0x24 else s.homeFault l va

/-- The home of an address of a translated page. -/
def State.homeOf (s : State) (l : Leaf) (va : Nat) : Option Nat := homeOfLine s.tier2Home l.tier (l.phys va / 64)

/-- Whether a home is free for a request, and the home's move; a page without a home waits for none. -/
def State.portFree (s : State) (h : Option Nat) : Bool := match h with | some h => s.homeFree h | none => true
def State.portMoves (s : State) (h : Option Nat) (t lines : Nat) : State := match h with
  | some h => s.homeMoves h t lines
  | none => s

/-- The bound on an atomic from its issue, by the home of its line (R128). -/
def atomicBound (t : Nat) (l : Leaf) (va : Nat) : Nat :=
  if l.tier = 0 then if stackOf (l.phys va / Config.vaultBytes) = stackOf t then 1400 else 2200 else 5200

/-- The 64-byte line of an address: in an encrypted tier, what the stored line reads as under the key of the page's slot
(R258, log entry 9). -/
def State.readLine (s : State) (l : Leaf) (va : Nat) : List Byte :=
  if l.tier < 2 then s.lineUnder (look 0 l.key s.keys) l.tier (l.phys va / 64)
  else match s.hostAddr (l.phys va / 64 * 64) with
    | some h => readBytes s.hostMem h 64
    | none => leBytes 64 (s.undef (10 ^ 9 + l.phys va / 64))

/-- The line written whole. -/
def State.writeLine (s : State) (l : Leaf) (va : Nat) (bs : List Byte) : State :=
  if l.tier < 2 then s.putLine (look 0 l.key s.keys) l.tier (l.phys va / 64) bs
  else match s.hostAddr (l.phys va / 64 * 64) with
    | some h => { s with hostMem := writeBytes s.hostMem h bs }
    | none => s

/-- Bytes of a line from an address on, and a line with some of its bytes replaced. -/
def State.readPart (s : State) (l : Leaf) (va n : Nat) : List Byte := ((s.readLine l va).drop (va % 64)).take n
def State.writePart (s : State) (l : Leaf) (va : Nat) (bs : List Byte) : State :=
  let line := s.readLine l va
  s.writeLine l va (line.take (va % 64) ++ bs ++ line.drop (va % 64 + bs.length))

/-! ### Writer tags (R308 to R311) -/

/-- Who accesses: the serial's low 16 bits, the role, E mod 8,192. -/
structure Actor where
  serial : Nat
  role : Nat
  epoch : Nat
  deriving DecidableEq, Repr

/-- The actor of a tile's task. -/
def State.actor (s : State) (t : Nat) : Actor :=
  match (s.tile t).task with
  | some k => { serial := k.serial, role := k.role, epoch := (s.tile t).bar.epoch }
  | none => { serial := 0, role := 0, epoch := 0 }

/-- The tag of an actor. -/
def Actor.tag (a : Actor) (atom : Bool) : BitVec 48 :=
  BitVec.ofNat 48 (a.serial % 65536 * 2 ^ 32 + atom.toNat * 2 ^ 31 + a.role % 2048 * 2 ^ 20 + a.epoch % 8192)

/-- A tag's fields, and whether it is current for an actor (R308). -/
def tagAtomic (g : BitVec 48) : Bool := g.getLsbD 31
def tagRole (g : BitVec 48) : Nat := (g.extractLsb' 20 11).toNat
def Actor.current (a : Actor) (g : BitVec 48) : Bool :=
  (g.extractLsb' 32 16).toNat == a.serial % 65536 && (g.extractLsb' 0 13).toNat == a.epoch % 8192

/-- A report of 0x29 to 0x2B: it is logged, the first 64 of a launch are kept, and all are counted (R311, R380). -/
def State.epochReport (s : State) (a : Actor) (code va kind : Nat) (g : BitVec 48) : State :=
  let place := match s.launch a.serial with | some l => l.tiles.getD a.role 0 | none => 0
  (s.logIt 15 code place va).onLaunch a.serial fun l =>
    let r : EpochReport := { code := code, va := va, kind := kind, role := a.role, tagRole := tagRole g, epoch := a.epoch }
    { l with reports := if l.reports.length < 64 then l.reports ++ [r] else l.reports
             nrep := Nat.min (2 ^ 32 - 1) (l.nrep + 1) }

/-- A plain write unit at a line: whether it performs (R309). -/
def State.tagWrite (s : State) (a : Actor) (line va : Nat) : Bool × State :=
  let g := look 0 line s.tags
  let retag := fun (s : State) => { s with tags := put 0 line (a.tag false) s.tags }
  if !a.current g then (true, retag s)
  else if tagAtomic g then (true, retag (s.epochReport a 0x2A va 1 g))
  else if tagRole g = a.role then (true, s)
  else
    let s := s.epochReport a 0x29 va 1 g
    if tagRole g < a.role then (true, retag s) else (false, s)

/-- An atomic at a line (R309). -/
def State.tagAtom (s : State) (a : Actor) (line va : Nat) : State :=
  let g := look 0 line s.tags
  if !a.current g || tagAtomic g then { s with tags := put 0 line (a.tag true) s.tags }
  else if tagRole g = a.role then s
  else s.epochReport a 0x2A va 2 g

/-- Whether a read issued on a pcc cycle, by any tile, is ordered after the last write unit of a line: some task had read the
generation that the unit's counting advanced to (R277, R310). -/
def State.seesLine (s : State) (asked line : Nat) : Bool :=
  s.ordered.any fun o => o.line == line && (match o.seenAt with | some c => decide (c < asked) | none => false)

/-- A read unit of a whole line: its bytes, undefined where it meets another's current tag and no arrival word orders it after
the write (R288, R310). -/
def State.readUnit (s : State) (a : Actor) (l : Leaf) (va : Nat) (after : Bool) : List Byte × State :=
  let g := look 0 (l.phys va / 64) s.tags
  if l.ep && a.current g && (tagAtomic g || tagRole g != a.role) then
    (if after then s.readLine l va else leBytes 64 (s.undef (2 * 10 ^ 9 + va / 64)), s.epochReport a 0x2B va 0 g)
  else (s.readLine l va, s)

/-- The state once another write has come to a line: no arrival word orders a read after what stands there (R310). -/
def State.unordered (s : State) (line : Nat) : State := { s with ordered := s.ordered.filter fun o => o.line != line }

/-- A write unit of a whole line; a discarded one changes nothing (R309). -/
def State.writeUnit (s : State) (a : Actor) (l : Leaf) (va : Nat) (bs : List Byte) : State :=
  if l.ep then
    let r := s.tagWrite a (l.phys va / 64) va
    if r.1 then (r.2.writeLine l va bs).unordered (l.phys va / 64) else r.2
  else s.writeLine l va bs

/-! ### Faults in global traffic (R279) -/

/-- A fault found at a home, for the instruction of a slot; the report of its trap carries the address and the kind of access
(R279, R345). -/
def State.globalFound (s : State) (t slot code va kind : Nat) (mask : BitVec 1024) : State :=
  (if code = 0x72 then s.reportFault 7 1 0x72 t else s).found t
    { code := code, slot := slot, mask := mask, access := some (va, kind) }

/-- Codes raised under R279. -/
def isGlobalCode (c : Nat) : Bool := (0x20 ≤ c && c ≤ 0x26) || c == 0x28 || c == 0x2D || c == 0x44 || c == 0x72

/-! ### Atomics (R126, R107) -/

/-- The new memory value of an atomic of k bits: m in memory, n the operand, e the expected value. -/
def AOp.apply (op : AOp) (k m n e : Nat) : Nat :=
  let f := if k = 32 then fp32 else fp64
  match op with
  | .add => (m + n) % 2 ^ k
  | .and => m &&& n
  | .or => m ||| n
  | .xor => m ^^^ n
  | .min => if sext k n < sext k m then n else m
  | .max => if sext k m < sext k n then n else m
  | .minu => if n < m then n else m
  | .maxu => if m < n then n else m
  | .fadd => (f.bin false (f.addFp false .rne) m n).1
  | .fmin => (f.extreme false false m n).1
  | .fmax => (f.extreme false true m n).1
  | .swp => n
  | .cas => if m = e then n else m

/-- One atomic at an address of a translated page: the old value, and the state after it. -/
def State.performAtomic (s : State) (a : Actor) (l : Leaf) (va size : Nat) (op : AOp) (n e : Word) : Nat × State :=
  let k := 8 * size
  let old := leNat (s.readPart l va size)
  let new := op.apply k old (n.toNat % 2 ^ k) (e.toNat % 2 ^ k)
  let s' := s.writePart l va (leBytes size new)
  (old, if l.ep then (s'.tagAtom a (l.phys va / 64) va).unordered (l.phys va / 64) else s')

/-- The accesses of a line region in order: registers with the values they load, and the state after (R131). -/
def State.performLine (s : State) (l : Leaf) (line : Nat) :
    List LineAccess → List (LineAccess × Nat) × State
  | [] => ([], s)
  | e :: r =>
    let va := line + e.off
    if e.store then (s.writePart l va (leBytes e.size e.data.toNat)).performLine l line r
    else
      let v := leNat (s.readPart l va e.size)
      let t := s.performLine l line r
      ((e, v) :: t.1, t.2)

/-- The tags of the lines that a region stores to (R309). -/
def State.tagRegion (s : State) (a : Actor) (l : Leaf) (line : Nat) (acc : List LineAccess) : State :=
  if !l.ep then s
  else ([0, 64].filter fun o => acc.any fun e => e.store && e.off / 64 * 64 == o).foldl
    (fun s o => (s.tagAtom a (l.phys (line + o) / 64) (line + o)).unordered (l.phys (line + o) / 64)) s

/-- A loaded value as LD writes it (R124). -/
def loadedValue (size : Nat) (sx : Bool) (v : Nat) : Word :=
  if sx then BitVec.ofInt 64 (sext (8 * size) v) else BitVec.ofNat 64 v

/-- A flight whose value is there now: it lands by the next cycle. -/
def Tile.supply (x : Tile) (id now : Nat) (ws : List Write) : Tile :=
  { x with seq := { x.seq with flights := x.seq.flights.map fun f =>
      if f.id = id then { f with writes := ws, ready := now, bound := now + 1 } else f } }

/-- A flight withdrawn. -/
def Tile.withdraw (x : Tile) (ids : List Nat) : Tile :=
  { x with seq := { x.seq with flights := x.seq.flights.filter fun f => !ids.contains f.id } }

/-- The flights of an atomic. -/
def Atomic.flights (a : Atomic) : List Nat :=
  match a.kind with
  | .scalar _ _ _ _ _ => a.flight.toList
  | .line acc => acc.filterMap (·.flight)

/-- What an atomic asks of its page (R256). -/
def Atomic.want (a : Atomic) : Want :=
  { atomic := true
    writes := match a.kind with
      | .scalar _ _ _ _ _ => true
      | .line acc => acc.any (·.store) }

/-- The 128-byte line of an address, as the tables place it now. -/
def State.homeLine (s : State) (t va : Nat) : Option (Nat × Nat) :=
  match (s.walk (stackOf t) (s.rootOf t) va).1 with
  | .ok l => some (l.tier, l.phys va / 128)
  | .error _ => none

/-- Whether two addresses of a task lie in one 128-byte line of memory. -/
def State.sameLine (s : State) (t a b : Nat) : Bool :=
  a / 128 == b / 128 || (match s.homeLine t a, s.homeLine t b with
    | some p, some q => p == q
    | _, _ => false)

/-- Whether an earlier atomic of the tile to the same line has still to perform. One that has faulted performs at a restart only,
like a vector atomic that the engine keeps unstarted, and nothing waits for either (R129, R130, R281, R282). -/
def State.behind (s : State) (t id va : Nat) : Bool :=
  let x := s.tile t
  (x.eng.atomics.any fun a => a.id < id && !a.stopped && s.sameLine t a.va va)
    || x.eng.vatomics.any fun a => a.id < id && !a.stopped && (a.started || x.working) && a.lanes.any fun p => s.sameLine t p.2.1 va

/-- An atomic that has faulted: it performs nothing, and its destination is not in flight any more (R279, R281). -/
def State.stopAtomic (s : State) (t : Nat) (a : Atomic) (code : Nat) : State :=
  let s := s.onTile t fun x =>
    let x := x.withdraw a.flights
    { x with eng := { x.eng with atomics := x.eng.atomics.map fun b =>
        if b.id = a.id then { b with stopped := true, leaf := none } else b } }
  s.globalFound t 0 code a.va 2 0

/-- An atomic performs at the home of its line, indivisibly (R127, R131, R313). -/
def State.finishAtomic (s : State) (t : Nat) (a : Atomic) (l : Leaf) : State :=
  let who := s.actor t
  let now := s.icc t
  let s := s.onTile t fun x => { x with eng := { x.eng with atomics := x.eng.atomics.filter fun b => b.id != a.id } }
  match a.kind with
  | .scalar op size n e ret =>
    let r := s.performAtomic who l a.va size op n e
    match a.flight, ret with
    | some id, some d =>
      r.2.onTile t (·.supply id now (if d = 0 then [] else [.s d (BitVec.ofNat 64 r.1)]))
    | _, _ => r.2
  | .line acc =>
    let r := s.performLine l a.va acc
    let s := r.2.tagRegion who l a.va acc
    r.1.foldl (fun s p => match p.1.flight with
      | some id => s.onTile t (·.supply id now
          (if p.1.reg = 0 then [] else [.s p.1.reg (loadedValue p.1.size p.1.sx p.2)]))
      | none => s) s

/-- The atomics that a tile still has to perform perform now, those that have faulted left out (R129). -/
def State.performAll (s : State) (t : Nat) : State :=
  (s.tile t).eng.atomics.foldl (fun s a =>
    if a.stopped then s
    else
      let r := s.translate t a.want a.va
      match r.1 with
      | .ok l => if (s.homeFault l a.va).isSome then r.2 else r.2.finishAtomic t a l
      | .error _ => r.2) s

/-- Whether an atomic has a bound: a returning form, or a line region, for which MODE waits even if it loads nothing (R128, R131,
R140). -/
def Atomic.returns (a : Atomic) : Bool := match a.kind with
  | .scalar _ _ _ _ _ => a.flight.isSome
  | .line _ => true

/-- Whether an atomic has to perform now for its value to land by its bound (R128). -/
def State.atomicLate (s : State) (t : Nat) (a : Atomic) (l : Leaf) : Bool :=
  a.returns && a.issue + atomicBound t l a.va ≤ s.icc t + 1

/-- When a vector atomic began, and whether it has to go on now whatever its homes do: the shortest bound of its lanes has
come (R283). -/
def Tile.vaBegan (x : Tile) (a : VAtomic) : Nat := max a.issue x.eng.vaEnd
def State.vaLate (s : State) (t : Nat) (a : VAtomic) : Bool :=
  a.flight.isSome && (s.tile t).vaBegan a + 1400 ≤ s.icc t

/-- Whether an atomic of the tile that was issued after another has its bound within some cycles: what was issued before it, and it
may have to wait for, performs in time for it (R128, R130, R282, R283). -/
def State.pressed (s : State) (t id within : Nat) : Bool :=
  let x := s.tile t
  let now := s.icc t
  (x.eng.atomics.any fun b => id < b.id && !b.stopped && b.returns
      && decide (b.issue + (match b.leaf with | some l => atomicBound t l b.va | none => 1400) ≤ now + within + 1))
    || (match x.eng.vatomics with
        | b :: _ => id < b.id && !b.stopped && b.flight.isSome && decide (x.vaBegan b + 1400 ≤ now + within)
        | [] => false)

/-- ATOMIC_PERFORM: a translated atomic or line region performs indivisibly at the home of its line, in the issue order
of the tile's atomics to that line; or fails there. The home moves its line first, unless its bound has come, or that of one
which waits for it. Disabled before its translation (R127 to R131, R259, log entry 7). -/
def execAtomicPerform (t id : Nat) (s : State) : Host.Outcome State Fault Refusal :=
  if t ≥ Config.tiles then .fault .noSuchPart
  else
    match (s.tile t).eng.atomics.find? fun a => a.id == id with
    | none => .next s
    | some a =>
      match a.leaf with
      | none => .next s
      | some l =>
        if a.stopped || s.behind t id a.va || !(s.portFree (s.homeOf l a.va) || s.atomicLate t a l || s.pressed t id 0) then .next s
        else match s.homeFault l a.va with
          | some e => .next (s.stopAtomic t a e)
          | none => .next ((s.finishAtomic t a l).portMoves (s.homeOf l a.va) t 1).nextFree

/-! ### Vector atomics (R282) -/

/-- The state with a tile's vector atomics changed. -/
def State.onVatomics (s : State) (t : Nat) (f : List VAtomic → List VAtomic) : State :=
  s.onTile t fun x => { x with eng := { x.eng with vatomics := f x.eng.vatomics } }

/-- A returning vector atomic completes: all of d lands at once, the lanes it did not apply kept (R207, R282). -/
def State.finishVatomic (s : State) (t : Nat) (a : VAtomic) : State :=
  let now := s.icc t
  let s := s.onTile t fun x => { x with eng := { x.eng with
    vatomics := x.eng.vatomics.filter (fun b => b.id != a.id), vaEnd := now } }
  match a.flight with
  | none => s
  | some id =>
    let k := 8 * a.size
    let at_ := fun j => (a.olds.find? fun p => p.1 == j).map (·.2)
    let vals := (List.range (1024 / a.size)).map fun j => match at_ j with | some v => v.toNat | none => 0
    let keep := (List.range (1024 / a.size)).map fun j => if (at_ j).isSome then 0 else 2 ^ k - 1
    s.onTile t (·.supply id now
      [.v a.d (BitVec.ofNat 8192 (packElems k keep)) (BitVec.ofNat 8192 (packElems k vals))])

/-- The lane at the head of the instruction in progress performs, or faults; the frame then holds the lane. It waits for the
port of its home, unless its bound has come, or that of one which waits for it (R259, R283). -/
def State.sendLane (s : State) (t : Nat) (a : VAtomic) (lane va : Nat) (n : Word) (rest : List (Nat × Nat × Word)) :
    State :=
  let fail := fun (s : State) (code : Nat) =>
    (s.onVatomics t fun as => as.map fun b => if b.id = a.id then { b with stopped := true } else b).globalFound
      t a.slot code va 2 (BitVec.ofNat 1024 lane)
  let r := s.translate t { atomic := true, writes := true } va
  match r.1 with
  | .error e => fail r.2 e
  | .ok l =>
    match s.homeFault l va with
    | some e => fail r.2 e
    | none =>
      if !(s.portFree (s.homeOf l va) || s.vaLate t a || s.pressed t a.id 0) then s else
      let p := (r.2.portMoves (s.homeOf l va) t 1).performAtomic (s.actor t) l va a.size a.op n 0
      let a := { a with lanes := rest, olds := if a.flight.isSome then a.olds ++ [(lane, BitVec.ofNat 64 p.1)] else [] }
      let s := p.2.onVatomics t fun as => as.map fun b => if b.id = a.id then a else b
      if rest.isEmpty then s.finishVatomic t a else s

/-- VECTOR_ATOMIC_PROCESS: the engine starts its next instruction, or sends the next lane of the one in progress, in
lane order. A trap that stops the task lets the instruction in progress go on and keeps the others (R129, R280,
R282). -/
def execVectorAtomicProcess (t : Nat) (s : State) : Host.Outcome State Fault Refusal :=
  if t ≥ Config.tiles then .fault .noSuchPart
  else
    let x := s.tile t
    match x.eng.vatomics with
    | [] => .next s
    | a :: _ =>
      if a.stopped || (!a.started && !x.working) then .next s
      else match a.lanes with
        | [] => .next (s.finishVatomic t a)
        | (lane, va, n) :: rest =>
          if !a.started then
            .next (s.onVatomics t fun as => as.map fun b => if b.id = a.id then { b with started := true } else b)
          else if s.behind t a.id va then .next s
          else .next (s.sendLane t a lane va n rest)

end Sys2Proof.Machine
end

