-- ==== Sys2Proof/Machine/Copy.lean ====
section
/-! DEFINITION. The C slots' copies, static and global, and the feeds of the decoder FIFOs (R263 to R281). -/

namespace Sys2Proof.Machine

/-! ### Common parts -/

/-- The arrival word of a copy, with the bytes that each of its units counts (R275, R276). -/
def State.arrivalOf (s : State) (c : Ctx) (f : CW) (bytes : Nat) : Option Arrival :=
  if f.aw then
    let (g, w) := s.gen c f.gw
    let p := if g.space = 1 then islandTarget c.t w.toNat else (c.t, w.toNat)
    some { tile := p.1, addr := p.2, bytes := bytes }
  else none

/-- The engine is taken for an interval (R265). -/
def State.takeCopy (s : State) (c : Ctx) (n : Nat) : State :=
  s.onTile c.t fun x => { x with seq := { x.seq with
    cFree := vset x.seq.cFree (c.slot - 4) (c.now + n * x.divisor 3) } }

/-- A copy's destination joins the early-read checker's list (R278). -/
def State.listEntry (s : State) (c : Ctx) (id : Nat) (glob : Bool) (addr len lat : Nat) (arr : Option Arrival) : State :=
  s.onTile c.t fun x =>
    if x.sys.er then
      { x with eng := { x.eng with early := x.eng.early ++
        [{ copy := id, slot := c.slot, glob := glob, addr := addr, len := len
           till := c.now + lat * x.divisor 3, arrival := arr }] } }
    else x

/-- Reads and writes of staging that a static copy makes (R265). -/
def State.schedule (s : State) (c : Ctx) (rs : List StRead) (ws : List StWrite) : State :=
  s.onSeq c.t fun q => { q with stReads := q.stReads ++ rs, stWrites := q.stWrites ++ ws }

/-- Cycle k of a copy's engine after its issue. -/
def State.copyCycle (s : State) (c : Ctx) (k : Nat) : Nat := c.now + k * (s.tile c.t).divisor 3

/-- Unit u of a copy, read from own staging on one cycle and written on another (R265). -/
def State.unitRead (s : State) (c : Ctx) (rd wr src tile dst : Nat) (arr : Option Arrival) : StRead :=
  { cycle := s.copyCycle c rd, tile := c.t, slot := c.slot, addr := src, len := 64
    use := .copyTo (s.copyCycle c wr) tile dst arr, issue := c.now }

/-- Unit u written with bytes that need no read. -/
def State.unitWrite (s : State) (c : Ctx) (wr dst : Nat) (bytes : List Byte) : StWrite :=
  { cycle := s.copyCycle c wr, tile := c.t, slot := c.slot, addr := dst, bytes := bytes, issue := c.now }

/-- Beats of N units (R265). -/
def beats (n : Nat) : Nat := (n + 3) / 4

/-! ### Static kinds -/

/-- CLOC (R265, R267). -/
def State.copyLocal (s : State) (c : Ctx) (f : CW) : State :=
  let n := copyUnits f
  let a := (s.gen c f.ga).2.toNat
  let d := (s.gen c f.gd).2.toNat
  let arr := s.arrivalOf c f 64
  let rs := (List.range n).map fun u => s.unitRead c (2 + u / 4) (5 + u / 4) (a + 64 * u) c.t (d + 64 * u) arr
  let (id, s) := s.fresh
  ((s.schedule c rs []).listEntry c id false d (64 * n) (6 + beats n) arr).takeCopy c (beats n)

/-- CISL: to a partner's staging (R265, R267). -/
def State.copyIsland (s : State) (c : Ctx) (f : CW) : State :=
  let n := copyUnits f
  let a := (s.gen c f.ga).2.toNat
  let p := islandTarget c.t (s.gen c f.gd).2.toNat
  let h := hopCount c.t p.1
  let arr := s.arrivalOf c f 64
  let rs := (List.range n).map fun u =>
    { s.unitRead c (2 + u) (9 + 2 * h + u) (a + 64 * u) p.1 (p.2 + 64 * u) arr with isle := true }
  let (id, s) := s.fresh
  let s := s.schedule c rs []
  (if p.1 = c.t then s.listEntry c id false p.2 (64 * n) (10 + 2 * h + n) arr else s).takeCopy c n

/-- CFILL: data units are copied, the others padded (R269). -/
def State.copyFill (s : State) (c : Ctx) (f : CW) : State :=
  let n := copyUnits f
  let a := (s.gen c f.ga).2.toNat
  let d := (s.gen c f.gd).2.toNat
  let rs := (s.dataUnits c f).map fun u => s.unitRead c (2 + u / 4) (5 + u / 4) (a + 64 * u) c.t (d + 64 * u) none
  let ws := ((List.range n).filter fun u => !s.inWindow c f u).map fun u =>
    s.unitWrite c (5 + u / 4) (d + 64 * u) (List.replicate 64 f.fill)
  let (id, s) := s.fresh
  ((s.schedule c rs ws).listEntry c id false d (64 * n) (6 + beats n) none).takeCopy c (beats n)

/-- CXPOS: each tile is read whole, 256 bytes a cycle, and then written (R265, R271). -/
def State.copyTranspose (s : State) (c : Ctx) (f : CW) : State :=
  let n := copyUnits f
  let a := (s.gen c f.ga).2.toNat
  let d := (s.gen c f.gd).2.toNat
  let step := (s.tile c.t).divisor 3
  let arr := s.arrivalOf c f 4096
  let base := s.nextId
  let rs := (List.range n).flatMap fun t => (List.range 16).map fun k =>
    ({ cycle := s.copyCycle c (2 + 32 * t + k), tile := c.t, slot := c.slot, addr := a + 4096 * t + 256 * k, len := 256
       use := .xpose (base + t) k (copyWidth f.fmt.toNat) c.t (d + 4096 * t) (s.copyCycle c (18 + 32 * t)) step arr
       issue := c.now } : StRead)
  let s := { s with nextId := s.nextId + n }
  ((s.schedule c rs []).listEntry c base false d (4096 * n) (2 + 32 * n) arr).takeCopy c (32 * n)

/-- The transposition of a tile of 64 rows of w-byte elements (R271). -/
def transposed (w : Nat) (bs : List Byte) : List Byte :=
  (List.range (64 / w)).flatMap fun j => (List.range 64).flatMap fun i => (bs.drop (64 * i + w * j)).take w

/-- CGATH from staging (R265, R274). -/
def State.copyGather (s : State) (c : Ctx) (f : CW) : State :=
  let n := copyUnits f
  let a := (s.gen c f.ga).2.toNat
  let d := (s.gen c f.gd).2.toNat
  let hs := (List.range n).zip (s.gatherIdx c f)
  let rs := (hs.filter fun e => e.2 != 0xFFFF).map fun e =>
    s.unitRead c (2 + e.1 / 4) (5 + e.1 / 4) (a + 64 * e.2) c.t (d + 64 * e.1) none
  let ws := (hs.filter fun e => e.2 == 0xFFFF).map fun e =>
    s.unitWrite c (5 + e.1 / 4) (d + 64 * e.1) (List.replicate 64 0)
  let (id, s) := s.fresh
  ((s.schedule c rs ws).listEntry c id false d (64 * n) (6 + beats n) none).takeCopy c (beats n)

/-! ### Global kinds -/

/-- A global copy joins its engine's outstanding copies (R268). -/
def State.copyGlobal (s : State) (c : Ctx) (f : CW) (kind : GKind) (unitBytes interval : Nat) : State :=
  let n := copyUnits f
  let (ga, a) := s.gen c f.ga
  let d := (s.gen c f.gd).2.toNat
  let arr := s.arrivalOf c f (if kind = .dec then unitBytes else 64)
  let idx := if kind = .gath then s.gatherIdx c f else []
  let (id, s) := s.fresh
  let g : GCopy :=
    { id := id, slot := c.slot, kind := kind, src := a.toNat, srcSpace := ga.space.toNat, dst := d, units := n
      issue := c.now, width := copyWidth f.fmt.toNat, fifo := f.df.toNat, idx := idx, arrival := arr
      step := (s.tile c.t).divisor 3, asked := s.pcc }
  let rs := if kind = .gwr then
      (List.range n).map fun u =>
        ({ cycle := s.copyCycle c (2 + u / 4), tile := c.t, slot := c.slot, addr := a.toNat + 64 * u, len := 64
           use := .unit id u, issue := c.now } : StRead)
    else []
  let s := s.onTile c.t fun x => { x with eng := { x.eng with copies := x.eng.copies ++ [g] } }
  let s := s.schedule c rs []
  (if kind = .gwr || kind = .feed then s else s.listEntry c id true d (unitBytes * n) 0 arr).takeCopy c interval

/-! ### Meanings -/

/-- C_NOP: the C latch is idle (R45). -/
def execCNop (s : State) : Host.Outcome State Fault Refusal :=
  runSlot .cNop s fun c s => s.onSeq c.t fun q =>
    { q with latches := vset q.latches c.slot { } }

/-- CLOC: R265, R267. -/
def execCloc (f : CW) (s : State) : Host.Outcome State Fault Refusal :=
  runSlot (.cloc f) s fun c s => s.copyLocal c f

/-- CISL: R265, R267. -/
def execCisl (f : CW) (s : State) : Host.Outcome State Fault Refusal :=
  runSlot (.cisl f) s fun c s => s.copyIsland c f

/-- CGRD: R267, R268. -/
def execCgrd (f : CW) (s : State) : Host.Outcome State Fault Refusal :=
  runSlot (.cgrd f) s fun c s => s.copyGlobal c f .grd 64 1

/-- CGWR: R267, R268. -/
def execCgwr (f : CW) (s : State) : Host.Outcome State Fault Refusal :=
  runSlot (.cgwr f) s fun c s => s.copyGlobal c f .gwr 64 (beats (copyUnits f))

/-- CFILL: R269, R270. -/
def execCfill (f : CW) (s : State) : Host.Outcome State Fault Refusal :=
  runSlot (.cfill f) s fun c s => s.copyFill c f

/-- CXPOS: R271. -/
def execCxpos (f : CW) (s : State) : Host.Outcome State Fault Refusal :=
  runSlot (.cxpos f) s fun c s => s.copyTranspose c f

/-- CDEC: R272. -/
def execCdec (f : CW) (s : State) : Host.Outcome State Fault Refusal :=
  runSlot (.cdec f) s fun c s => s.copyGlobal c f .dec (32 * copyWidth f.fmt.toNat) 1

/-- CFEED: R273. -/
def execCfeed (f : CW) (s : State) : Host.Outcome State Fault Refusal :=
  runSlot (.cfeed f) s fun c s => s.copyGlobal c f .feed 64 1

/-- CGATH: R274, static from space 0 and global from space 2. -/
def execCgath (f : CW) (s : State) : Host.Outcome State Fault Refusal :=
  runSlot (.cgath f) s fun c s =>
    if (s.gen c f.ga).1.space = 2 then s.copyGlobal c f .gath 64 1 else s.copyGather c f

/-! ### Units of global copies -/

/-- The page of a CDEC's first byte: format and geometry (R272). -/
def GCopy.form (g : GCopy) : Option (Nat × Nat) :=
  (g.leaves.find? fun l => l.covers g.src).map fun l => (l.fmt, l.geom)

/-- The global bytes that a unit reads or writes; a CDEC's are known once its first page is (R267, R272, R274). -/
def GCopy.ranges (g : GCopy) (u : Nat) : List (Nat × Nat) :=
  match g.kind with
  | .grd => [(g.src + 64 * u, 64)]
  | .gwr => [(g.dst + 64 * u, 64)]
  | .feed => if g.srcSpace = 2 then [(g.src + 64 * u, 64)] else []
  | .gath => let h := g.idx.getD u 0xFFFF; if h = 0xFFFF then [] else [(g.src + 64 * h, 64)]
  | .dec =>
    match g.form with
    | none => [(g.src, 1)]
    | some (fmt, geom) =>
      if fmt = 7 then
        let n := 16 * 2 ^ geom + 4
        [(g.src + u / 2 ^ geom * n, n)]
      else
        let row := g.src + u / 2 ^ geom * mxRowBytes fmt geom
        let b := u % 2 ^ geom
        let e := if fmt = 8 then 32 else 16
        [(row + b * e, e), (row + mxElemBytes fmt geom + b, 1)]

/-- The entry that covers an address of a copy. -/
def GCopy.leafAt (g : GCopy) (va : Nat) : Option Leaf := g.leaves.find? fun l => l.covers va

/-- The first byte of a unit that no translated page covers. -/
def GCopy.uncovered (g : GCopy) (u : Nat) : Option Nat :=
  (g.ranges u).findSome? fun r =>
    if (g.leafAt r.1).isNone then some r.1
    else if (g.leafAt (r.1 + r.2 - 1)).isNone then some (r.1 + r.2 - 1) else none

/-- The first unit from which on something is uncovered, at or above a unit. -/
def GCopy.nextWalk (g : GCopy) : Option (Nat × Nat) :=
  (List.range g.units).findSome? fun u =>
    if u < g.walked then none else (g.uncovered u).map fun va => (u, va)

/-- The state with a copy of a tile replaced. -/
def State.setCopy (s : State) (t : Nat) (g : GCopy) : State :=
  s.onTile t fun x => { x with eng := { x.eng with copies := x.eng.copies.map fun c => if c.id = g.id then g else c } }

/-- The kind of a copy's accesses, as reports name it: 0 reads, 1 writes (R279). -/
def GCopy.access (g : GCopy) : Nat := if g.kind = .gwr then 1 else 0

/-- A copy's fault at a unit: nothing from there on performs (R280). -/
def State.failCopy (s : State) (t : Nat) (g : GCopy) (u code va : Nat) : State :=
  (s.setCopy t { g with fault := some (u, code) }).globalFound t g.slot code va g.access 0

/-- The first and the last bytes of the ranges of a unit, none of which is longer than a frame. -/
def GCopy.ends (g : GCopy) (u : Nat) : List Nat := (g.ranges u).flatMap fun r => [r.1, r.1 + r.2 - 1]

/-- The first failure of an access of a tile's copy, at or above a unit, in a page: the whole page has been translated, and each
frame of it that a unit touches is still to be checked (R256, R279, R280). -/
def State.pageFault (s : State) (t : Nat) (g : GCopy) (l : Leaf) (u : Nat) : Option (Nat × Nat) :=
  (List.range g.units).findSome? fun v =>
    if v < u then none
    else (g.ends v).findSome? fun a => if l.covers a then (s.frameFault t l a).map fun e => (e, a) else none

/-- The next page of a copy is translated, in ascending unit order (R268). A failure of any of its units stops
the copy at the page's first (R280). -/
def State.walkCopy (s : State) (t : Nat) (g : GCopy) : State :=
  match g.nextWalk with
  | none => s.setCopy t { g with walked := g.units }
  | some (u, va) =>
    let w : Want := { writes := g.kind == .gwr, dec := g.kind == .dec, like := g.form }
    let r := s.translate t w va
    match r.1 with
    | .error e => r.2.failCopy t { g with walked := u } u e va
    | .ok l =>
      match r.2.homeFault l va, r.2.pageFault t { g with leaves := g.leaves ++ [l] } l u with
      | some e, _ => r.2.failCopy t { g with walked := u } u e va
      | none, some (e, at_) => r.2.failCopy t { g with walked := u } u e at_
      | none, none =>
        let g := { g with leaves := g.leaves ++ [l], walked := u }
        let upto := match g.nextWalk with | some n => n.1 | none => g.units
        r.2.setCopy t { g with walked := upto, sent := g.sent ++ [(upto, s.pcc)] }

/-- TRANSLATION_WALK: a global copy's next page, or an atomic's or a line region's page, is translated and checked; the
first failure is found as a fault of its instruction (R252 to R257, R279). Disabled where nothing is to translate
(log entry 7). -/
def execTranslationWalk (t id : Nat) (s : State) : Host.Outcome State Fault Refusal :=
  if t ≥ Config.tiles then .fault .noSuchPart
  else
    let x := s.tile t
    match x.eng.copies.find? (fun g => g.id == id), x.eng.atomics.find? (fun a => a.id == id) with
    | some g, _ => if g.fault.isNone && x.working && g.walked < g.units then .next (s.walkCopy t g) else .next s
    | none, some a =>
      if a.stopped || a.leaf.isSome then .next s
      else
        let r := s.translate t a.want a.va
        match r.1 with
        | .error e => .next (r.2.stopAtomic t a e)
        | .ok l => .next (r.2.onTile t fun x => { x with eng := { x.eng with
            atomics := x.eng.atomics.map fun b => if b.id = id then { b with leaf := some l } else b } })
    | none, none => .next s

/-- The lines of memory that a unit touches. -/
def GCopy.lines (g : GCopy) (u : Nat) : List (Nat × Nat) :=
  (g.ranges u).flatMap fun r =>
    (List.range ((r.1 + r.2 - 1) / 64 - r.1 / 64 + 1)).filterMap fun k =>
      let va := (r.1 / 64 + k) * 64
      (g.leafAt va).map fun l => (l.tier, l.phys va / 64)

/-- Whether a unit has performed at its home. -/
def GCopy.past (g : GCopy) (u : Nat) : Bool := g.done.contains u || (g.kind == .feed && (find u g.data).isSome)

/-- Whether a unit has to wait (R289): an earlier unit of the tile's copies to one of its lines has not performed, or an
earlier copy's pages are not all known (R268). A copy that has faulted performs nothing more, and nothing waits for it. -/
def Tile.lineWait (x : Tile) (g : GCopy) (u : Nat) : Bool :=
  let ls := g.lines u
  let meets := fun (h : GCopy) (v : Nat) => !h.past v && (h.lines v).any fun l => ls.contains l
  (x.eng.copies.any fun h => h.id < g.id && h.fault.isNone
      && (h.walked < h.units || (List.range h.units).any fun v => meets h v))
    || (List.range u).any fun v => meets g v

/-- Bytes of a virtual range, line by line (R310). -/
def State.readSpan (s : State) (t : Nat) (g : GCopy) (va n : Nat) : List Byte × State :=
  let r := (List.range ((va + n - 1) / 64 - va / 64 + 1)).foldl
    (fun (p : List Byte × State) k =>
      let v := (va / 64 + k) * 64
      match g.leafAt v with
      | some l =>
        let q := p.2.readUnit (s.actor t) l v (s.seesLine g.asked (l.phys v / 64))
        (p.1 ++ q.1, q.2.nextFree)
      | none => (p.1 ++ List.replicate 64 0, p.2)) ([], s)
  ((r.1.drop (va % 64)).take n, r.2)

/-- Bytes of several virtual ranges of one unit, which reads each line that they touch once (R310). -/
def State.readRanges (s : State) (t : Nat) (g : GCopy) (rs : List (Nat × Nat)) : List (List Byte) × State :=
  let lines := fun (r : Nat × Nat) => (List.range ((r.1 + r.2 - 1) / 64 - r.1 / 64 + 1)).map (r.1 / 64 + ·)
  let p := (rs.flatMap lines).dedup.foldl
    (fun (p : List (Nat × List Byte) × State) k =>
      let q := p.2.readSpan t g (k * 64) 64
      (p.1 ++ [(k, q.1)], q.2)) ([], s)
  (rs.map fun r => (((lines r).flatMap fun k => look [] k p.1).drop (r.1 % 64)).take r.2, p.2)

/-- The elements of a decoded group in a format, with their flags; none if its INT4G trailer is malformed
(R82, R84, R272). An E4M3 NaN element gives a NaN of its sign and payload, as a conversion of R70 does (log entry 122). -/
def decodeGroup (fmt geom : Nat) (u : Nat) (parts : List (List Byte)) (dst : Fmt) : Option (List Nat × Flags) :=
  let out := fun (src : Fmt) (v : Fp) => dst.ofFp src false .rne v
  if fmt = 7 then
    let b := parts.getD 0 []
    let g := 32 * 2 ^ geom
    if (b.getD (g / 2 + 2) 0).toNat / 16 ≠ 0 || b.getD (g / 2 + 3) 0 ≠ 0 then none
    else
      let rs := (List.range 32).map fun e =>
        let v := int4gValue false (leNat ((b.drop (g / 2)).take 2)) (nibbleAt b (32 * (u % 2 ^ geom) + e))
          ((b.getD (g / 2 + 2) 0).toNat % 16)
        let r := out fp16 v.1
        (r.1, r.2 ||| v.2)
      some (rs.map (·.1), anyFlags (rs.map (·.2)))
  else
    let es := parts.getD 0 []
    let scale := ((parts.getD 1 []).getD 0 0).toNat
    let f := if fmt = 8 then e4m3 else e2m1
    let rs := (List.range 32).map fun e =>
      out f (mxValue f scale (if fmt = 8 then (es.getD e 0).toNat else nibbleAt es e))
    some (rs.map (·.1), anyFlags (rs.map (·.2)))

/-- The first failure of a unit's accesses when it performs (R279, R280). -/
def State.unitFault (s : State) (t : Nat) (g : GCopy) (u : Nat) : Option (Nat × Nat) :=
  (g.ends u).findSome? fun a => (g.leafAt a).bind fun l => (s.frameFault t l a).map fun e => (e, a)

/-- Island and pcc cycles of 10 ms (R268). -/
def hostTime : Nat := 17500000

/-- The first unit of a copy at a host window that has not been answered 10 ms after it could be sent (R268, log entry 102). -/
def GCopy.unanswered (g : GCopy) (pcc : Nat) : Option Nat :=
  if g.leaves.all (·.tier != 2) then none
  else (List.range g.units).find? fun u =>
    !g.past u && ((g.ends u).any fun a => match g.leafAt a with | some l => l.tier == 2 | none => false)
      && (match g.sent.find? fun e => u < e.1 with | some e => e.2 + hostTime ≤ pcc | none => false)

/-- A unit counted into its copy's arrival word at the end of the cycle (R276). -/
def State.countUnit (s : State) (t : Nat) (g : GCopy) (u : Nat) : State :=
  match g.arrival with
  | some a =>
    if g.counted.contains u then s
    else { s with counts := s.counts ++ [{ src := t, slot := g.slot, unit := u, copy := some g.id, word := a }] }
  | none => s

/-- A unit has performed, and the issuing tile learns it on the same cycle, so that it counts a write unit then: the manual does
not say when it learns (R276, R285, log entry 5). A copy all of whose units have performed is outstanding no longer. -/
def State.unitDone (s : State) (t : Nat) (g : GCopy) (u : Nat) : State :=
  let s := s.countUnit t g u
  let g := { g with done := g.done ++ [u], counted := if g.counted.contains u then g.counted else g.counted ++ [u]
                    data := if g.kind = .gwr then g.data else dropAt u g.data }
  if g.units ≤ g.done.length then
    s.onTile t fun x => { x with eng := { x.eng with copies := x.eng.copies.filter fun c => c.id != g.id } }
  else s.setCopy t g

/-- Bytes that a global copy's unit writes to staging at the end of this cycle, in its slot's place among the cycle's writes
(R28, R287). -/
def State.landUnit (s : State) (t : Nat) (g : GCopy) (addr : Nat) (bs : List Byte) : State :=
  let now := s.icc t
  s.onSeq t fun q => { q with stWrites := q.stWrites ++
    [{ cycle := now, tile := t, slot := g.slot, addr := addr, bytes := bs, issue := g.issue }] }

/-- Whether a plain write unit of an actor is discarded at its line (R309). -/
def State.discards (s : State) (a : Actor) (l : Leaf) (va : Nat) : Bool := l.ep && !(s.tagWrite a (l.phys va / 64) va).1

/-- A counted write unit is the last to its line: who reads the generation that its counting advances to reads after it; a
discarded one has written nothing that a read could come after (R277, R309, R310). -/
def State.orders (s : State) (g : GCopy) (l : Leaf) (u : Nat) (gone : Bool) : State :=
  match g.arrival with
  | some w => if l.ep && !gone then { s with ordered := s.ordered ++ [{ line := l.phys (g.dst + 64 * u) / 64, copy := g.id, unit := u, word := w }] } else s
  | none => s

/-- A host-window write unit that its port has accepted: the host has still to acknowledge it (R291). -/
def State.accepted (s : State) (t : Nat) (g : GCopy) (l : Leaf) (u : Nat) : State :=
  if l.tier ≠ 2 then s
  else s.onTile t fun x => { x with eng := { x.eng with acks := x.eng.acks ++ [{ copy := g.id, unit := u, slot := g.slot, va := g.dst + 64 * u, pcc := s.pcc }] } }

/-- A unit performs: read units are written to staging, CGWR units at their home; a CFEED unit's data arrives
(R267, R268, R272 to R274). -/
def State.performUnit (s : State) (t : Nat) (g : GCopy) (u : Nat) : State :=
  match g.kind with
  | .gwr =>
    match g.leafAt (g.dst + 64 * u), find u g.data with
    | some l, some bs =>
      let gone := s.discards (s.actor t) l (g.dst + 64 * u)
      (((s.writeUnit (s.actor t) l (g.dst + 64 * u) bs).orders g l u gone).accepted t g l u).unitDone t g u
    | _, _ => s
  | .feed =>
    let r := s.readSpan t g (g.src + 64 * u) 64
    r.2.setCopy t { g with data := insertAt u r.1 g.data }
  | .dec =>
    match g.form with
    | none => s
    | some (fmt, geom) =>
      let r := s.readRanges t g (g.ranges u)
      match decodeGroup fmt geom u r.1 (if g.width = 4 then fp32 else bf16) with
      | none => r.2.failCopy t g u 0x44 ((g.ranges u).headD (0, 0)).1
      | some (xs, fl) =>
        ((r.2.landUnit t g (g.dst + 32 * g.width * u) (leBytes (32 * g.width) (packElems (8 * g.width) xs))).onTile t
          (·.raise fl)).unitDone t g u
  | _ =>
    let r := match g.ranges u with
      | [] => (List.replicate 64 0, s)
      | e :: _ => s.readSpan t g e.1 e.2
    (r.2.landUnit t g (g.dst + 64 * u) r.1).unitDone t g u

/-- The homes that move a line for a unit, one entry for each line: a line that the unit before it has brought is not moved
again (R259, R272). -/
def State.unitHomes (s : State) (g : GCopy) (u : Nat) : List Nat :=
  let had := if g.kind == .dec && u != 0 && g.past (u - 1) then g.lines (u - 1) else []
  ((g.lines u).dedup.filter fun l => !had.contains l).filterMap fun l => homeOfLine s.tier2Home l.1 l.2

/-- GLOBAL_COPY_UNIT_PERFORM: one unit of a global copy performs at its home, which moves its lines, or fails there; a
host-window write unit that its port has accepted is acknowledged by the host when its step comes again (R291). Disabled
before its page is translated, at or after a faulting unit, out of the order of R268, while its home is taken, and once the
engines have stopped (R259, R268, R279, R280, log entry 7). -/
def execGlobalCopyUnitPerform (t id unit : Nat) (s : State) : Host.Outcome State Fault Refusal :=
  if t ≥ Config.tiles then .fault .noSuchPart
  else
    let x := s.tile t
    if x.eng.acks.any fun a => a.copy == id && a.unit == unit && !a.failed then
      .next (s.onTile t fun x => { x with eng := { x.eng with acks := x.eng.acks.filter fun a => !(a.copy == id && a.unit == unit) } })
    else
    match x.eng.copies.find? fun g => g.id == id with
    | none => .next s
    | some g =>
      let ready := x.working && g.fault.isNone && unit < g.walked && !g.past unit && !x.lineWait g unit
        && (g.kind != .gwr || (find unit g.data).isSome) && (g.kind != .feed || g.srcSpace == 2)
      let homes := s.unitHomes g unit
      if !ready || homes.any (fun h => !s.homeFree h) then .next s
      else match s.unitFault t g unit with
        | some (e, va) => .next (s.failCopy t g unit e va)
        | none => .next (homes.foldl (fun s h => s.homeMoves h t 1) (s.performUnit t g unit)).nextFree

/-- Whether a cycle is one of a copy's clock, from the second after its issue on (R3, R273). -/
def GCopy.ticks (g : GCopy) (now : Nat) : Bool := g.issue + 2 * g.step ≤ now && (now - g.issue) % g.step == 0

/-- CFEED_UNIT_ENTRY: the next unit of a CFEED enters its FIFO, in issue order of the feeds and unit order, when its
data has arrived and the FIFO has room for 64 bytes, on a cycle of the feed's copy clock from issue + 2 on, and at most one
a copy-clock cycle into one FIFO (R141, R226, R273). Disabled otherwise. -/
def execCfeedUnitEntry (t id : Nat) (s : State) : Host.Outcome State Fault Refusal :=
  if t ≥ Config.tiles then .fault .noSuchPart
  else
    let x := s.tile t
    let now := s.icc t
    match x.working, x.task, x.eng.copies.find? (fun g => g.id == id) with
    | true, some k, some g =>
      let u := g.done.length
      let fifo := vget [] x.eng.df g.fifo
      let bytes := if g.srcSpace = 2 then find u g.data else some (readBytes x.st (g.src + 64 * u) 64)
      let first := x.eng.copies.all fun h => h.id ≥ g.id || h.kind != .feed || h.fifo != g.fifo
      if g.kind ≠ .feed || !first || !g.ticks now || now < vget 0 x.eng.dfAt g.fifo || k.dfOcc g.fifo < fifo.length + 64 then
        .next s
      else match bytes with
        | none => .next s
        | some bs =>
          let s := s.onTile t fun x => { x with eng := { x.eng with
            df := vset x.eng.df g.fifo (fifo ++ bs), dfAt := vset x.eng.dfAt g.fifo (now + g.step) } }
          .next (s.unitDone t g u)
    | _, _, _ => .next s

/-- Whether an operation of a tile still has global accesses to make: a copy, an atomic, or a vector atomic; its slot,
and the address of the next. -/
def Engines.outstanding (e : Engines) (id : Nat) : Option (Nat × Nat × Nat) :=
  match e.copies.find? (fun g => g.id == id), e.atomics.find? (fun a => a.id == id),
      e.vatomics.find? (fun a => a.id == id) with
  | some g, _, _ => some (g.slot, ((g.ranges g.done.length).headD (0, 0)).1, g.access)
  | none, some a, _ => some (0, a.va, 2)
  | none, none, some a => some (a.slot, (a.lanes.headD (0, 0, 0)).2.1, 2)
  | none, none, none => none

/-- A host-window write unit that its port has accepted is found to fail: nothing waits for it, and a restart sends it again
(R268, R279, R281, R291). -/
def State.ackFails (s : State) (t code : Nat) (a : HostAck) : State :=
  (s.onTile t fun x => { x with eng := { x.eng with acks := x.eng.acks.map fun b => if b = a then { b with failed := true } else b } }).globalFound
    t a.slot code a.va 1 0

/-- A failure that the world outside gives an access: nothing more of the operation performs. Of a copy's units the one that its
host has not answered for 10 ms fails, else the first left (R268, R279, R371, R372). -/
def State.outsideFailure (s : State) (t id code : Nat) : State :=
  let e := (s.tile t).eng
  match e.copies.find? (fun g => g.id == id), e.atomics.find? (fun a => a.id == id),
      e.vatomics.find? (fun a => a.id == id) with
  | some g, _, _ =>
    let u := ((if code = 0x26 then g.unanswered s.pcc else none).orElse fun _ => (List.range g.units).find? fun u => !g.past u).getD 0
    if g.fault.isSome then s else s.failCopy t g u code ((g.ranges u).headD (0, 0)).1
  | none, some a, _ => if a.stopped then s else s.stopAtomic t a code
  | none, none, some a =>
    if a.stopped then s
    else
      let lane := (a.lanes.headD (0, 0, 0)).1
      (s.onVatomics t fun as => as.map fun b => if b.id = a.id then { b with stopped := true } else b).globalFound
        t a.slot code (a.lanes.headD (0, 0, 0)).2.1 2 (BitVec.ofNat 1024 lane)
  | none, none, none =>
    match e.acks.find? fun a => a.copy == id && !a.failed with
    | some a => s.ackFails t code a
    | none => s

/-- GLOBAL_FAULT_TRAP: a fault of global traffic found on an earlier cycle is raised, the lower slot first; where none
of this code has been found, an access of the named operation fails at its home with the code 0x26, 0x28 or 0x72, a write unit
that the host has not acknowledged for 10 ms first, and the trap follows on the next island cycle. Code 0x71 is an uncorrectable error in the tile's own stores, which slot
`id` mod 8 has just read: it is raised on this cycle, and while the tile drains into its handler at the handler's first bundle.
Code 0 is an error that has been corrected in a line at its home in the tile's vault, with `id` 3, or in one of the tile's own
stores, with `id` 4 to 10: it is counted (R279, R280, R372). -/
def execGlobalFaultTrap (t id code : Nat) (s : State) : Host.Outcome State Fault Refusal :=
  if t ≥ Config.tiles then .fault .noSuchPart
  else
    let here := (s.tile t).seq.faults.filter fun e => isGlobalCode e.2.code && e.1 ≤ s.icc t
    let low := here.foldl (fun m e => min m e.2.slot) 8
    if here.any fun e => e.2.code == code && e.2.slot == low then
      .next (s.raiseFound t fun r => isGlobalCode r.code && r.slot == low)
    else if code = 0x26 || code = 0x28 || code = 0x72 then
      match (s.tile t).eng.acks.find? fun a => code == 0x26 && a.copy == id && !a.failed && a.pcc + hostTime ≤ s.pcc with
      | some a => .next (s.ackFails t code a)
      | none => .next (s.outsideFailure t id code)
    else if code = 0x71 && ((s.tile t).seq.phase.live || (s.tile t).seq.entering) then
      .next ((s.reportFault 7 1 0x71 t).trapNext t { code := 0x71, slot := id % 8 })
    else if code = 0 && storeHome ≤ id && id ≤ 10 then .next (s.countCorrected t id)
    else .next s

end Sys2Proof.Machine
end

