-- ==== Sys2Proof/Machine/Matrix.lean ====
section
/-! DEFINITION. The M slot's operations and the denomination path of the matrix engine (R99 to R101, R230 to R249). -/

namespace Sys2Proof.Machine

/-! ### In flight on the matrix clock -/

/-- A result in flight on the matrix clock, with flags and no trap check (R231, R235). -/
def State.flightM (s : State) (c : Ctx) (lat : Nat) (ws : List Write) (fl : Flags) : State :=
  let (id, s) := s.fresh
  s.onTile c.t fun x => x.launchFlight
    { id := id, slot := c.slot, issue := c.now, ready := c.now + 1, bound := c.now + lat * x.divisor 1
      dests := ws.map Write.loc, writes := ws, bflags := fl }

/-- The interval that binds a group of instructions begins (R231). -/
def State.takeMatrix (s : State) (c : Ctx) (g n : Nat) : State :=
  s.onTile c.t fun x => { x with seq := { x.seq with mFree := vset x.seq.mFree g (c.now + n * x.divisor 1) } }

/-! ### Accumulator tiles -/

/-- Bit at which row r of a tile begins; its columns 0 to 31 take 1,024 bits (R248). -/
def rowBit (r : Nat) : Nat := 32 * 64 * r

/-- Columns 0 to 31 of a row. -/
def AccTile.row (a : AccTile) (r : Nat) : List (BitVec 32) :=
  (List.range 32).map fun b => a.extractLsb' (rowBit r + 32 * b) 32

/-- A tile with columns 0 to 31 of a row replaced. -/
def AccTile.setRow (a : AccTile) (r : Nat) (xs : List (BitVec 32)) : AccTile :=
  let hole := BitVec.ofNat 65536 ((2 ^ 1024 - 1) * 2 ^ rowBit r)
  (a &&& ~~~hole) ||| BitVec.ofNat 65536 (packElems 32 (xs.map (·.toNat)) * 2 ^ rowBit r)

/-- A tile as an M instruction reads it: what pending MMAD requests will write is undefined (R27, R243). -/
def State.accRead (s : State) (c : Ctx) (n : BitVec 6) : AccTile :=
  let undef := fun r => (List.range 32).map fun b => BitVec.ofNat 32 (s.undef (6000000 + 2048 * n.toNat + 32 * r + b))
  ((s.tile c.t).eng.mmad.reqs.filter fun q => q.acc == n.toNat).foldl
    (fun a q => AccTile.setRow a q.row (undef q.row)) (s.readAcc c n.toNat)

/-- The elements of a tile, element (i, j) at 64 i + j (R248). -/
def accElems (a : AccTile) : List Nat := (List.range 2048).map fun e => (a.toNat >>> (32 * e)) % 2 ^ 32

/-! ### Dense terms (R238, R239) -/

/-- The format of a fmt field, and an MX element's. -/
def mmaFmt (fmt : Nat) : Fmt := if fmt = 8 then e4m3 else if fmt = 9 then e2m1 else (fmtOf fmt).getD bf16

/-- An element of an MX block: NaN under the scale 0xFF, else flushed before it is scaled (R84, R235). -/
def mxTerm (fmt scale x : Nat) : Term :=
  if scale = 0xFF then .nan else (termOf (mmaFmt fmt) x).scale ((scale : Int) - 127)

/-- The terms of a row or column of 64 bytes, with the scale bytes of its blocks. -/
def denseTerms (fmt : Nat) (bits : Nat) (scale : Nat → Nat) : List Term :=
  if fmt = 2 || fmt = 3 || fmt = 7 then (List.range 32).map fun k => termOf (if fmt = 3 then fp16 else bf16) ((bits >>> (16 * k)) % 2 ^ 16)
  else if fmt = 6 then (List.range 64).map fun k => .num (sext 8 (bits >>> (8 * k))) 0
  else if fmt = 8 then (List.range 64).map fun k => mxTerm 8 (scale (k / 32)) ((bits >>> (8 * k)) % 2 ^ 8)
  else if fmt = 9 then (List.range 128).map fun k => mxTerm 9 (scale (k / 32)) ((bits >>> (4 * k)) % 2 ^ 4)
  else (List.range 64).map fun k => termOf (mmaFmt fmt) ((bits >>> (8 * k)) % 2 ^ 8)

/-- The sum of two terms, for the zero-point correction (R239). -/
def Term.add : Term → Term → Term
  | .nan, _ | _, .nan => .nan
  | .invalid, _ | _, .invalid => .invalid
  | .inf a, .inf b => if a = b then .inf a else .invalid
  | .inf a, _ | _, .inf a => .inf a
  | .num m e, .num k d =>
    let q := min e d
    .num (m * 2 ^ (e - q).toNat + k * 2 ^ (d - q).toNat) q

/-- The terms of an INT4G column with a row (R239). With a scale that is a zero the terms are products of zeros, and one with an
infinite element of the row is invalid, as R99 has it for every product (log entry 125). -/
def int4gTerms (q : Nat → Nat) (scale z : Nat) (a : List Term) : List Term :=
  let ks := List.range 32
  match termOf fp16 scale with
  | .num m e =>
    (ks.map fun k => Term.mul (Term.mul (.num m e) (.num (q k) 0)) (a.getD k (.num 0 0)))
      ++ [Term.mul (Term.mul (.num (-m) e) (.num z 0)) (a.foldl Term.add (.num 0 0))]
  | .inf neg => ks.map fun k =>
      if q k = z then .invalid else Term.mul (.inf (neg != decide (q k < z))) (a.getD k (.num 0 0))
  | t => ks.map fun _ => t

/-- The new elements of a tile, with the flags of all of them (R238). -/
def denseProduct (fmt : Nat) (rows : BitVec 16384) (scales : BitVec 1024) (w : BitVec 34816) (acc : AccTile) :
    List Nat × Flags :=
  let wn := w.toNat
  let byte := fun n => (wn >>> (8 * n)) % 256
  let as := (List.range 32).map fun i =>
    denseTerms fmt (rows.toNat >>> (512 * i)) fun b => (scales.toNat >>> (32 * i + 8 * b)) % 256
  let bs := (List.range 64).map fun j =>
    denseTerms fmt (wn >>> (512 * j)) fun b => byte (4096 + (if fmt = 8 then 2 else 4) * j + b)
  let terms := fun (i j : Nat) =>
    let a := as.getD i []
    if fmt = 7 then
      let t := 1024 + 4 * j
      int4gTerms (fun k => (wn >>> (128 * j + 4 * k)) % 16) (byte t + 256 * byte (t + 1)) (byte (t + 2) % 16) a
    else List.zipWith Term.mul a (bs.getD j [])
  let rs := (List.range 2048).map fun e =>
    windowSum (termOf fp32 ((acc.toNat >>> (32 * e)) % 2 ^ 32) :: terms (e / 64) (e % 64))
  (rs.map (·.1), anyFlags (rs.map (·.2)))

/-! ### Reading and writing tiles (R248) -/

/-- Bits of an element of MRD and MWR, and how an element converts out of a tile and into one. -/
def mrBits (fmt : Nat) : Nat := if fmt = 1 || fmt = 0xD then 32 else if fmt = 2 || fmt = 3 then 16 else 8

/-- MRD's conversion: a result below the smallest normal is a zero of its sign with fz alone; nx for every value
that differs; iv only for an infinity to E4M3. An element that is subnormal in FP32 is a zero from the start, and to an integer
format sets nothing (R94, R95, R235, R248, log entry 38). -/
def mrdElem (fmt : Nat) (rm : Rm) (x : Nat) : Nat × Flags :=
  let neg := x / 2 ^ 31 == 1
  if fmt = 1 then if fp32.isSub x then (fp32.sign neg, fFz) else (x, 0)
  else
    match intBits fmt with
    | some k =>
      let x := if fp32.isSub x then fp32.sign neg else x
      let r := convertToInt fp32 k false rm true x
      let same := match fp32.unpack x with
        | .num neg m e => Term.add (.num (if neg then m else -(m : Int)) e) (.num (sext k r.1) 0)
            == .num 0 (min e 0)
        | _ => false
      (r.1, flagsIf (!same) fNx)
    | none =>
      if fp32.isSub x then ((convert 1 fmt true rm (fmt = 4 || fmt = 5) (fp32.sign neg)).1, fFz)
      else
        let r := convert 1 fmt true rm (fmt = 4 || fmt = 5) x
        let inf := match fp32.unpack x with | .inf _ => true | _ => false
        (r.1, if r.2 &&& fFz != 0 then fFz else if inf then r.2 else r.2 &&& (fNx ||| fOf))

/-- MWR's widening (R248). -/
def mwrElem (fmt x : Nat) : Nat × Flags :=
  let f := mmaFmt fmt
  let f := if fmt = 1 then fp32 else f
  if f.isSub x then (fp32.sign (x / 2 ^ (f.ew + f.mw) == 1), fFz)
  else if fmt = 1 then (x, 0)
  else ((convertFp f fp32 1 false .rne false x).1, 0)

/-! ### Meanings -/

/-- M_NOP: the M latch is idle (R45). -/
def execMNop (s : State) : Host.Outcome State Fault Refusal :=
  runSlot .mNop s fun c s => s.onSeq c.t fun q =>
    { q with latches := vset q.latches 3 { } }

/-- The reads that fill the operand latch (R236). -/
def gatherReads (c : Ctx) (cycle id addr : Nat) (x : VReg) : List StRead :=
  (List.range 64).filterMap fun k =>
    let h := elem x 16 k
    if h = 0xFFFF then none
    else if k < 32 then
      some { cycle := cycle, tile := c.t, slot := 3, addr := addr + 64 * h, len := 64, use := .opRow id k
             issue := c.now }
    else
      some { cycle := cycle, tile := c.t, slot := 3, addr := addr + 4 * h, len := 4, use := .opScale id (k - 32)
             issue := c.now }

/-- MGATH: R236. -/
def execMgath (f : MG) (s : State) : Host.Outcome State Fault Refusal :=
  runSlot (.mgath f) s fun c s =>
    let d := (s.tile c.t).divisor 1
    let a := (s.gen c f.g).2.toNat
    let x := s.readV c f.x.toNat
    let scales := packElems 32 ((List.range 32).map fun i => if elem x 16 (32 + i) = 0xFFFF then 0x7F7F7F7F else 0)
    let (id, s) := s.fresh
    let s := s.onTile c.t fun y =>
      let y := y.launchFlight
        { id := id, slot := 3, issue := c.now, ready := c.now + 2 * d, bound := c.now + 3 * d
          dests := [.opLatch], writes := [.opLatch 0 (BitVec.ofNat 1024 scales)] }
      { y with seq := { y.seq with stReads := y.seq.stReads ++ gatherReads c (c.now + 2 * d) id a x } }
    s.takeMatrix c 0 1

/-- MLDW: the tag on issue + 1, and the latch by issue + 4 (R237). -/
def execMldw (f : MG) (s : State) : Host.Outcome State Fault Refusal :=
  runSlot (.mldw f) s fun c s =>
    let d := (s.tile c.t).divisor 1
    let a := (s.gen c f.g).2.toNat
    let n := weightBytes f.fmt.toNat
    let (id, s) := s.fresh
    let (tag, s) := s.fresh
    let s := s.onTile c.t fun y =>
      let y := y.launchFlight
        { id := id, slot := 3, issue := c.now, ready := c.now + (if 4096 < n then 3 else 2) * d
          bound := c.now + 4 * d, dests := [.wLatch], writes := [.wLatch 0] }
      let y := y.launchFlight
        { id := tag, slot := 3, issue := c.now, ready := c.now + d, bound := c.now + d
          dests := [.wTag], writes := [.wTag f.fmt] }
      let part := fun (k off len : Nat) => if len = 0 then [] else
        [({ cycle := c.now + k * d, tile := c.t, slot := 3, addr := a + off, len := len
            use := .weight id off, issue := c.now } : StRead)]
      { y with seq := { y.seq with stReads := y.seq.stReads ++ part 2 0 (min n 4096) ++ part 3 4096 (n - 4096) } }
    s.takeMatrix c 1 2

/-- MMA: R238, R239. -/
def execMma (f : MA) (s : State) : Host.Outcome State Fault Refusal :=
  runSlot (.mma f) s fun c s =>
    let x := s.tile c.t
    let hidden := x.pending c.now .opLatch
    let rows := if hidden then BitVec.ofNat 16384 (s.undef 2100000) else x.regs.opLatch
    let scales := if hidden then BitVec.ofNat 1024 (s.undef 2200000) else x.regs.opScales
    let r := denseProduct f.fmt.toNat rows scales (s.weights c) (s.accRead c f.acc)
    (s.flightM c 40 [.acc f.acc.toNat (BitVec.ofNat 65536 (packElems 32 r.1))] r.2).takeMatrix c 2 32

/-- MMAD: one request joins the engine's list (R241). -/
def execMmad (f : MD) (s : State) : Host.Outcome State Fault Refusal :=
  runSlot (.mmad f) s fun c s =>
    let (g, a) := s.gen c f.g
    let (id, s) := s.fresh
    s.onTile c.t fun x => { x with eng := { x.eng with mmad := { x.eng.mmad with reqs := x.eng.mmad.reqs ++
      [{ id := id, acc := f.acc.toNat, row := c.index, q := f.q.toNat, base := a.toNat
         lim := min g.limit.toNat 0x100000, issue := c.now }] } } }

/-- MRD: R248. -/
def execMrd (f : MR) (s : State) : Host.Outcome State Fault Refusal :=
  runSlot (.mrd f) s fun c s =>
    let fmt := f.fmt.toNat
    let k := mrBits fmt
    let rs := (accElems (s.accRead c f.acc)).map (mrdElem fmt (Rm.ofBits f.rm))
    let n := 8192 / k
    let ws := (List.range (mrCount f.fmt)).map fun r =>
      Write.v (f.v.toNat + r) 0 (packReg k (((rs.drop (n * r)).take n).map (·.1)))
    (s.flightM c 20 ws (anyFlags (rs.map (·.2)))).takeMatrix c 3 4

/-- MWR: R248. -/
def execMwr (f : MR) (s : State) : Host.Outcome State Fault Refusal :=
  runSlot (.mwr f) s fun c s =>
    let fmt := f.fmt.toNat
    let k := mrBits fmt
    let xs := (List.range (mrCount f.fmt)).flatMap fun r => elems (s.readV c (f.v.toNat + r)) k (8192 / k)
    let rs := xs.map (mwrElem fmt)
    (s.flightM c 8 [.acc f.acc.toNat (BitVec.ofNat 65536 (packElems 32 (rs.map (·.1))))]
      (anyFlags (rs.map (·.2)))).takeMatrix c 3 4

/-- MZERO: R231, R249. -/
def execMzero (f : MR) (s : State) : Host.Outcome State Fault Refusal :=
  runSlot (.mzero f) s fun c s => (s.flightM c 2 [.acc f.acc.toNat 0] 0).takeMatrix c 4 1

/-- The conditions of MSTAT (R249). -/
def Tile.mstat (x : Tile) (cond : Nat) : Bool :=
  let idle := x.eng.mmad.reqs.isEmpty
  let landed := x.seq.flights.all fun f =>
    !(f.slot == 3 && f.dests.any fun l => match l with | .acc _ | .v _ => true | _ => false)
  if cond = 0 then idle else if cond = 1 then landed else if cond = 2 then idle && landed
  else x.eng.mmad.reqs.length < 32

/-- MSTAT: R249. -/
def execMstat (f : MS) (s : State) : Host.Outcome State Fault Refusal :=
  runSlot (.mstat f) s fun c s =>
    if f.pd = 0 then s else s.flightM c 1 [.p f.pd.toNat ((s.tile c.t).mstat f.cond.toNat)] 0

/-! ### The denomination path -/

/-- The state with a tile's denomination path changed. -/
def State.onMmad (s : State) (t : Nat) (f : Mmad → Mmad) : State :=
  s.onTile t fun x => { x with eng := { x.eng with mmad := f x.eng.mmad } }

/-- MMAD_REQUEST_START: the first request starts with empty sums on its row of its tile. In guarded mode it starts
after every earlier result to the tile has landed (R28, R242, R243). Disabled otherwise (log entry 7). -/
def execMmadRequestStart (t : Nat) (s : State) : Host.Outcome State Fault Refusal :=
  if t ≥ Config.tiles then .fault .noSuchPart
  else
    let x := s.tile t
    match x.working, x.eng.mmad.started, x.eng.mmad.reqs with
    | true, false, r :: _ =>
      let busy := x.pending (s.icc t) (.acc r.acc)
      if busy && x.sys.gm then .next s
      else
        let row := if busy then (List.range 32).map fun b => BitVec.ofNat 32 (s.undef (7000000 + b))
          else AccTile.row (look 0 r.acc x.regs.acc) r.row
        .next (s.onMmad t fun m =>
          { m with started := true, row := row, chunk := [], ahead := [], sums := List.replicate 32 0 }).nextFree
    | _, _, _ => .next s

/-- An activation row of a request (R240). -/
def Tile.activation (x : Tile) (r : MmadReq) (p : Nat) : BitVec 512 :=
  BitVec.ofNat 512 (readNat x.st (r.base + 64 * p) 64)

/-- The sums after the open chunk (R101, R242), with the flags of its window sums. -/
def flushChunk (sums : List (BitVec 32)) (rows : List (BitVec 512)) : List (BitVec 32) × Flags :=
  let rs := (List.range 32).map fun b =>
    windowSum (termOf fp32 (sums.getD b 0).toNat
      :: rows.map fun x => termOf bf16 (x.extractLsb' (16 * b) 16).toNat)
  (rs.map fun r => BitVec.ofNat 32 r.1, anyFlags (rs.map (·.2)))

/-- A tile whose engine flushes its open chunk. A row that no MMAD_ACTIVATION_READ has read before is read on this cycle (R246, log
entry 5). -/
def Tile.flush (x : Tile) (r : MmadReq) : Tile :=
  let m := x.eng.mmad
  if m.chunk.isEmpty then x
  else
    let f := flushChunk m.sums (m.chunk.map fun e => e.2.getD (x.activation r e.1))
    ({ x with eng := { x.eng with mmad := { m with sums := f.1, chunk := [] } } } : Tile).raise f.2

/-- A position joins the open chunk, with its row if that has been read ahead. -/
def Mmad.position (m : Mmad) (p : Nat) : Mmad :=
  let row := find p m.ahead
  { m with chunk := m.chunk ++ [(p, row)], ahead := if row.isSome then m.ahead.eraseP fun e => e.1 == p else m.ahead }

/-- A group-boundary token: the sums times the value, added into the row, each rounded once (R101, R242). -/
def Tile.accumulate (x : Tile) (r : MmadReq) (v : BitVec 16) : Tile :=
  let m := x.eng.mmad
  let rs := (List.range 32).map fun b =>
    let p := windowSum [(termOf fp32 (m.sums.getD b 0).toNat).mul (termOf bf16 v.toNat)]
    let a := windowSum [termOf fp32 (m.row.getD b 0).toNat, termOf fp32 p.1]
    (BitVec.ofNat 32 a.1, p.2 ||| a.2)
  let row := rs.map (·.1)
  ({ x with
    regs := { x.regs with acc := put 0 r.acc (AccTile.setRow (look 0 r.acc x.regs.acc) r.row row) x.regs.acc }
    eng := { x.eng with mmad := { m with row := row, sums := List.replicate 32 0 } } } : Tile).raise
      (anyFlags (rs.map (·.2)))

/-- The list after a request has ended (R242, R245). -/
def Mmad.ended (m : Mmad) (now : Nat) : Mmad :=
  { m with reqs := m.reqs.tail, started := false, row := [], chunk := [], ahead := [], sums := []
           rowsDone := if m.reqs.length ≤ 1 then 0 else m.rowsDone + 1, endedAt := now }

/-- MMAD_ENTRY_POP: the request in progress consumes one entry of its queue: a position, a group-boundary token that
accumulates, or the row token that ends it; a position whose row is not below the limit faults (R242, R245). Disabled
while the queue is empty (log entry 7). -/
def execMmadEntryPop (t : Nat) (s : State) : Host.Outcome State Fault Refusal :=
  if t ≥ Config.tiles then .fault .noSuchPart
  else
    let x := s.tile t
    match x.working, x.eng.mmad.started, x.eng.mmad.reqs with
    | true, true, r :: _ =>
      match vget [] x.eng.q r.q with
      | [] => .next s
      | e :: rest =>
        let now := s.icc t
        let s := s.onTile t fun x => { x with eng := { x.eng with
          q := vset x.eng.q r.q rest, pops := (now, r.q) :: x.eng.pops.filter fun e => e.1 == now } }
        let kind := e.extractLsb' 30 2
        if kind = 0 then
          let p := (e.extractLsb' 0 14).toNat
          if r.lim < r.base + 64 * p + 64 then .next (s.found t { code := 0x4A, slot := 3 })
          else
            let s := s.onMmad t (·.position p)
            .next (if (s.tile t).eng.mmad.chunk.length < 64 then s else s.onTile t (·.flush r))
        else if kind = 1 then .next (s.onTile t fun x => (x.flush r).accumulate r (e.extractLsb' 0 16))
        else .next (s.onMmad t (·.ended now))
    | _, _, _ => .next s

/-- MMAD_ACTIVATION_READ: the activation row of a position of the request in progress is read from staging, for a
position consumed already or for one to come (R246). -/
def execMmadActivationRead (t pos : Nat) (s : State) : Host.Outcome State Fault Refusal :=
  if t ≥ Config.tiles then .fault .noSuchPart
  else
    let x := s.tile t
    match x.working, x.eng.mmad.started, x.eng.mmad.reqs with
    | true, true, r :: _ =>
      if r.lim < r.base + 64 * pos + 64 then .next s
      else
        let row := x.activation r pos
        .next (s.onMmad t fun m =>
          if m.chunk.any fun e => e.1 == pos && e.2.isNone then
            { m with chunk := m.chunk.map fun e => if e.1 = pos && e.2.isNone then (pos, some row) else e }
          else { m with ahead := m.ahead ++ [(pos, row)] })
    | _, _, _ => .next s

/-- MMAD_FAULT_TRAP: the engine's fault is raised on the next island cycle (R245). -/
def execMmadFaultTrap (t : Nat) (s : State) : Host.Outcome State Fault Refusal :=
  if t ≥ Config.tiles then .fault .noSuchPart
  else .next (s.raiseFound t fun r => r.slot == 3 && r.code == 0x4A)

end Sys2Proof.Machine
end

