-- ==== Sys2Proof/Machine/Scalar.lean ====
section
/-! DEFINITION. The S slot's operations (R109 to R149). -/

namespace Sys2Proof.Machine

/-- After a single-shot instruction issues, the S latch is idle (R111). -/
def State.singleShot (s : State) (c : Ctx) : State :=
  s.onSeq c.t fun q => { q with latches := vset q.latches 0 { } }

/-! ### What the arithmetic computes (R112) -/

/-- Bits [127:64] of the signed and of the unsigned product. -/
def mulHighS (a b : Word) : Word := BitVec.ofInt 64 (a.toInt * b.toInt / 2 ^ 64)
def mulHighU (a b : Word) : Word := BitVec.ofNat 64 (a.toNat * b.toNat / 2 ^ 64)
/-- Quotients and remainders; a divisor of zero gives all ones, and the dividend. -/
def divS (a b : Word) : Word := if b = 0 then -1 else BitVec.ofInt 64 (a.toInt.tdiv b.toInt)
def divU (a b : Word) : Word := if b = 0 then -1 else a / b
def remS (a b : Word) : Word := if b = 0 then a else BitVec.ofInt 64 (a.toInt.tmod b.toInt)
def remU (a b : Word) : Word := if b = 0 then a else a % b
/-- Shifts and the rotation by b[5:0]. -/
def shl64 (a b : Word) : Word := a <<< (b.toNat % 64)
def shr64 (a b : Word) : Word := a >>> (b.toNat % 64)
def sar64 (a b : Word) : Word := a.sshiftRight (b.toNat % 64)
def rol64 (a b : Word) : Word := a.rotateLeft (b.toNat % 64)
/-- Signed and unsigned minimum and maximum. -/
def minS (a b : Word) : Word := if a.slt b then a else b
def maxS (a b : Word) : Word := if a.slt b then b else a
def minU (a b : Word) : Word := if a.ult b then a else b
def maxU (a b : Word) : Word := if a.ult b then b else a
/-- Zero bits above the highest one bit, below the lowest, and the number of one bits. -/
def clz64 (a : Word) : Word :=
  BitVec.ofNat 64 (((List.range 64).find? fun k => a.getLsbD (63 - k)).getD 64)
def ctz64 (a : Word) : Word :=
  BitVec.ofNat 64 (((List.range 64).find? fun k => a.getLsbD k).getD 64)
def popc64 (a : Word) : Word := BitVec.ofNat 64 ((List.range 64).countP fun k => a.getLsbD k)
/-- Bytes in reverse order. -/
def bswap64 (a : Word) : Word := BitVec.ofNat 64 (leNat (leBytes 8 a.toNat).reverse)

/-! ### The forms of operation -/

/-- An ALU or multiplier operation on s[a] and s[b] (R109, R112). -/
def State.aluR (s : State) (c : Ctx) (f : SR) (lat : Nat) (op : Word → Word → Word) : State :=
  s.flightS c lat f.d (op (s.readS c f.a) (s.readS c f.b))

/-- The same on s[a] and the sign-extended immediate (R112). -/
def State.aluI (s : State) (c : Ctx) (f : SI) (lat : Nat) (op : Word → Word → Word) : State :=
  s.flightS c lat f.d (op (s.readS c f.a) (f.imm.signExtend 64))

/-- The divider is taken for 34 cycles (R109). -/
def State.takeDivider (s : State) (c : Ctx) : State :=
  s.onSeq c.t fun q => { q with divFree := c.now + 34 * (s.tile c.t).divisor 0 }

/-- A compare of s[a] and s[b], or of s[a] and the sign-extended immediate (R114). -/
def State.cmpR (s : State) (c : Ctx) (f : SP) (test : Word → Word → Bool) : State :=
  s.flightP c 1 f.pd (test (s.readS c f.a) (s.readS c f.b))
def State.cmpI (s : State) (c : Ctx) (f : SPI) (test : Word → Word → Bool) : State :=
  s.flightP c 1 f.pd (test (s.readS c f.a) (f.imm.signExtend 64))

/-- A field of a generator, zero-extended (R116). -/
def Gen.field (a : Gen) (f : Nat) : Word :=
  if f = 0 then a.space.setWidth 64
  else if f = 1 then a.base
  else if f = 2 then a.step
  else if f < 9 then vget 0 a.stride (f - 3)
  else a.limit

/-- The bytes of a register that a store writes. -/
def storeBytes (size : Nat) (x : Word) : List Byte := leBytes size x.toNat

/-- LD: its flight, and the read of staging on its stated cycle; or, in an open line region, one recorded access
(R124, R125, R131). -/
def State.load (s : State) (c : Ctx) (f : SM) : State :=
  let x := s.tile c.t
  let (a, addr) := s.gen c f.g
  let dests : List Loc := if f.d = 0 then [] else [.s f.d.toNat]
  match x.eng.region with
  | some (line, acc) =>
    let id := s.nextId
    let s := s.flightTo c dests never never
    s.onTile c.t fun x => { x with eng := { x.eng with
      region := some (line, acc ++ [{ store := false, off := addr.toNat % 128, size := sizeOf f.size
                                      reg := f.d.toNat, sx := f.sx, data := 0, flight := some id }]) } }
  | none =>
    let h := hopCount c.t (islandTarget c.t addr.toNat).1
    let far := a.space = 1
    let at_ := if far then c.now + 6 + h else c.now + 1
    let id := s.nextId
    let s := s.flightTo c dests at_ (if far then c.now + 12 + 2 * h else c.now + 4)
    let src := if far then islandTarget c.t addr.toNat else (c.t, addr.toNat)
    s.onSeq c.t fun q => { q with stReads := q.stReads ++
      [{ cycle := at_, tile := src.1, slot := c.slot, addr := src.2, len := sizeOf f.size
         use := .scalar id f.d.toNat f.sx, issue := c.now }] }

/-- ST: the write of staging on its stated cycle; or, in an open line region, one recorded access that captures
s[d] (R124, R125, R131). -/
def State.store (s : State) (c : Ctx) (f : SM) : State :=
  let (a, addr) := s.gen c f.g
  let v := s.readS c f.d
  match (s.tile c.t).eng.region with
  | some (line, acc) =>
    s.onTile c.t fun x => { x with eng := { x.eng with
      region := some (line, acc ++ [{ store := true, off := addr.toNat % 128, size := sizeOf f.size
                                      reg := 0, sx := false, data := v }]) } }
  | none =>
    let h := hopCount c.t (islandTarget c.t addr.toNat).1
    let far := a.space = 1
    let dst := if far then islandTarget c.t addr.toNat else (c.t, addr.toNat)
    s.onSeq c.t fun q => { q with stWrites := q.stWrites ++
      [{ cycle := if far then c.now + 6 + h else c.now + 1, tile := dst.1, slot := c.slot, addr := dst.2
         bytes := storeBytes (sizeOf f.size) v, issue := c.now, isle := far }] }

/-- A scalar atomic leaves the tile; a returning form's destination is in flight until it performs (R126 to
R129). -/
def State.atomic (s : State) (c : Ctx) (f : SM) (op : AOp) (ret : Bool) : State :=
  let (_, addr) := s.gen c f.g
  let n := s.readS c f.b
  let e := s.readS c f.d
  let dests : List Loc := if f.d = 0 then [] else [.s f.d.toNat]
  let id := s.nextId
  let s := if ret then
      (s.flightTo c dests never never).onSeq c.t fun q =>
        { q with flights := q.flights.map fun g => if g.id = id then { g with atomic := true } else g }
    else s.fresh.2
  s.onTile c.t fun x => { x with eng := { x.eng with atomics := x.eng.atomics ++
    [{ id := id, va := addr.toNat, issue := c.now, flight := if ret then some id else none
       kind := .scalar op (sizeOf f.size) n e (if ret then some f.d.toNat else none) }] } }

/-- A write to a system register, seen from the next cycle (R142). -/
def State.sysWrite (s : State) (c : Ctx) (f : SS) (how : Nat) : State :=
  (s.onSeq c.t fun q =>
    { q with srPend := q.srPend ++ [{ sys := f.sys.toNat, how := how, x := s.readS c f.d }] }).singleShot c

/-- Target entry k asked for, from the next cycle on (R122). -/
def State.prepare (s : State) (c : Ctx) (k : BitVec 3) (addr : Word) : State :=
  (s.onSeq c.t fun q =>
    { q with prepPend := q.prepPend ++ [(k.toNat, { addr := addr, fill := .filling c.now })] }).singleShot c

/-! ### Meanings -/

/-- S_NOP: the S latch is idle (R45). -/
def execSNop (s : State) : Host.Outcome State Fault Refusal :=
  runSlot .sNop s fun c s => s.singleShot c

/-- ADD: R112. -/
def execAdd (f : SR) (s : State) : Host.Outcome State Fault Refusal :=
  runSlot (.add f) s fun c s => s.aluR c f 1 (· + ·)

/-- SUB: R112. -/
def execSub (f : SR) (s : State) : Host.Outcome State Fault Refusal :=
  runSlot (.sub f) s fun c s => s.aluR c f 1 (· - ·)

/-- MUL: R112. -/
def execMul (f : SR) (s : State) : Host.Outcome State Fault Refusal :=
  runSlot (.mul f) s fun c s => s.aluR c f 3 (· * ·)

/-- MULHS: R112. -/
def execMulhs (f : SR) (s : State) : Host.Outcome State Fault Refusal :=
  runSlot (.mulhs f) s fun c s => s.aluR c f 3 mulHighS

/-- MULHU: R112. -/
def execMulhu (f : SR) (s : State) : Host.Outcome State Fault Refusal :=
  runSlot (.mulhu f) s fun c s => s.aluR c f 3 mulHighU

/-- DIV: R112, R109. -/
def execDiv (f : SR) (s : State) : Host.Outcome State Fault Refusal :=
  runSlot (.div f) s fun c s => (s.aluR c f 34 divS).takeDivider c

/-- DIVU: R112, R109. -/
def execDivu (f : SR) (s : State) : Host.Outcome State Fault Refusal :=
  runSlot (.divu f) s fun c s => (s.aluR c f 34 divU).takeDivider c

/-- REM: R112, R109. -/
def execRem (f : SR) (s : State) : Host.Outcome State Fault Refusal :=
  runSlot (.rem f) s fun c s => (s.aluR c f 34 remS).takeDivider c

/-- REMU: R112, R109. -/
def execRemu (f : SR) (s : State) : Host.Outcome State Fault Refusal :=
  runSlot (.remu f) s fun c s => (s.aluR c f 34 remU).takeDivider c

/-- AND: R112. -/
def execAnd (f : SR) (s : State) : Host.Outcome State Fault Refusal :=
  runSlot (.and f) s fun c s => s.aluR c f 1 (· &&& ·)

/-- OR: R112. -/
def execOr (f : SR) (s : State) : Host.Outcome State Fault Refusal :=
  runSlot (.or f) s fun c s => s.aluR c f 1 (· ||| ·)

/-- XOR: R112. -/
def execXor (f : SR) (s : State) : Host.Outcome State Fault Refusal :=
  runSlot (.xor f) s fun c s => s.aluR c f 1 (· ^^^ ·)

/-- ANDN: R112. -/
def execAndn (f : SR) (s : State) : Host.Outcome State Fault Refusal :=
  runSlot (.andn f) s fun c s => s.aluR c f 1 (fun a b => a &&& ~~~b)

/-- SHL: R112. -/
def execShl (f : SR) (s : State) : Host.Outcome State Fault Refusal :=
  runSlot (.shl f) s fun c s => s.aluR c f 1 shl64

/-- SHR: R112. -/
def execShr (f : SR) (s : State) : Host.Outcome State Fault Refusal :=
  runSlot (.shr f) s fun c s => s.aluR c f 1 shr64

/-- SAR: R112. -/
def execSar (f : SR) (s : State) : Host.Outcome State Fault Refusal :=
  runSlot (.sar f) s fun c s => s.aluR c f 1 sar64

/-- ROL: R112. -/
def execRol (f : SR) (s : State) : Host.Outcome State Fault Refusal :=
  runSlot (.rol f) s fun c s => s.aluR c f 1 rol64

/-- MIN: R112. -/
def execMin (f : SR) (s : State) : Host.Outcome State Fault Refusal :=
  runSlot (.min f) s fun c s => s.aluR c f 1 minS

/-- MAX: R112. -/
def execMax (f : SR) (s : State) : Host.Outcome State Fault Refusal :=
  runSlot (.max f) s fun c s => s.aluR c f 1 maxS

/-- MINU: R112. -/
def execMinu (f : SR) (s : State) : Host.Outcome State Fault Refusal :=
  runSlot (.minu f) s fun c s => s.aluR c f 1 minU

/-- MAXU: R112. -/
def execMaxu (f : SR) (s : State) : Host.Outcome State Fault Refusal :=
  runSlot (.maxu f) s fun c s => s.aluR c f 1 maxU

/-- CLZ: R112. -/
def execClz (f : SR) (s : State) : Host.Outcome State Fault Refusal :=
  runSlot (.clz f) s fun c s => s.aluR c f 1 (fun a _ => clz64 a)

/-- CTZ: R112. -/
def execCtz (f : SR) (s : State) : Host.Outcome State Fault Refusal :=
  runSlot (.ctz f) s fun c s => s.aluR c f 1 (fun a _ => ctz64 a)

/-- POPC: R112. -/
def execPopc (f : SR) (s : State) : Host.Outcome State Fault Refusal :=
  runSlot (.popc f) s fun c s => s.aluR c f 1 (fun a _ => popc64 a)

/-- BSWAP: R112. -/
def execBswap (f : SR) (s : State) : Host.Outcome State Fault Refusal :=
  runSlot (.bswap f) s fun c s => s.aluR c f 1 (fun a _ => bswap64 a)

/-- ADDI: R112. -/
def execAddi (f : SI) (s : State) : Host.Outcome State Fault Refusal :=
  runSlot (.addi f) s fun c s => s.aluI c f 1 (· + ·)

/-- SUBI: R112. -/
def execSubi (f : SI) (s : State) : Host.Outcome State Fault Refusal :=
  runSlot (.subi f) s fun c s => s.aluI c f 1 (· - ·)

/-- MULI: R112. -/
def execMuli (f : SI) (s : State) : Host.Outcome State Fault Refusal :=
  runSlot (.muli f) s fun c s => s.aluI c f 3 (· * ·)

/-- MULHSI: R112. -/
def execMulhsi (f : SI) (s : State) : Host.Outcome State Fault Refusal :=
  runSlot (.mulhsi f) s fun c s => s.aluI c f 3 mulHighS

/-- MULHUI: R112. -/
def execMulhui (f : SI) (s : State) : Host.Outcome State Fault Refusal :=
  runSlot (.mulhui f) s fun c s => s.aluI c f 3 mulHighU

/-- DIVI: R112, R109. -/
def execDivi (f : SI) (s : State) : Host.Outcome State Fault Refusal :=
  runSlot (.divi f) s fun c s => (s.aluI c f 34 divS).takeDivider c

/-- DIVUI: R112, R109. -/
def execDivui (f : SI) (s : State) : Host.Outcome State Fault Refusal :=
  runSlot (.divui f) s fun c s => (s.aluI c f 34 divU).takeDivider c

/-- REMI: R112, R109. -/
def execRemi (f : SI) (s : State) : Host.Outcome State Fault Refusal :=
  runSlot (.remi f) s fun c s => (s.aluI c f 34 remS).takeDivider c

/-- REMUI: R112, R109. -/
def execRemui (f : SI) (s : State) : Host.Outcome State Fault Refusal :=
  runSlot (.remui f) s fun c s => (s.aluI c f 34 remU).takeDivider c

/-- ANDI: R112. -/
def execAndi (f : SI) (s : State) : Host.Outcome State Fault Refusal :=
  runSlot (.andi f) s fun c s => s.aluI c f 1 (· &&& ·)

/-- ORI: R112. -/
def execOri (f : SI) (s : State) : Host.Outcome State Fault Refusal :=
  runSlot (.ori f) s fun c s => s.aluI c f 1 (· ||| ·)

/-- XORI: R112. -/
def execXori (f : SI) (s : State) : Host.Outcome State Fault Refusal :=
  runSlot (.xori f) s fun c s => s.aluI c f 1 (· ^^^ ·)

/-- ANDNI: R112. -/
def execAndni (f : SI) (s : State) : Host.Outcome State Fault Refusal :=
  runSlot (.andni f) s fun c s => s.aluI c f 1 (fun a b => a &&& ~~~b)

/-- SHLI: R112. -/
def execShli (f : SI) (s : State) : Host.Outcome State Fault Refusal :=
  runSlot (.shli f) s fun c s => s.aluI c f 1 shl64

/-- SHRI: R112. -/
def execShri (f : SI) (s : State) : Host.Outcome State Fault Refusal :=
  runSlot (.shri f) s fun c s => s.aluI c f 1 shr64

/-- SARI: R112. -/
def execSari (f : SI) (s : State) : Host.Outcome State Fault Refusal :=
  runSlot (.sari f) s fun c s => s.aluI c f 1 sar64

/-- ROLI: R112. -/
def execRoli (f : SI) (s : State) : Host.Outcome State Fault Refusal :=
  runSlot (.roli f) s fun c s => s.aluI c f 1 rol64

/-- MINI: R112. -/
def execMini (f : SI) (s : State) : Host.Outcome State Fault Refusal :=
  runSlot (.mini f) s fun c s => s.aluI c f 1 minS

/-- MAXI: R112. -/
def execMaxi (f : SI) (s : State) : Host.Outcome State Fault Refusal :=
  runSlot (.maxi f) s fun c s => s.aluI c f 1 maxS

/-- MINUI: R112. -/
def execMinui (f : SI) (s : State) : Host.Outcome State Fault Refusal :=
  runSlot (.minui f) s fun c s => s.aluI c f 1 minU

/-- MAXUI: R112. -/
def execMaxui (f : SI) (s : State) : Host.Outcome State Fault Refusal :=
  runSlot (.maxui f) s fun c s => s.aluI c f 1 maxU

/-- LIH: R113. -/
def execLih (f : SI) (s : State) : Host.Outcome State Fault Refusal :=
  runSlot (.lih f) s fun c s => s.flightS c 1 f.d (f.imm.extractLsb' 0 24 ++ (s.readS c f.a).extractLsb' 0 40)

/-- CMPEQ: R114. -/
def execCmpeq (f : SP) (s : State) : Host.Outcome State Fault Refusal :=
  runSlot (.cmpeq f) s fun c s => s.cmpR c f (· == ·)

/-- CMPNE: R114. -/
def execCmpne (f : SP) (s : State) : Host.Outcome State Fault Refusal :=
  runSlot (.cmpne f) s fun c s => s.cmpR c f (· != ·)

/-- CMPLT: R114. -/
def execCmplt (f : SP) (s : State) : Host.Outcome State Fault Refusal :=
  runSlot (.cmplt f) s fun c s => s.cmpR c f BitVec.slt

/-- CMPLE: R114. -/
def execCmple (f : SP) (s : State) : Host.Outcome State Fault Refusal :=
  runSlot (.cmple f) s fun c s => s.cmpR c f BitVec.sle

/-- CMPLTU: R114. -/
def execCmpltu (f : SP) (s : State) : Host.Outcome State Fault Refusal :=
  runSlot (.cmpltu f) s fun c s => s.cmpR c f BitVec.ult

/-- CMPLEU: R114. -/
def execCmpleu (f : SP) (s : State) : Host.Outcome State Fault Refusal :=
  runSlot (.cmpleu f) s fun c s => s.cmpR c f BitVec.ule

/-- CMPEQI: R114. -/
def execCmpeqi (f : SPI) (s : State) : Host.Outcome State Fault Refusal :=
  runSlot (.cmpeqi f) s fun c s => s.cmpI c f (· == ·)

/-- CMPNEI: R114. -/
def execCmpnei (f : SPI) (s : State) : Host.Outcome State Fault Refusal :=
  runSlot (.cmpnei f) s fun c s => s.cmpI c f (· != ·)

/-- CMPLTI: R114. -/
def execCmplti (f : SPI) (s : State) : Host.Outcome State Fault Refusal :=
  runSlot (.cmplti f) s fun c s => s.cmpI c f BitVec.slt

/-- CMPLEI: R114. -/
def execCmplei (f : SPI) (s : State) : Host.Outcome State Fault Refusal :=
  runSlot (.cmplei f) s fun c s => s.cmpI c f BitVec.sle

/-- CMPLTUI: R114. -/
def execCmpltui (f : SPI) (s : State) : Host.Outcome State Fault Refusal :=
  runSlot (.cmpltui f) s fun c s => s.cmpI c f BitVec.ult

/-- CMPLEUI: R114. -/
def execCmpleui (f : SPI) (s : State) : Host.Outcome State Fault Refusal :=
  runSlot (.cmpleui f) s fun c s => s.cmpI c f BitVec.ule

/-- PAND: R114. -/
def execPand (f : SQ) (s : State) : Host.Outcome State Fault Refusal :=
  runSlot (.pand f) s fun c s => s.flightP c 1 f.pd (and (s.readP c f.pa) (s.readP c f.pb))

/-- POR: R114. -/
def execPor (f : SQ) (s : State) : Host.Outcome State Fault Refusal :=
  runSlot (.por f) s fun c s => s.flightP c 1 f.pd (or (s.readP c f.pa) (s.readP c f.pb))

/-- PXOR: R114. -/
def execPxor (f : SQ) (s : State) : Host.Outcome State Fault Refusal :=
  runSlot (.pxor f) s fun c s => s.flightP c 1 f.pd (xor (s.readP c f.pa) (s.readP c f.pb))

/-- PNOT: R114. -/
def execPnot (f : SQ) (s : State) : Host.Outcome State Fault Refusal :=
  runSlot (.pnot f) s fun c s => s.flightP c 1 f.pd !(s.readP c f.pa)

/-- AGSET: R116. -/
def execAgset (f : SG) (s : State) : Host.Outcome State Fault Refusal :=
  runSlot (.agset f) s fun c s => s.flight c ((s.tile c.t).divisor 0) [.ag f.g.toNat f.f.toNat (s.readS c f.a + f.imm.signExtend 64)]

/-- AGGET: R116; the destination is in field a. -/
def execAgget (f : SG) (s : State) : Host.Outcome State Fault Refusal :=
  runSlot (.agget f) s fun c s => s.flightS c 1 f.a ((s.gen c f.g).1.field f.f.toNat)

/-- LOOP: R118; the body starts where sequential flow goes from the bundle, and the loop buffer captures an outermost
body (R121). -/
def execLoop (f : SL) (s : State) : Host.Outcome State Fault Refusal :=
  runSlot (.loop f) s fun c s => 
    (s.onSeq c.t fun q =>
      let level : Loop := { active := true, lc := BitVec.ofNat 32 (s.loopCount c f), l := 0, body := q.next }
      let q := { q with loops := vset q.loops f.k.toNat level }
      if f.k.toNat = 0 || (q.loops.toList.take f.k.toNat).all fun l => !l.active then
        { q with captured := some (q.next, q.next), capture := true } else q).singleShot c

/-- PREP: R122. -/
def execPrep (f : SB) (s : State) : Host.Outcome State Fault Refusal :=
  runSlot (.prep f) s fun c s => s.prepare c f.t (BitVec.ofNat 64 c.addr + f.imm.signExtend 64 * 8)

/-- PREPR: R122. -/
def execPrepr (f : SB) (s : State) : Host.Outcome State Fault Refusal :=
  runSlot (.prepr f) s fun c s => s.prepare c f.t (s.readS c f.a + f.imm.signExtend 64 * 8)

/-- LD: R124, R125, R131. -/
def execLd (f : SM) (s : State) : Host.Outcome State Fault Refusal :=
  runSlot (.ld f) s fun c s => s.load c f

/-- ST: R124, R125, R131. -/
def execSt (f : SM) (s : State) : Host.Outcome State Fault Refusal :=
  runSlot (.st f) s fun c s => s.store c f

/-- STADD: R126. -/
def execStadd (f : SM) (s : State) : Host.Outcome State Fault Refusal :=
  runSlot (.stadd f) s fun c s => s.atomic c f .add false

/-- STAND: R126. -/
def execStand (f : SM) (s : State) : Host.Outcome State Fault Refusal :=
  runSlot (.stand f) s fun c s => s.atomic c f .and false

/-- STOR: R126. -/
def execStor (f : SM) (s : State) : Host.Outcome State Fault Refusal :=
  runSlot (.stor f) s fun c s => s.atomic c f .or false

/-- STXOR: R126. -/
def execStxor (f : SM) (s : State) : Host.Outcome State Fault Refusal :=
  runSlot (.stxor f) s fun c s => s.atomic c f .xor false

/-- STMIN: R126. -/
def execStmin (f : SM) (s : State) : Host.Outcome State Fault Refusal :=
  runSlot (.stmin f) s fun c s => s.atomic c f .min false

/-- STMAX: R126. -/
def execStmax (f : SM) (s : State) : Host.Outcome State Fault Refusal :=
  runSlot (.stmax f) s fun c s => s.atomic c f .max false

/-- STMINU: R126. -/
def execStminu (f : SM) (s : State) : Host.Outcome State Fault Refusal :=
  runSlot (.stminu f) s fun c s => s.atomic c f .minu false

/-- STMAXU: R126. -/
def execStmaxu (f : SM) (s : State) : Host.Outcome State Fault Refusal :=
  runSlot (.stmaxu f) s fun c s => s.atomic c f .maxu false

/-- STFADD: R126. -/
def execStfadd (f : SM) (s : State) : Host.Outcome State Fault Refusal :=
  runSlot (.stfadd f) s fun c s => s.atomic c f .fadd false

/-- STFMIN: R126. -/
def execStfmin (f : SM) (s : State) : Host.Outcome State Fault Refusal :=
  runSlot (.stfmin f) s fun c s => s.atomic c f .fmin false

/-- STFMAX: R126. -/
def execStfmax (f : SM) (s : State) : Host.Outcome State Fault Refusal :=
  runSlot (.stfmax f) s fun c s => s.atomic c f .fmax false

/-- LDADD: R126. -/
def execLdadd (f : SM) (s : State) : Host.Outcome State Fault Refusal :=
  runSlot (.ldadd f) s fun c s => s.atomic c f .add true

/-- LDAND: R126. -/
def execLdand (f : SM) (s : State) : Host.Outcome State Fault Refusal :=
  runSlot (.ldand f) s fun c s => s.atomic c f .and true

/-- LDOR: R126. -/
def execLdor (f : SM) (s : State) : Host.Outcome State Fault Refusal :=
  runSlot (.ldor f) s fun c s => s.atomic c f .or true

/-- LDXOR: R126. -/
def execLdxor (f : SM) (s : State) : Host.Outcome State Fault Refusal :=
  runSlot (.ldxor f) s fun c s => s.atomic c f .xor true

/-- LDMIN: R126. -/
def execLdmin (f : SM) (s : State) : Host.Outcome State Fault Refusal :=
  runSlot (.ldmin f) s fun c s => s.atomic c f .min true

/-- LDMAX: R126. -/
def execLdmax (f : SM) (s : State) : Host.Outcome State Fault Refusal :=
  runSlot (.ldmax f) s fun c s => s.atomic c f .max true

/-- LDMINU: R126. -/
def execLdminu (f : SM) (s : State) : Host.Outcome State Fault Refusal :=
  runSlot (.ldminu f) s fun c s => s.atomic c f .minu true

/-- LDMAXU: R126. -/
def execLdmaxu (f : SM) (s : State) : Host.Outcome State Fault Refusal :=
  runSlot (.ldmaxu f) s fun c s => s.atomic c f .maxu true

/-- LDFADD: R126. -/
def execLdfadd (f : SM) (s : State) : Host.Outcome State Fault Refusal :=
  runSlot (.ldfadd f) s fun c s => s.atomic c f .fadd true

/-- LDFMIN: R126. -/
def execLdfmin (f : SM) (s : State) : Host.Outcome State Fault Refusal :=
  runSlot (.ldfmin f) s fun c s => s.atomic c f .fmin true

/-- LDFMAX: R126. -/
def execLdfmax (f : SM) (s : State) : Host.Outcome State Fault Refusal :=
  runSlot (.ldfmax f) s fun c s => s.atomic c f .fmax true

/-- SWP: R126. -/
def execSwp (f : SM) (s : State) : Host.Outcome State Fault Refusal :=
  runSlot (.swp f) s fun c s => s.atomic c f .swp true

/-- CAS: R126. -/
def execCas (f : SM) (s : State) : Host.Outcome State Fault Refusal :=
  runSlot (.cas f) s fun c s => s.atomic c f .cas true

/-- ALBEGIN: R131. -/
def execAlbegin (g : BitVec 4) (s : State) : Host.Outcome State Fault Refusal :=
  runSlot (.albegin g) s fun c s => 
    (s.onTile c.t fun x => { x with eng := { x.eng with region := some ((s.gen c g).2.toNat, []) } }).singleShot c

/-- ALEND: the region goes to the home; one without accesses performs nothing (R131). -/
def execAlend (s : State) : Host.Outcome State Fault Refusal :=
  runSlot .alend s fun c s => 
    let acc := match (s.tile c.t).eng.region with | some r => r | none => (0, [])
    let first := acc.2.findSome? (·.flight)
    let (id, s) := s.fresh
    let s := s.onTile c.t fun x => { x with eng := { x.eng with
      region := none
      atomics := if acc.2.isEmpty then x.eng.atomics else x.eng.atomics ++
        [{ id := id, va := acc.1, kind := .line acc.2, issue := c.now, flight := first }] } }
    (s.onSeq c.t fun q =>
      { q with flights := q.flights.map fun g => if first == some g.id then { g with atomic := true } else g }).singleShot c

/-- WAITA: R133. -/
def execWaita (f : SM) (s : State) : Host.Outcome State Fault Refusal :=
  runSlot (.waita f) s fun c s => 
    let w := Stall.waita f.d.toNat (s.gen c f.g).2.toNat ((s.readS c f.b).extractLsb' 0 32)
    (s.onSeq c.t fun q => { q with stall := w }).singleShot c

/-- MFSR: R142. -/
def execMfsr (f : SS) (s : State) : Host.Outcome State Fault Refusal :=
  runSlot (.mfsr f) s fun c s => s.flightS c 1 f.d (s.sysRead c.t f.sys.toNat)

/-- MTSR: R142. -/
def execMtsr (f : SS) (s : State) : Host.Outcome State Fault Refusal :=
  runSlot (.mtsr f) s fun c s => s.sysWrite c f 0

/-- MSSR: R142. -/
def execMssr (f : SS) (s : State) : Host.Outcome State Fault Refusal :=
  runSlot (.mssr f) s fun c s => s.sysWrite c f 1

/-- MCSR: R142. -/
def execMcsr (f : SS) (s : State) : Host.Outcome State Fault Refusal :=
  runSlot (.mcsr f) s fun c s => s.sysWrite c f 2

/-- MODE: R140; the drain follows the bundle's last issue. -/
def execMode (gm er : Bool) (s : State) : Host.Outcome State Fault Refusal :=
  runSlot (.mode gm er) s fun c s => (s.onSeq c.t fun q => { q with closing := some (.modeDrain gm er) }).singleShot c

/-- CLKDIV: R141, R334. -/
def execClkdiv (eng : BitVec 2) (n1 : BitVec 3) (s : State) : Host.Outcome State Fault Refusal :=
  runSlot (.clkdiv eng n1) s fun c s => (s.onSeq c.t fun q => { q with divPend := q.divPend ++ [(eng.toNat, n1.toNat + 1)] }).singleShot c

/-- FENCE: R135. -/
def execFence (sel : BitVec 2) (s : State) : Host.Outcome State Fault Refusal :=
  runSlot (.fence sel) s fun c s => (s.onSeq c.t fun q => { q with stall := .fence sel.toNat s.nextId }).singleShot c

/-- WAITS: R134. A copy or an MMAD of the same bundle is not counted among what has been issued so far (log entry 106). -/
def execWaits (sel : BitVec 4) (s : State) : Host.Outcome State Fault Refusal :=
  runSlot (.waits sel) s fun c s => (s.onSeq c.t fun q => { q with stall := .waits sel.toNat s.nextId }).singleShot c

/-- END: R148; it takes effect after the bundle's last issue. -/
def execEndTask (s : State) : Host.Outcome State Fault Refusal :=
  runSlot .endTask s fun c s => (s.onSeq c.t fun q => { q with closing := some .ending }).singleShot c

/-- TRAP: R149; the other slots of the bundle issue. -/
def execTrap (imm : BitVec 16) (s : State) : Host.Outcome State Fault Refusal :=
  runSlot (.trap imm) s fun c s => (s.singleShot c).trapIssued c.t { code := 0x80, slot := 0, aux := imm.toNat }

/-- TRET: R154. -/
def execTret (s : State) : Host.Outcome State Fault Refusal :=
  runSlot .tret s fun c s => (s.onSeq c.t fun q => { q with closing := some .tretDrain }).singleShot c

/-- YIELDCHK: R136. -/
def execYieldchk (pd mask : BitVec 3) (s : State) : Host.Outcome State Fault Refusal :=
  runSlot (.yieldchk pd mask) s fun c s => 
    let y := (s.tile c.t).sys
    (s.flightP c 1 pd ((mask.getLsbD 2 && y.pre) || (mask.getLsbD 1 && y.thr) || (mask.getLsbD 0 && y.rcls))).singleShot c

end Sys2Proof.Machine
end

