-- ==== Sys2Proof/Machine/Vector.lean ====
section
/-! DEFINITION. The V slots' operations (R190 to R215). -/

namespace Sys2Proof.Machine

/-! ### Forms -/

/-- Floating-point operations on one, two and three operands, rounded in the rm mode (R195). -/
def State.fp1 (s : State) (c : Ctx) (i : Instr) (f : VR) (op : Fmt → Bool → Rm → Fp → Nat × Flags) : State :=
  let g := fmtOfTy f.ty
  let fl := s.flushes c
  s.mapArith c i f false fun a _ _ => g.un fl (op g fl (Rm.ofBits f.rm)) a
def State.fp2 (s : State) (c : Ctx) (i : Instr) (f : VR) (op : Fmt → Bool → Rm → Fp → Fp → Nat × Flags) : State :=
  let g := fmtOfTy f.ty
  let fl := s.flushes c
  s.mapArith c i f false fun a b _ => g.bin fl (op g fl (Rm.ofBits f.rm)) a b
def State.fp3 (s : State) (c : Ctx) (i : Instr) (f : VR) (op : Fmt → Bool → Rm → Fp → Fp → Fp → Nat × Flags) :
    State :=
  let g := fmtOfTy f.ty
  let fl := s.flushes c
  s.mapArith c i f false fun a b e => g.tri fl (op g fl (Rm.ofBits f.rm)) a b e

/-- Minimum and maximum (R103). -/
def State.fpExtreme (s : State) (c : Ctx) (i : Instr) (f : VR) (max : Bool) : State :=
  s.mapArith c i f false fun a b _ => (fmtOfTy f.ty).extreme (s.flushes c) max a b

/-- A floating-point compare for types 0 to 3, a bitwise one for the others (R199). -/
def State.fpCompare (s : State) (c : Ctx) (i : Instr) (f : VK) (t : Test) : State :=
  if f.ty.toNat < 4 then s.compare c i f true false fun _ a b => (fmtOfTy f.ty).test (s.flushes c) t a b
  else s.compare c i f false false fun _ a b => ((if t = .eq then a == b else a != b), 0)

/-- A decimal operation in the sr.drm mode (R213). -/
def State.decimal (s : State) (c : Ctx) (i : Instr) (f : VR) (op : Rm → Dec → Dec → Nat × Flags) : State :=
  s.mapArith c i f true fun a b _ => decBin (op (Rm.ofDrm (s.tile c.t).sys.drm)) a b

/-- A result without flags that writes the elements of a register that a mask selects. -/
def State.moved (s : State) (c : Ctx) (i : Instr) (d : Nat) (k : Nat) (act : MReg) (xs : List Nat) : State :=
  s.flightV c i [.v d (keepOf k xs.length act) (packReg k xs)]

/-- The shifts of R197. -/
def shiftLeft (k a b : Nat) : Nat := a * 2 ^ (b % k)
def shiftRight (k a b : Nat) : Nat := a / 2 ^ (b % k)
def shiftArith (k a b : Nat) : Nat := wrap k (sext k a / 2 ^ (b % k))

/-- A mask operation of two masks (R200). -/
def State.maskOp (s : State) (c : Ctx) (i : Instr) (f : VQ) (op : MReg → MReg → MReg) : State :=
  s.flightV c i [.m f.md.toNat (op (s.readM c f.ma) (s.readM c f.mb))]

/-- A reduction: element 0 is the tree's value, or `empty` where every element is absent, and the others are 0
(R104, R202). -/
def State.reduce (s : State) (c : Ctx) (i : Instr) (f : VR) (empty : Fmt → Nat) (comb : Nat → Nat → Nat × Flags) :
    State :=
  let n := tyCount f.ty
  let k := 8 * tyWidth f.ty
  let act := s.active c f.m f.me
  let t := treeOf comb 9 (leavesOf (elems (s.readV c f.a.toNat) k n) fun j => act.getLsbD j)
  let x := t.1.getD (empty (fmtOfTy f.ty))
  s.flightArith c (vectorTime i).1 [.v f.d.toNat 0 (packReg k [x])] (chargeFlags n t.2) false

/-- The inclusive prefixes (R105). -/
def State.scan (s : State) (c : Ctx) (i : Instr) (f : VR) (comb : Nat → Nat → Nat × Flags) : State :=
  let n := tyCount f.ty
  let k := 8 * tyWidth f.ty
  let act := s.active c f.m f.me
  let xs := elems (s.readV c f.a.toNat) k n
  let ts := (List.range n).map fun j => treeOf comb 9 (leavesOf xs fun l => act.getLsbD l && l ≤ j)
  s.flightArith c (vectorTime i).1 [.v f.d.toNat 0 (packReg k (ts.map fun t => t.1.getD 0))]
    (chargeFlags n (ts.flatMap (·.2))) false

/-- The sum that VRSUM and VSCAN combine with (R104). -/
def State.treeSum (s : State) (c : Ctx) (f : VR) (x y : Nat) : Nat × Flags :=
  let g := fmtOfTy f.ty
  g.bin (s.flushes c) (g.addFp (s.flushes c) (Rm.ofBits f.rm)) x y

/-- The conversion of a register between two format codes (R203). -/
def State.convertReg (s : State) (c : Ctx) (i : Instr) (d a : Nat) (src dst : Nat) (rm : Rm) (sat : Bool)
    (act : MReg) : State :=
  let k := codeBits dst
  let cnt := 8192 / k
  let n := min (8192 / codeBits src) cnt
  let x := s.readV c a
  let rs := (List.range cnt).map fun j =>
    if j < n && act.getLsbD j then convert src dst (s.flushes c) rm sat (elem x (codeBits src) j) else (0, 0)
  let keep := packReg k ((List.range n).map fun j => if act.getLsbD j then 0 else 2 ^ k - 1)
  let w := [Write.v d keep (packReg k (rs.map (·.1)))]
  if (fmtOf src).isSome || (fmtOf dst).isSome then
    s.flightArith c (vectorTime i).1 w (rs.map (·.2)) false
  else s.flightV c i w

/-- One block of VQNT: its 20 bytes, and the flags of its elements. The exceptions of the scale are charged to every
element of the block (R204, log entry 21). -/
def quantBlock (f : Fmt) (flush : Bool) (rm : Rm) (xs : List Nat) : List Byte × List Flags :=
  let rs := xs.map (f.read flush)
  let bad := fun (x : Fp) => match x with | .num _ _ _ => false | _ => true
  if rs.any fun r => bad r.1 then
    (leBytes 20 (0x7E00 * 2 ^ 128), rs.map fun r => r.2 ||| flagsIf (bad r.1) fIv)
  else
    let vs : List Int := rs.map fun r => match r.1 with
      | .num neg m e => if neg then -((m * 2 ^ (e + 149).toNat : Nat) : Int) else (m * 2 ^ (e + 149).toNat : Nat)
      | _ => 0
    let lo := vs.foldl min 0
    let hi := vs.foldl max 0
    let raw := fp16.value false .rne false (hi - lo).toNat 15 (-149)
    let top := raw.1 = fp16.inf false
    let sc := if top then fp16.largest false else if raw.1 < 0x400 then 0x400 else raw.1
    match fp16.unpack sc with
    | .num _ m e =>
      let ratio := fun (md : Rm) (x : Int) =>
        let r := md.quotient (x < 0) (x.natAbs * 2 ^ (-149 - e).toNat) (m * 2 ^ (e + 149).toNat)
        if x < 0 then -(r.1 : Int) else r.1
      let clamp := fun (x : Int) => (max 0 (min 15 x)).toNat
      let z := clamp (ratio .rne (-lo))
      let qs := vs.map fun x => clamp (ratio rm x + z)
      let exact := fun (q : Nat) (x : Int) =>
        (m : Int) * ((q : Int) - z) * 2 ^ (e + 149).toNat == x * 2 ^ (-149 - e).toNat
      let inexact := (qs.zip vs).map fun p => !exact p.1 p.2
      (leBytes 16 (packElems 4 qs) ++ leBytes 2 sc ++ [BitVec.ofNat 8 z, 0],
       (rs.zip inexact).map fun p =>
         p.1.2 ||| flagsIf p.2 fNx ||| flagsIf top (fOf ||| fNx))
    | _ => ([], [])

/-- Philox-4×32-10 (R208): rounds on a counter and a key. -/
def philoxRound (w : Nat × Nat × Nat × Nat) (k : Nat × Nat) : Nat × Nat × Nat × Nat :=
  let p0 := 0xD2511F53 * w.1
  let p1 := 0xCD9E8D57 * w.2.2.1
  (p1 / 2 ^ 32 ^^^ w.2.1 ^^^ k.1, p1 % 2 ^ 32, p0 / 2 ^ 32 ^^^ w.2.2.2 ^^^ k.2, p0 % 2 ^ 32)
def philox : Nat → Nat × Nat × Nat × Nat → Nat × Nat → Nat × Nat × Nat × Nat
  | 0, w, _ => w
  | r + 1, w, k => philox r (philoxRound w k) ((k.1 + 0x9E3779B9) % 2 ^ 32, (k.2 + 0xBB67AE85) % 2 ^ 32)

/-! ### Staging -/

/-- VLD: reads on issue + 2 (R205). -/
def State.vectorLoad (s : State) (c : Ctx) (i : Instr) (f : VM) : State :=
  let d := (s.tile c.t).divisor 2
  let a := (s.gen c f.g).2.toNat
  let keep := keepOf (8 * tyWidth f.ty) (tyCount f.ty) (s.active c f.m f.me)
  let regs := (List.range (f.n.toNat + 1)).map fun k => f.d.toNat + k
  let (id, s) := s.fresh
  let ws := regs.map fun r => Write.v r keep 0
  s.onTile c.t fun x =>
    let x := x.launchFlight
      { id := id, slot := c.slot, issue := c.now, ready := c.now + 2 * d
        bound := c.now + (vectorTime i).1 * d, dests := ws.map Write.loc, writes := ws }
    { x with seq := { x.seq with stReads := x.seq.stReads ++
      (List.range (f.n.toNat + 1)).map fun k =>
        { cycle := c.now + 2 * d, tile := c.t, slot := c.slot, addr := a + 1024 * k, len := 1024
          use := .vector id (f.d.toNat + k) 0, issue := c.now } } }

/-- Byte runs of consecutive elements joined, in order. -/
def joinRuns : List (Nat × List Byte) → List (Nat × List Byte)
  | [] => []
  | e :: r =>
    match joinRuns r with
    | [] => [e]
    | h :: t => if e.1 + e.2.length = h.1 then (e.1, e.2 ++ h.2) :: t else e :: h :: t

/-- Writes of staging on one cycle (R125). -/
def State.stageLater (s : State) (c : Ctx) (slot cycle : Nat) (ws : List (Nat × List Byte)) : State :=
  s.onSeq c.t fun q => { q with stWrites := q.stWrites ++ ws.map fun e =>
    { cycle := cycle, tile := c.t, slot := slot, addr := e.1, bytes := e.2, issue := c.now } }

/-- VST: the bytes of the active elements on issue + 7 (R205). -/
def State.vectorStore (s : State) (c : Ctx) (f : VM) : State :=
  let w := tyWidth f.ty
  let a := (s.gen c f.g).2.toNat
  let act := s.active c f.m f.me
  let ws := (List.range (f.n.toNat + 1)).flatMap fun k =>
    let x := s.readV c (f.d.toNat + k)
    ((List.range (tyCount f.ty)).filter fun j => act.getLsbD j).map fun j =>
      (a + 1024 * k + w * j, leBytes w (elem x (8 * w) j))
  s.stageLater c c.slot (c.now + 7 * (s.tile c.t).divisor 2) (joinRuns ws)

/-- VGATH: reads on issue + 2; a skipped lane is 0 (R206). -/
def State.gather (s : State) (c : Ctx) (i : Instr) (f : VM) : State :=
  let w := tyWidth f.ty
  let d := (s.tile c.t).divisor 2
  let keep := keepOf (8 * w) (tyCount f.ty) (s.active c f.m f.me)
  let lanes := s.lanes c f
  let (id, s) := s.fresh
  s.onTile c.t fun x =>
    let x := x.launchFlight
      { id := id, slot := c.slot, issue := c.now, ready := c.now + 2 * d, bound := c.now + (vectorTime i).1 * d
        dests := [.v f.d.toNat], writes := [.v f.d.toNat keep 0] }
    { x with seq := { x.seq with stReads := x.seq.stReads ++ lanes.map fun e =>
        { cycle := c.now + 2 * d, tile := c.t, slot := c.slot, addr := e.2, len := w
          use := .vector id f.d.toNat (e.1 * w), issue := c.now } } }

/-- VSCAT: writes on issue + 9, in lane order (R206). -/
def State.scatter (s : State) (c : Ctx) (f : VM) : State :=
  let w := tyWidth f.ty
  let x := s.readV c f.d.toNat
  s.stageLater c c.slot (c.now + 9 * (s.tile c.t).divisor 2)
    ((s.lanes c f).map fun e => (e.2, leBytes w (elem x (8 * w) e.1)))

/-- A vector atomic joins the engine's list (R207, R282). -/
def State.vectorAtomic (s : State) (c : Ctx) (f : VM) (op : AOp) (ret : Bool) : State :=
  let w := tyWidth f.ty
  let x := s.readV c f.d.toNat
  let keep := keepOf (8 * w) (tyCount f.ty) (s.active c f.m f.me)
  let lanes := (s.lanes c f).map fun e => (e.1, e.2, BitVec.ofNat 64 (elem x (8 * w) e.1))
  let (id, s) := s.fresh
  s.onTile c.t fun x =>
    let x := if ret then x.launchFlight
        { id := id, slot := c.slot, issue := c.now, ready := never, bound := never
          dests := [.v f.d.toNat], writes := [.v f.d.toNat keep 0] }
      else x
    { x with eng := { x.eng with vatomics := x.eng.vatomics ++
      [{ id := id, slot := c.slot, op := op, size := w, lanes := lanes, total := lanes.length
         flight := if ret then some id else none, d := f.d.toNat, issue := c.now }] } }

/-! ### Deferral queues -/

/-- DEFER: the selected lanes are appended, and their words reach places of the region that are not stated
(R209, R210, R212). -/
def State.defer (s : State) (c : Ctx) (f : VD) : State :=
  let m := s.readM c f.m
  let ls := (List.range 256).filter fun j => m.getLsbD j
  let wd := f.n.toNat + 1
  let rs := (vdRegs f).map (s.readV c)
  let es := ls.map fun j => rs.map fun r => BitVec.ofNat 32 (elem r 32 j)
  match (s.tile c.t).task with
  | none => s
  | some k =>
    if es.isEmpty then s
    else
      let base := k.dqBase f.q.toNat
      let room := k.dqSize f.q.toNat / (4 * wd)
      let start := s.undef (4000000 + f.q.toNat)
      let words := (List.range es.length).map fun j =>
        (base + 4 * wd * ((start + j) % room), (es.getD j []).flatMap fun w => leBytes 4 w.toNat)
      let s := s.onTile c.t fun x =>
        let q := vget { } x.eng.dq f.q.toNat
        let q := { q with width := wd, entries := q.entries ++ es.map fun e => (c.now, e) }
        { x with eng := { x.eng with dq := vset x.eng.dq f.q.toNat q } }
      s.stageLater c (16 + c.slot) (c.now + (4 + (4 * wd * es.length + 255) / 256) * (s.tile c.t).divisor 2) words

/-- A word that a pop gives: the one DEFER appended, or one that another write has stored in the region since; which
of them is not stated (R209). -/
def State.popWord (s : State) (q : Dq) (key stamp : Nat) (w : BitVec 32) : Nat :=
  let cand := (q.foreign.filter fun e => stamp ≤ e.1).map (·.2)
  ((w :: cand).getD (s.undef key % (cand.length + 1)) w).toNat

/-- DRAIN and DRAINP: k entries leave the queue, oldest first, into lanes 0 to k − 1 (R211). -/
def State.drain (s : State) (c : Ctx) (i : Instr) (f : VD) (k : Nat) (mask : List Write) : State :=
  let q := vget { } (s.tile c.t).eng.dq f.q.toNat
  let es := q.entries.take k
  let ws := (List.range (f.n.toNat + 1)).map fun v =>
    Write.v ((vdRegs f).getD v 0) 0
      (packReg 32 ((List.range es.length).map fun j =>
        let e := es.getD j (0, [])
        s.popWord q (5000000 + 1024 * v + j) e.1 (e.2.getD v 0)))
  let rest := q.entries.drop k
  let q := { q with entries := rest, foreign := if rest.isEmpty then [] else q.foreign }
  (s.onTile c.t fun x =>
    { x with eng := { x.eng with dq := vset x.eng.dq f.q.toNat q } }).flightV c i (ws ++ mask)

/-! ### Meanings -/

/-- V_NOP: the V latch is idle (R45, R52). -/
def execVNop (s : State) : Host.Outcome State Fault Refusal :=
  runSlot .vNop s fun c s => s.onSeq c.t fun q =>
    { q with latches := vset q.latches c.slot { } }

/-- VADD: R195. -/
def execVadd (f : VR) (s : State) : Host.Outcome State Fault Refusal :=
  runVector (.vadd f) s fun c s => s.fp2 c (.vadd f) f Fmt.addFp

/-- VMUL: R195. -/
def execVmul (f : VR) (s : State) : Host.Outcome State Fault Refusal :=
  runVector (.vmul f) s fun c s => s.fp2 c (.vmul f) f Fmt.mulFp

/-- VDIV: R195. -/
def execVdiv (f : VR) (s : State) : Host.Outcome State Fault Refusal :=
  runVector (.vdiv f) s fun c s => s.fp2 c (.vdiv f) f Fmt.divFp

/-- VSUB: R195. -/
def execVsub (f : VR) (s : State) : Host.Outcome State Fault Refusal :=
  runVector (.vsub f) s fun c s => s.fp2 c (.vsub f) f fun g fl rm a b => g.addFp fl rm a b.neg

/-- VFMA: R195, R102. -/
def execVfma (f : VR) (s : State) : Host.Outcome State Fault Refusal :=
  runVector (.vfma f) s fun c s => s.fp3 c (.vfma f) f Fmt.fmaFp

/-- VFMS: R195, R102. -/
def execVfms (f : VR) (s : State) : Host.Outcome State Fault Refusal :=
  runVector (.vfms f) s fun c s => s.fp3 c (.vfms f) f fun g fl rm a b e => g.fmaFp fl rm a b e.neg

/-- VFNMA: R195, R102. -/
def execVfnma (f : VR) (s : State) : Host.Outcome State Fault Refusal :=
  runVector (.vfnma f) s fun c s => s.fp3 c (.vfnma f) f fun g fl rm a b e => g.fmaFp fl rm a.neg b e

/-- VMIN: R195, R103. -/
def execVmin (f : VR) (s : State) : Host.Outcome State Fault Refusal :=
  runVector (.vmin f) s fun c s => s.fpExtreme c (.vmin f) f false

/-- VMAX: R195, R103. -/
def execVmax (f : VR) (s : State) : Host.Outcome State Fault Refusal :=
  runVector (.vmax f) s fun c s => s.fpExtreme c (.vmax f) f true

/-- VABS: R195, R196; a bit operation. -/
def execVabs (f : VR) (s : State) : Host.Outcome State Fault Refusal :=
  runVector (.vabs f) s fun c s => s.mapBits c (.vabs f) f fun k a _ => a % 2 ^ (k - 1)

/-- VNEG: R195, R196; a bit operation. -/
def execVneg (f : VR) (s : State) : Host.Outcome State Fault Refusal :=
  runVector (.vneg f) s fun c s => s.mapBits c (.vneg f) f fun k a _ => a ^^^ 2 ^ (k - 1)

/-- VSQRT: R195, R102. -/
def execVsqrt (f : VR) (s : State) : Host.Outcome State Fault Refusal :=
  runVector (.vsqrt f) s fun c s => s.fp1 c (.vsqrt f) f Fmt.sqrtFp

/-- VRCP: R195, R102. -/
def execVrcp (f : VR) (s : State) : Host.Outcome State Fault Refusal :=
  runVector (.vrcp f) s fun c s => s.fp1 c (.vrcp f) f Fmt.rcpFp

/-- VRSQ: R195, R102. -/
def execVrsq (f : VR) (s : State) : Host.Outcome State Fault Refusal :=
  runVector (.vrsq f) s fun c s => s.fp1 c (.vrsq f) f Fmt.rsqFp

/-- VEXP2: R195, R102. -/
def execVexp2 (f : VR) (s : State) : Host.Outcome State Fault Refusal :=
  runVector (.vexp2 f) s fun c s => s.fp1 c (.vexp2 f) f Fmt.exp2Fp

/-- VLOG2: R195, R102. -/
def execVlog2 (f : VR) (s : State) : Host.Outcome State Fault Refusal :=
  runVector (.vlog2 f) s fun c s => s.fp1 c (.vlog2 f) f Fmt.log2Fp

/-- VIADD: R197. -/
def execViadd (f : VR) (s : State) : Host.Outcome State Fault Refusal :=
  runVector (.viadd f) s fun c s => s.mapBits c (.viadd f) f fun _ a b => a + b

/-- VISUB: R197. -/
def execVisub (f : VR) (s : State) : Host.Outcome State Fault Refusal :=
  runVector (.visub f) s fun c s => s.mapBits c (.visub f) f fun k a b => a + (2 ^ k - b)

/-- VIMUL: R197. -/
def execVimul (f : VR) (s : State) : Host.Outcome State Fault Refusal :=
  runVector (.vimul f) s fun c s => s.mapBits c (.vimul f) f fun _ a b => a * b

/-- VIMIN: R197. -/
def execVimin (f : VR) (s : State) : Host.Outcome State Fault Refusal :=
  runVector (.vimin f) s fun c s => s.mapBits c (.vimin f) f fun k a b => if sext k a < sext k b then a else b

/-- VIMAX: R197. -/
def execVimax (f : VR) (s : State) : Host.Outcome State Fault Refusal :=
  runVector (.vimax f) s fun c s => s.mapBits c (.vimax f) f fun k a b => if sext k a < sext k b then b else a

/-- VIMINU: R197. -/
def execViminu (f : VR) (s : State) : Host.Outcome State Fault Refusal :=
  runVector (.viminu f) s fun c s => s.mapBits c (.viminu f) f fun _ a b => min a b

/-- VIMAXU: R197. -/
def execVimaxu (f : VR) (s : State) : Host.Outcome State Fault Refusal :=
  runVector (.vimaxu f) s fun c s => s.mapBits c (.vimaxu f) f fun _ a b => max a b

/-- VAND: R197. -/
def execVand (f : VR) (s : State) : Host.Outcome State Fault Refusal :=
  runVector (.vand f) s fun c s => s.mapBits c (.vand f) f fun _ a b => a &&& b

/-- VOR: R197. -/
def execVor (f : VR) (s : State) : Host.Outcome State Fault Refusal :=
  runVector (.vor f) s fun c s => s.mapBits c (.vor f) f fun _ a b => a ||| b

/-- VXOR: R197. -/
def execVxor (f : VR) (s : State) : Host.Outcome State Fault Refusal :=
  runVector (.vxor f) s fun c s => s.mapBits c (.vxor f) f fun _ a b => a ^^^ b

/-- VSHL: R197. -/
def execVshl (f : VR) (s : State) : Host.Outcome State Fault Refusal :=
  runVector (.vshl f) s fun c s => s.mapBits c (.vshl f) f fun k a b => shiftLeft k a b

/-- VSHR: R197. -/
def execVshr (f : VR) (s : State) : Host.Outcome State Fault Refusal :=
  runVector (.vshr f) s fun c s => s.mapBits c (.vshr f) f fun k a b => shiftRight k a b

/-- VSAR: R197. -/
def execVsar (f : VR) (s : State) : Host.Outcome State Fault Refusal :=
  runVector (.vsar f) s fun c s => s.mapBits c (.vsar f) f fun k a b => shiftArith k a b

/-- VIADDS: R197. -/
def execViadds (f : VR) (s : State) : Host.Outcome State Fault Refusal :=
  runVector (.viadds f) s fun c s => s.mapBits c (.viadds f) f fun k a b => wrap k (clampS k (sext k a + sext k b))

/-- VISUBS: R197. -/
def execVisubs (f : VR) (s : State) : Host.Outcome State Fault Refusal :=
  runVector (.visubs f) s fun c s => s.mapBits c (.visubs f) f fun k a b => wrap k (clampS k (sext k a - sext k b))

/-- VADD128: R198; a lane is active by its even mask bit. -/
def execVadd128 (f : VR) (s : State) : Host.Outcome State Fault Refusal :=
  runVector (.vadd128 f) s fun c s => 
    let act := s.active c f.m f.me
    let a := s.readV c f.a.toNat
    let b := s.readV c f.b.toNat
    s.moved c (.vadd128 f) f.d.toNat 128 (packMask ((List.range 64).map fun j => act.getLsbD (2 * j)))
      ((List.range 64).map fun j => elem a 128 j + elem b 128 j)

/-- VCMPEQ: R199. -/
def execVcmpeq (f : VK) (s : State) : Host.Outcome State Fault Refusal :=
  runVector (.vcmpeq f) s fun c s => s.fpCompare c (.vcmpeq f) f .eq

/-- VCMPNE: R199. -/
def execVcmpne (f : VK) (s : State) : Host.Outcome State Fault Refusal :=
  runVector (.vcmpne f) s fun c s => s.fpCompare c (.vcmpne f) f .ne

/-- VCMPLT: R199. -/
def execVcmplt (f : VK) (s : State) : Host.Outcome State Fault Refusal :=
  runVector (.vcmplt f) s fun c s => s.fpCompare c (.vcmplt f) f .lt

/-- VCMPLE: R199. -/
def execVcmple (f : VK) (s : State) : Host.Outcome State Fault Refusal :=
  runVector (.vcmple f) s fun c s => s.fpCompare c (.vcmple f) f .le

/-- VCMPUN: R199. -/
def execVcmpun (f : VK) (s : State) : Host.Outcome State Fault Refusal :=
  runVector (.vcmpun f) s fun c s => s.fpCompare c (.vcmpun f) f .un

/-- VICMPLT: R199. -/
def execVicmplt (f : VK) (s : State) : Host.Outcome State Fault Refusal :=
  runVector (.vicmplt f) s fun c s => s.compare c (.vicmplt f) f false false fun k a b => (decide (sext k a < sext k b), 0)

/-- VICMPLTU: R199. -/
def execVicmpltu (f : VK) (s : State) : Host.Outcome State Fault Refusal :=
  runVector (.vicmpltu f) s fun c s => s.compare c (.vicmpltu f) f false false fun _ a b => (decide (a < b), 0)

/-- MAND: R200. -/
def execMand (f : VQ) (s : State) : Host.Outcome State Fault Refusal :=
  runVector (.mand f) s fun c s => s.maskOp c (.mand f) f (· &&& ·)

/-- MOR: R200. -/
def execMor (f : VQ) (s : State) : Host.Outcome State Fault Refusal :=
  runVector (.mor f) s fun c s => s.maskOp c (.mor f) f (· ||| ·)

/-- MXOR: R200. -/
def execMxor (f : VQ) (s : State) : Host.Outcome State Fault Refusal :=
  runVector (.mxor f) s fun c s => s.maskOp c (.mxor f) f (· ^^^ ·)

/-- MNOT: R200. -/
def execMnot (f : VQ) (s : State) : Host.Outcome State Fault Refusal :=
  runVector (.mnot f) s fun c s => s.maskOp c (.mnot f) f fun a _ => ~~~a

/-- MPOP: R200; a write of s0 is discarded. -/
def execMpop (f : VQ) (s : State) : Host.Outcome State Fault Refusal :=
  runVector (.mpop f) s fun c s => 
    let n := (List.range (tyCount f.ty)).countP fun j => (s.readM c f.ma).getLsbD j
    if f.d = 0 then s else s.flightV c (.mpop f) [.s f.d.toNat (BitVec.ofNat 64 n)]

/-- MSET: R200. -/
def execMset (f : VQ) (s : State) : Host.Outcome State Fault Refusal :=
  runVector (.mset f) s fun c s => 
    let n := min (s.readS c f.d).toNat (tyCount f.ty)
    s.flightV c (.mset f) [.m f.md.toNat (BitVec.ofNat 1024 (2 ^ n - 1))]

/-- VSEL: R201. -/
def execVsel (f : VR) (s : State) : Host.Outcome State Fault Refusal :=
  runVector (.vsel f) s fun c s => 
    let n := tyCount f.ty
    let k := 8 * tyWidth f.ty
    let a := s.readV c f.a.toNat
    let b := s.readV c f.b.toNat
    let m := s.readM c f.m
    s.moved c (.vsel f) f.d.toNat k (BitVec.allOnes 1024)
      ((List.range n).map fun j => if m.getLsbD j then elem a k j else elem b k j)

/-- VPERM: R201. -/
def execVperm (f : VR) (s : State) : Host.Outcome State Fault Refusal :=
  runVector (.vperm f) s fun c s => 
    let n := tyCount f.ty
    let k := 8 * tyWidth f.ty
    let a := s.readV c f.a.toNat
    let lo := s.readV c f.b.toNat
    let hi := s.readV c (f.b.toNat + 1)
    s.moved c (.vperm f) f.d.toNat k (s.active c f.m f.me)
      ((List.range n).map fun j => elem a k ((if j < 512 then elem lo 16 j else elem hi 16 (j - 512)) % n))

/-- VBCST: R201; field a is a scalar number. -/
def execVbcst (f : VR) (s : State) : Host.Outcome State Fault Refusal :=
  runVector (.vbcst f) s fun c s => 
    let x := (s.readS c (f.a.extractLsb' 0 5)).toNat
    s.moved c (.vbcst f) f.d.toNat (8 * tyWidth f.ty) (s.active c f.m f.me) (List.replicate (tyCount f.ty) x)

/-- VCOMPACT: R201. -/
def execVcompact (f : VR) (s : State) : Host.Outcome State Fault Refusal :=
  runVector (.vcompact f) s fun c s => 
    let n := tyCount f.ty
    let k := 8 * tyWidth f.ty
    let a := s.readV c f.a.toNat
    let m := s.readM c f.m
    s.flightV c (.vcompact f) [.v f.d.toNat 0 (packReg k (((List.range n).filter fun j => m.getLsbD j).map fun j => elem a k j))]

/-- VEXPAND: R201. -/
def execVexpand (f : VR) (s : State) : Host.Outcome State Fault Refusal :=
  runVector (.vexpand f) s fun c s => 
    let n := tyCount f.ty
    let k := 8 * tyWidth f.ty
    let a := s.readV c f.a.toNat
    let m := s.readM c f.m
    s.moved c (.vexpand f) f.d.toNat k m
      ((List.range n).map fun j => elem a k ((List.range j).countP fun l => m.getLsbD l))

/-- VMOVS: R201; fields a and b are scalar numbers. -/
def execVmovs (f : VR) (s : State) : Host.Outcome State Fault Refusal :=
  runVector (.vmovs f) s fun c s => 
    let n := tyCount f.ty
    let j := (s.readS c (f.b.extractLsb' 0 5)).toNat % n
    s.moved c (.vmovs f) f.d.toNat (8 * tyWidth f.ty) (BitVec.twoPow 1024 j)
      (List.replicate n (s.readS c (f.a.extractLsb' 0 5)).toNat)

/-- VRSUM: R202, R104. -/
def execVrsum (f : VR) (s : State) : Host.Outcome State Fault Refusal :=
  runVector (.vrsum f) s fun c s => s.reduce c (.vrsum f) f (fun _ => 0) (s.treeSum c f)

/-- VRMAX: R202, R104. -/
def execVrmax (f : VR) (s : State) : Host.Outcome State Fault Refusal :=
  runVector (.vrmax f) s fun c s => s.reduce c (.vrmax f) f (fun g => g.inf true) ((fmtOfTy f.ty).extreme (s.flushes c) true)

/-- VRMIN: R202, R104. -/
def execVrmin (f : VR) (s : State) : Host.Outcome State Fault Refusal :=
  runVector (.vrmin f) s fun c s => s.reduce c (.vrmin f) f (fun g => g.inf false) ((fmtOfTy f.ty).extreme (s.flushes c) false)

/-- VSCAN: R202, R105. -/
def execVscan (f : VR) (s : State) : Host.Outcome State Fault Refusal :=
  runVector (.vscan f) s fun c s => s.scan c (.vscan f) f (s.treeSum c f)

/-- VIRSUM: R202, R105. -/
def execVirsum (f : VR) (s : State) : Host.Outcome State Fault Refusal :=
  runVector (.virsum f) s fun c s => 
    let n := tyCount f.ty
    let k := 8 * tyWidth f.ty
    let act := s.active c f.m f.me
    let a := s.readV c f.a.toNat
    let sum := (List.range n).foldl (fun t j => if act.getLsbD j then t + elem a k j else t) 0
    s.flightV c (.virsum f) [.v f.d.toNat 0 (packReg k [sum])]

/-- VCVT: R203. -/
def execVcvt (f : VC) (s : State) : Host.Outcome State Fault Refusal :=
  runVector (.vcvt f) s fun c s => 
    s.convertReg c (.vcvt f) f.d.toNat f.a.toNat f.src.toNat f.dst.toNat (Rm.ofBits f.rm) f.sat (s.active c f.m f.me)

/-- VQNT: R204. -/
def execVqnt (f : VC) (s : State) : Host.Outcome State Fault Refusal :=
  runVector (.vqnt f) s fun c s => 
    let k := codeBits f.src.toNat
    let g := (fmtOf f.src.toNat).getD fp32
    let a := s.readV c f.a.toNat
    let bs := (List.range (8192 / k / 32)).map fun j =>
      quantBlock g (s.flushes c) (Rm.ofBits f.rm) ((List.range 32).map fun l => elem a k (32 * j + l))
    s.flightArith c (vectorTime (.vqnt f)).1
      [.v f.d.toNat 0 (BitVec.ofNat 8192 (leNat (bs.flatMap (·.1))))] (bs.flatMap (·.2)) false

/-- VLD: R205. -/
def execVld (f : VM) (s : State) : Host.Outcome State Fault Refusal :=
  runVector (.vld f) s fun c s => s.vectorLoad c (.vld f) f

/-- VST: R205. -/
def execVst (f : VM) (s : State) : Host.Outcome State Fault Refusal :=
  runVector (.vst f) s fun c s => s.vectorStore c f

/-- VGATH: R206. -/
def execVgath (f : VM) (s : State) : Host.Outcome State Fault Refusal :=
  runVector (.vgath f) s fun c s => s.gather c (.vgath f) f

/-- VSCAT: R206. -/
def execVscat (f : VM) (s : State) : Host.Outcome State Fault Refusal :=
  runVector (.vscat f) s fun c s => s.scatter c f

/-- VSTADD: R207. -/
def execVstadd (f : VM) (s : State) : Host.Outcome State Fault Refusal :=
  runVector (.vstadd f) s fun c s => s.vectorAtomic c f .add false

/-- VSTMIN: R207. -/
def execVstmin (f : VM) (s : State) : Host.Outcome State Fault Refusal :=
  runVector (.vstmin f) s fun c s => s.vectorAtomic c f .min false

/-- VSTMAX: R207. -/
def execVstmax (f : VM) (s : State) : Host.Outcome State Fault Refusal :=
  runVector (.vstmax f) s fun c s => s.vectorAtomic c f .max false

/-- VSTFADD: R207. -/
def execVstfadd (f : VM) (s : State) : Host.Outcome State Fault Refusal :=
  runVector (.vstfadd f) s fun c s => s.vectorAtomic c f .fadd false

/-- VSTFMIN: R207. -/
def execVstfmin (f : VM) (s : State) : Host.Outcome State Fault Refusal :=
  runVector (.vstfmin f) s fun c s => s.vectorAtomic c f .fmin false

/-- VSTFMAX: R207. -/
def execVstfmax (f : VM) (s : State) : Host.Outcome State Fault Refusal :=
  runVector (.vstfmax f) s fun c s => s.vectorAtomic c f .fmax false

/-- VLDADD: R207. -/
def execVldadd (f : VM) (s : State) : Host.Outcome State Fault Refusal :=
  runVector (.vldadd f) s fun c s => s.vectorAtomic c f .add true

/-- VLDMIN: R207. -/
def execVldmin (f : VM) (s : State) : Host.Outcome State Fault Refusal :=
  runVector (.vldmin f) s fun c s => s.vectorAtomic c f .min true

/-- VLDMAX: R207. -/
def execVldmax (f : VM) (s : State) : Host.Outcome State Fault Refusal :=
  runVector (.vldmax f) s fun c s => s.vectorAtomic c f .max true

/-- VRNG: R208. -/
def execVrng (f : VR) (s : State) : Host.Outcome State Fault Refusal :=
  runVector (.vrng f) s fun c s => 
    let a := s.readV c f.a.toNat
    let b := s.readV c f.b.toNat
    let ws := (List.range 64).flatMap fun j =>
      let r := philox 10 (elem a 32 (4 * j), elem a 32 (4 * j + 1), elem a 32 (4 * j + 2), elem a 32 (4 * j + 3))
        (elem b 32 (4 * j), elem b 32 (4 * j + 1))
      [r.1, r.2.1, r.2.2.1, r.2.2.2]
    s.moved c (.vrng f) f.d.toNat 32 (s.active c f.m f.me) ws

/-- DEFER: R210. -/
def execDefer (f : VD) (s : State) : Host.Outcome State Fault Refusal :=
  runVector (.defer f) s fun c s => s.defer c f

/-- DRAIN: R211. -/
def execDrain (f : VD) (s : State) : Host.Outcome State Fault Refusal :=
  runVector (.drain f) s fun c s => s.drain c (.drain f) f 256 []

/-- DRAINP: R211. -/
def execDrainp (f : VD) (s : State) : Host.Outcome State Fault Refusal :=
  runVector (.drainp f) s fun c s => 
    let k := min (vget { } (s.tile c.t).eng.dq f.q.toNat).entries.length 256
    s.drain c (.drainp f) f k [.m f.m.toNat (BitVec.ofNat 1024 (2 ^ k - 1))]

/-- DADD: R213. -/
def execDadd (f : VR) (s : State) : Host.Outcome State Fault Refusal :=
  runVector (.dadd f) s fun c s => s.decimal c (.dadd f) f Dec.add

/-- DMUL: R213. -/
def execDmul (f : VR) (s : State) : Host.Outcome State Fault Refusal :=
  runVector (.dmul f) s fun c s => s.decimal c (.dmul f) f Dec.mul

/-- DDIV: R213. -/
def execDdiv (f : VR) (s : State) : Host.Outcome State Fault Refusal :=
  runVector (.ddiv f) s fun c s => s.decimal c (.ddiv f) f Dec.div

/-- DQUA: R213. -/
def execDqua (f : VR) (s : State) : Host.Outcome State Fault Refusal :=
  runVector (.dqua f) s fun c s => s.decimal c (.dqua f) f Dec.quantize

/-- DSUB: R213. -/
def execDsub (f : VR) (s : State) : Host.Outcome State Fault Refusal :=
  runVector (.dsub f) s fun c s => s.decimal c (.dsub f) f fun rm a b => Dec.add rm a b.neg

/-- DCMPEQ: R214. -/
def execDcmpeq (f : VK) (s : State) : Host.Outcome State Fault Refusal :=
  runVector (.dcmpeq f) s fun c s => s.compare c (.dcmpeq f) f true true fun _ a b => decTest .eq a b

/-- DCMPLT: R214. -/
def execDcmplt (f : VK) (s : State) : Host.Outcome State Fault Refusal :=
  runVector (.dcmplt f) s fun c s => s.compare c (.dcmplt f) f true true fun _ a b => decTest .lt a b

/-- DCMPLE: R214. -/
def execDcmple (f : VK) (s : State) : Host.Outcome State Fault Refusal :=
  runVector (.dcmple f) s fun c s => s.compare c (.dcmple f) f true true fun _ a b => decTest .le a b

/-- DCVTB: R215, R97. -/
def execDcvtb (f : VC) (s : State) : Host.Outcome State Fault Refusal :=
  runVector (.dcvtb f) s fun c s => 
    let g := (fmtOf f.dst.toNat).getD fp64
    let act := s.active c f.m f.me
    let a := s.readV c f.a.toNat
    let rs := (List.range 128).map fun j =>
      if act.getLsbD j then ofDecimal g (Rm.ofBits f.rm) (elem a 64 j) else (0, 0)
    s.flightArith c (vectorTime (.dcvtb f)).1
      [.v f.d.toNat (keepOf g.width 128 act) (packReg g.width (rs.map (·.1)))] (rs.map (·.2)) false

/-- DCVTD: R215, R97. -/
def execDcvtd (f : VC) (s : State) : Host.Outcome State Fault Refusal :=
  runVector (.dcvtd f) s fun c s => 
    let g := (fmtOf f.src.toNat).getD fp64
    let act := s.active c f.m f.me
    let a := s.readV c f.a.toNat
    let rs := (List.range 128).map fun j =>
      if act.getLsbD j then toDecimal g (Rm.ofDrm (s.tile c.t).sys.drm) (elem a g.width j) else (0, 0)
    s.flightArith c (vectorTime (.dcvtd f)).1
      [.v f.d.toNat (keepOf 64 128 act) (packReg 64 (rs.map (·.1)))] (rs.map (·.2)) true

end Sys2Proof.Machine
end

