-- ==== Sys2Proof/Machine/Vault.lean ====
section
/-! DEFINITION. The D slot's operations, the vault's refresh, and the layers' sensors and classes (R155 to R189). -/

namespace Sys2Proof.Machine

/-! ### Banks -/

/-- A vault with a bank changed. -/
def Vault.onBank (v : Vault) (b : Nat) (f : Bank → Bank) : Vault :=
  { v with banks := vset v.banks b (f (vget { } v.banks b)) }

/-- An activation in the tile channel: it is the most recent, and the others move down (R162, R167). -/
def Vault.pushActivation (v : Vault) (now b : Nat) : Vault :=
  let a := v.chan.acts.toList
  { v with chan := { v.chan with acts := Vector.ofFn fun k : Fin 4 =>
      (((now : Int), b) :: a).getD k.val (-255, 0) } }

/-- The address of a column (R158). -/
def columnAddr (t bank row col : Nat) : Nat := vaultAddr t bank (row * 1024 + col * 64)

/-- The bytes that an RD returns: what the column holds, undefined where it was stored under a key (R168, R258). -/
def State.columnBytes (s : State) (addr : Nat) : List Byte :=
  s.storedLine 0 (addr / 64)

/-- ACT: the bank opens with a row (R167). -/
def State.activate (s : State) (c : Ctx) (f : DA) : State :=
  s.onVault c.t fun v =>
    (v.onBank f.bank.toNat fun k => { k with opened := true, row := f.row, act := c.now }).pushActivation
      c.now f.bank.toNat

/-- RD: the column's bytes reach staging on cycle issue + 28 (R168). -/
def State.readColumn (s : State) (c : Ctx) (f : DC) : State :=
  let b := f.bank.toNat
  let row := (vget { } (s.tile c.t).vault.banks b).row.toNat
  let col := columnOf f c.index
  let a := (s.gen c f.g).2.toNat
  let bytes := s.columnBytes (columnAddr c.t b row col)
  let (id, s) := s.fresh
  let listed : Listed := { copy := id, slot := 6, glob := false, addr := a, len := 64, till := c.now + 29 }
  s.onTile c.t fun x =>
    { x with
      vault := { (x.vault.onBank b fun k => { k with rd := c.now }) with
        chan := { x.vault.chan with rd := (c.now, b) }
        reads := x.vault.reads ++
          [{ id := id, cycle := c.now + 28, bank := b, row := row, col := col, addr := a, bytes := bytes }] }
      eng := { x.eng with early := if x.sys.er then x.eng.early ++ [listed] else x.eng.early } }

/-- WR: staging is read on cycle issue + 2, and the column takes the bytes (R168). -/
def State.writeColumn (s : State) (c : Ctx) (f : DC) : State :=
  let b := f.bank.toNat
  let row := (vget { } (s.tile c.t).vault.banks b).row.toNat
  s.onTile c.t fun x =>
    { x with
      vault := { (x.vault.onBank b fun k => { k with wr := c.now }) with
        chan := { x.vault.chan with wr := (c.now, b) } }
      seq := { x.seq with stReads := x.seq.stReads ++
        [{ cycle := c.now + 2, tile := c.t, slot := 6, addr := (s.gen c f.g).2.toNat, len := 64
           use := .column b row (columnOf f c.index), issue := c.now }] } }

/-- A bank closes, if it is open (R169). -/
def Vault.close (v : Vault) (now b : Nat) : Vault :=
  if (vget { } v.banks b).opened then v.onBank b fun k => { k with opened := false, pre := now } else v

/-- A REFPB: the next eight rows, one count less owed, and an activation (R170). -/
def Vault.refresh (v : Vault) (now b : Nat) : Vault :=
  let v := (v.onBank b fun k => { k with rptr := k.rptr + 1, owed := k.owed - 1, ref := now }).pushActivation now b
  { v with deficit := v.deficit.filter (· ≠ b) }

/-! ### D-slot meanings -/

/-- D_NOP: the D latch is idle (R45, R166). -/
def execDNop (s : State) : Host.Outcome State Fault Refusal :=
  runSlot .dNop s fun c s => s.onSeq c.t fun q =>
    { q with latches := vset q.latches 6 { } }

/-- ACT: R167. -/
def execAct (f : DA) (s : State) : Host.Outcome State Fault Refusal :=
  runSlot (.act f) s fun c s => s.activate c f

/-- RD: R168. -/
def execRd (f : DC) (s : State) : Host.Outcome State Fault Refusal :=
  runSlot (.rd f) s fun c s => s.readColumn c f

/-- WR: R168. -/
def execWr (f : DC) (s : State) : Host.Outcome State Fault Refusal :=
  runSlot (.wr f) s fun c s => s.writeColumn c f

/-- PRE: R169; a closed bank stays as it is. -/
def execPre (b : BitVec 5) (s : State) : Host.Outcome State Fault Refusal :=
  runSlot (.pre b) s fun c s => s.onVault c.t fun v => v.close c.now b.toNat

/-- PREA: every open owned bank closes (R169). -/
def execPrea (s : State) : Host.Outcome State Fault Refusal :=
  runSlot .prea s fun c s =>
    let x := s.tile c.t
    s.onVault c.t fun v => ((List.range 31).filter x.owns).foldl (fun v b => v.close c.now b) v

/-- REFPB: R170. -/
def execRefpb (b : BitVec 5) (s : State) : Host.Outcome State Fault Refusal :=
  runSlot (.refpb b) s fun c s => s.onVault c.t fun v => v.refresh c.now b.toNat

/-! ### Steps of the vault -/

/-- An RD's 64 bytes on their way to staging: the D slot's write of its cycle, which takes its place among the writes that end
it (R28, R156, R168, R172). -/
def Tile.landRead (x : Tile) (t : Nat) (e : RdFlight) : Tile :=
  { x with
    seq := { x.seq with stWrites := x.seq.stWrites ++
      [{ cycle := e.cycle, tile := t, slot := 6, addr := e.addr, bytes := e.bytes, issue := e.cycle - 28 }] }
    vault := { x.vault with reads := x.vault.reads.map fun r => if r.id = e.id then { r with written := true } else r } }

/-- VAULT_RD_LANDING: the column of an RD is written to staging at the end of its cycle, issue + 28; with an uncorrectable
error it is written as read, and trap 0x70 is raised at the bundle that issues then; a correctable one is corrected and
counted (R158, R172, R373). The frame's op field for it is that of an RD (R189, log entry 124). Disabled on any other cycle
(log entry 7). -/
def execVaultRdLanding (t id : Nat) (err : Ecc) (s : State) : Host.Outcome State Fault Refusal :=
  if t ≥ Config.tiles then .fault .noSuchPart
  else
    match (s.tile t).vault.reads.find? fun e => e.id == id with
    | none => .next s
    | some e =>
      if e.cycle ≠ s.icc t then .next s
      else
        let s := if e.written then s else s.onTile t (·.landRead t e)
        match err with
        | .clean => .next s
        | .corrected => .next (s.countCorrected t storeVault)
        | .bad =>
          let row := if (vget { } (s.tile t).vault.banks e.bank).opened then e.row else 0
          .next ((s.reportFault 7 1 0x70 t).trapNext t
            { code := 0x70, slot := 6, word := constraintWord 0x17 e.bank 0 0 0 2 row e.col 0 })

/-- Whether the idle refresh sequencer keeps a bank: a held bank, or an owned one it has taken (R175, R176). -/
def Tile.keeps (x : Tile) (b : Nat) : Bool :=
  (x.vault.keeper && x.owns b) || (x.saved.isSome && b < 31 && x.savedOwn.getLsbD b)

/-- Whether a bank reaches a due point on this cycle: its due points come once an interval of the applied class
(R174, R186). -/
def State.isDue (s : State) (t b : Nat) : Bool :=
  let x := s.tile t
  let i := interval (vget { } x.vault.layers (b / 8)).app
  (((s.lcc t (1 + b / 8) : Int) - (phiOf t : Int)) % (i : Int)).toNat == b % 8 * 1708 % i

/-- REFRESH_DUE_POINT: an owned or held bank's owed count rises by 1; at 9 the deficit traps the running task, unless
a REFPB of this cycle nets it, and the sequencer takes the banks (R174, R175). -/
def execRefreshDuePoint (t bank : Nat) (s : State) : Host.Outcome State Fault Refusal :=
  if t ≥ Config.tiles || 31 ≤ bank then .fault .noSuchPart
  else
    let x := s.tile t
    if !(s.isDue t bank && (x.owns bank || x.keeps bank)) then .next s
    else
      let k := vget { } x.vault.banks bank
      .next (s.onVault t fun v =>
        let v := v.onBank bank fun k => { k with owed := k.owed + 1 }
        if k.owed + 1 ≥ 9 && x.owns bank && !x.vault.keeper then { v with deficit := v.deficit ++ [bank] } else v)

/-- The trap of a refresh deficit, in the vault that its frame shows (R171, R173, R175, R186, R189). -/
def Vault.deficitTrap (v : Vault) (b : Nat) : TrapReq :=
  let k := vget { } v.banks b
  { code := 0x11, slot := 0xE
    word := constraintWord 0x14 b 0 0 0 0 (if k.opened then k.row.toNat else 0) 0 k.owed }

/-- Whether the tile channel carries a command of the present control-core cycle already: one of the D slot, whose latch is live
at an issue, or one of the idle refresh sequencer, which sets an age (R45, R159, R162). -/
def Tile.channelBusy (x : Tile) (now : Nat) : Bool :=
  let d := x.divisor 0
  (now < x.seq.issuedAt + d && (vget { } x.seq.latches 6).live)
    || x.vault.banks.toList.any fun k => [k.act, k.pre, k.rd, k.wr, k.ref].any fun a => decide ((now : Int) < a + d)

/-- Whether a tile has still to come to an issue on this cycle, whose D slot has the channel first (R159). -/
def State.turnAhead (s : State) (t : Nat) : Bool :=
  s.turn.contains t && (s.tile t).seq.phase == .running && (s.tile t).seq.nextAt ≤ s.icc t

/-- SEQUENCER_REFRESH: the idle refresh sequencer closes an open bank it keeps, or issues a REFPB to a closed one, on
a cycle that R163 admits and on which the channel carries no other command (R159, R176). -/
def execSequencerRefresh (t bank : Nat) (s : State) : Host.Outcome State Fault Refusal :=
  if t ≥ Config.tiles || 31 ≤ bank then .fault .noSuchPart
  else
    let x := s.tile t
    let now := s.icc t
    let k := vget { } x.vault.banks bank
    let ok := fun cmd => (constraints x.vault now cmd bank).all fun e => e.need ≤ e.age
    if !x.keeps bank || s.turnAhead t || x.channelBusy now then .next s
    else if k.opened then
      if ok .pre then .next (s.onVault t fun v => v.close now bank) else .next s
    else if ok .refpb && -8 < k.owed then .next (s.onVault t fun v => v.refresh now bank)
    else .next s

/-! ### Classes and sensors -/

/-- A layer changed, with sr.event.rcls set if the running task's effective class changes (R179); before its first bundle
the class is compared there with the one that the schedule was selected against (R25). -/
def State.onLayer (s : State) (t n : Nat) (f : Layer → Layer) : State :=
  s.onTile t fun x =>
    let v := { x.vault with layers := vset x.vault.layers n (f (vget { } x.vault.layers n)) }
    let moved := effOf v x.own != effOf x.vault x.own
    { x with vault := v, sys := { x.sys with rcls := x.sys.rcls || (x.task.isSome && x.seq.phase != .starting && moved) } }

/-- Whether a task runs that owns a bank of a layer: one that is stopped or suspended does not run (R179). -/
def Tile.ownsLayer (x : Tile) (n : Nat) : Bool :=
  (x.own.toNat / 2 ^ (8 * n)) % 256 != 0 && x.seq.phase != .stopped && x.seq.phase != .halted && x.seq.phase != .suspended

/-- A tile whose layers without a running owner apply the falls announced for them (R179). -/
def Tile.dropFalls (x : Tile) : Tile :=
  { x with vault := { x.vault with layers := Vector.ofFn fun n : Fin 4 =>
      let l := vget { } x.vault.layers n.val
      if l.pend.toNat < l.app.toNat && !x.ownsLayer n.val then { l with app := l.pend } else l } }

/-- A layer whose announced class becomes `p`: a rise is applied 2 ms later, so that the intervals that a schedule assumes
hold for that long, and a fall at the next swap, or at once where no running task owns a bank of the layer (R179, R186). -/
def Layer.announce (l : Layer) (p : BitVec 2) (lcc : Nat) (owned : Bool) : Layer :=
  if l.pend.toNat < p.toNat then { l with pend := p, leads := l.leads ++ [(lcc + 3500000, p)] }
  else if p.toNat < l.pend.toNat then
    { l with pend := p, leads := l.leads.filter fun e => e.2.toNat ≤ p.toNat
             app := if !owned && p.toNat < l.app.toNat then p else l.app }
  else l

/-- The class a layer's reading announces, from the one it has; in quarter degrees (R178). -/
def classOf (old : BitVec 2) (r : Int) : BitVec 2 :=
  let up : BitVec 2 := if 360 ≤ r then 2 else if 320 ≤ r then 1 else 0
  let down : BitVec 2 := if r < 308 then 0 else if r < 348 then 1 else 2
  if old.toNat ≤ up.toNat then up else if down.toNat < old.toNat then down else old

/-- The highest threshold a reading has reached (R177). -/
def warnOf (r : Int) : BitVec 3 := if 400 ≤ r then 3 else if 360 ≤ r then 2 else if 320 ≤ r then 1 else 0

/-- Whether a sensor whose reading stays as it was is stuck: unchanged for at least 100 ms in which the reading beside it has
moved by 4 °C or more, counted as the difference from what it was when this one became still (R180, log entry 91). -/
def stuckAt (still : Nat) (before now : Option Int) : Bool :=
  175000000 ≤ still && (match before, now with | some a, some b => 16 ≤ (b - a).natAbs | _, _ => false)

/-- VAULT_SENSOR_READ: a layer's sensor gives a reading in quarter degrees, or none. The announced class moves, 100 °C
is reported, and the criteria of a failed sensor are tested; a failed sensor's readings move nothing
(R178 to R180, R378). -/
def execVaultSensorRead (t layer : Nat) (reading : Option Int) (s : State) : Host.Outcome State Fault Refusal :=
  if t ≥ Config.tiles || 4 ≤ layer then .fault .noSuchPart
  else
    let x := s.tile t
    let l := vget { } x.vault.layers layer
    let now := s.lcc t (1 + layer)
    let comp := (s.island (t / 16)).reading
    if l.sfail then .next s
    else match reading with
      | none =>
        .next (s.onLayer t layer fun l => { l with suspect := l.suspect || 175000 ≤ now - l.readAt })
      | some r =>
        let jump := match l.reading with | some o => 8 < (r - o).natAbs | none => false
        let same := l.reading == some r
        let still := if same then l.stillSince else now
        let base := if same then l.compute.or comp else comp
        let stuck := same && stuckAt (now - l.stillSince) l.compute comp
        let bad := r < -80 || 520 < r || jump || stuck
        let s := s.onLayer t layer fun l =>
          let l := { l with reading := some r, readAt := now, stillSince := still, compute := base
                            suspect := l.suspect || bad }
          if bad then l else { l.announce (classOf l.pend r) now (x.ownsLayer layer) with warn := warnOf r }
        .next (if 400 ≤ r && !bad then s.reportFault 0 2 100 (t * 4 + layer) else s)

/-- The report of a failed layer sensor: sfail, the announced class H, and the notice to the tile (R180, R378). -/
def State.failLayerSensor (s : State) (t n : Nat) : State :=
  let x := s.tile t
  let s := s.onLayer t n fun l =>
    { l.announce 2 (s.lcc t (1 + n)) (x.ownsLayer n) with sfail := true, suspect := false }
  (s.onSys t fun y => { y with sfail := true }).reportFault 4 3 0 (t * 4 + n)

/-- The report of a failed compute-die sensor (R348, R377). -/
def State.failComputeSensor (s : State) (i : Nat) : State :=
  (s.setIsland i { s.island i with failed := true, suspect := false }).reportFault 4 3 1 i

/-- SENSOR_FAILURE_REPORT: a sensor that has met a criterion of R180 is reported failed. Disabled for any other
(log entry 7). -/
def execSensorFailureReport (which : Sensor) (s : State) : Host.Outcome State Fault Refusal :=
  match which with
  | .layer t n =>
    if t ≥ Config.tiles || 4 ≤ n then .fault .noSuchPart
    else
      let l := vget { } (s.tile t).vault.layers n
      if l.suspect && !l.sfail then .next (s.failLayerSensor t n) else .next s
  | .compute i =>
    if i ≥ Config.islands then .fault .noSuchPart
    else if (s.island i).suspect && !(s.island i).failed then .next (s.failComputeSensor i) else .next s
  | .base n => if 4 ≤ n then .fault .noSuchPart else .next s

/-- CLASS_LEAD_EXPIRY: 2 ms after a rise, the layer's applied class takes the new class (R179, R186). -/
def execClassLeadExpiry (t layer : Nat) (s : State) : Host.Outcome State Fault Refusal :=
  if t ≥ Config.tiles || 4 ≤ layer then .fault .noSuchPart
  else
    let now := s.lcc t (1 + layer)
    .next (s.onVault t fun v =>
      let l := vget { } v.layers layer
      let due := l.leads.filter fun e => e.1 ≤ now
      let top := due.foldl (fun a e => if a.toNat < e.2.toNat then e.2 else a) l.app
      { v with layers := vset v.layers layer { l with app := top, leads := l.leads.filter fun e => now < e.1 } })

end Sys2Proof.Machine
end

