-- ==== Sys2Proof/Machine/Fetch.lean ====
section
/-! DEFINITION. Fetching and decoding bundles, and what each slot does at an issue (R35 to R47, R58, R60, R121). -/

namespace Sys2Proof.Machine

/-! ### Code at hand (R36, R60, R121) -/

/-- The granules of a bundle after its head. -/
def State.granulesAt (s : State) (t a : Nat) (h : Head) : List Word :=
  (List.range (h.granules - 1)).map fun k => s.granule t (a + 8 * (k + 1))

/-- Bytes that the loop buffer holds (R121). -/
def loopBufferBytes : Nat := 131072

/-- Whether the loop buffer holds the bundle at a code address: it has captured it, in a body of at most 128 KiB
(R121). -/
def Seq.captures (q : Seq) (a : Nat) : Bool := match q.captured with
  | some (b, e) => e - b ≤ loopBufferBytes && b ≤ a && a < e
  | none => false

/-- Whether the bundle at a code address can be issued: the loop buffer holds it, or a filled target entry or the window
holds its line (R60). -/
def Seq.holds (q : Seq) (a : Nat) : Bool :=
  q.captures a
    || (q.window.any fun e => e.addr == lineOf a && e.here)
    || q.targets.toList.any fun e => e.fill == .filled
        && (lineOf e.addr.toNat == lineOf a || lineOf e.addr.toNat + 128 == lineOf a)

/-! ### Checks of a head (R36, R37, R41, R58) -/

/-- The head faults of a bundle, in order: its line's header, its extent, its own fields with the pad word. -/
def State.headFault (s : State) (t a : Nat) : Option Nat :=
  let l := s.lineAt t a
  let h := s.headAt t a
  let g := a % 128 / 8
  if !l.ok || !l.start.getLsbD g then some 0x02
  else if 16 < endGranule a h || (List.range 16).any fun k => g < k && k < endGranule a h && l.start.getLsbD k then
    some 0x02
  else if !h.ok || !(h.words (s.granulesAt t a h)).2 then some 0x04
  else none

/-- Whether a bundle is the first of a function-entry line (R45). -/
def State.isEntry (s : State) (t a : Nat) : Bool := a % 128 == 8 && (s.lineAt t a).fentry

/-- The iteration flag of a head (R43). -/
def headAdmits (h : Head) (loops : Vector Loop 6) : Bool :=
  let l := vget { } loops h.ilev.toNat
  !l.active || h.iter == 0 || (if h.iter == 1 then l.l == 0 else l.l + 1 == l.lc)

/-! ### What a slot does (R45, R46) -/

/-- The eight slots in slot order. -/
def allSlots : List Slot := [.s, .v0, .v1, .m, .c0, .c1, .d, .x]

/-- A slot at an issue: its latch from then on, the operation that goes out, the fault of its word's fields, and whether
the word is encoded. -/
structure SlotPlan where
  slot : Slot
  latch : Latch
  op : Option Instr := none
  fault : Option Nat := none
  fresh : Bool := false
  deriving DecidableEq, Repr

/-- Whether an instruction is a NOP. -/
def isNop : Instr → Bool
  | .sNop | .vNop | .mNop | .cNop | .dNop | .xNop => true
  | _ => false

/-- The state in which a slot's operation acts. -/
def State.focusOn (s : State) (t slot index addr : Nat) (checked : Bool) : State :=
  { s with focus := { tile := t, slot := slot, index := index, addr := addr, checked := checked } }

/-- Whether a slot word's guard passes, its predicate read as it stands (R46). -/
def State.guardPasses (s : State) (t : Nat) (slot : Slot) (w : Word) : Bool :=
  let g := guardOf slot w
  s.readP { t := t, slot := slot.num, index := 0, addr := 0, now := s.icc t } g.gp != g.gn

/-- Whether a guard waits: in guarded mode, for an earlier operation's write to its predicate (R46). -/
def State.guardWaits (s : State) (t : Nat) (slot : Slot) (w : Word) : Bool :=
  (s.tile t).sys.gm && (guardOf slot w).gp != 0 && (s.tile t).pending (s.icc t) (.p (guardOf slot w).gp.toNat)

/-- An encoded word at an issue. A word that decodes only with a field out of range faults where its guard passes. -/
def State.planWord (s : State) (t : Nat) (slot : Slot) (old : Latch) (w : Word) : SlotPlan :=
  let pass := s.guardPasses t slot w
  let into := fun (i : Instr) => if isNop i then (if pass then { } else old)
    else { word := w, index := 0, live := true }
  match decodeWordRaw slot w with
  | .error e => { slot := slot, latch := old, fault := some e.code, fresh := true }
  | .ok i =>
    if !pass then { slot := slot, latch := into i, fresh := true }
    else match decodeWord slot w with
      | .error e => { slot := slot, latch := old, fault := some e.code, fresh := true }
      | .ok i => { slot := slot, latch := into i, op := some i, fresh := true }

/-- An omitted word at an issue: the latched operation with the next index, if its guard passes. A word that was squashed
when it was encoded, and has a field out of range, faults at this issue (R45, R58). -/
def State.planLatched (s : State) (t : Nat) (slot : Slot) (old : Latch) : SlotPlan :=
  if !old.live then { slot := slot, latch := old }
  else
    let next := { old with index := old.index + 1 }
    if !s.guardPasses t slot old.word then { slot := slot, latch := next }
    else match decodeWord slot old.word with
      | .error e => { slot := slot, latch := next, fault := some e.code }
      | .ok i => { slot := slot, latch := next, op := some i }

/-- All eight slots at an issue. -/
def State.planAll (s : State) (t : Nat) (latches : Vector Latch 8) (ws : List (Slot × Word)) : List SlotPlan :=
  allSlots.map fun sl =>
    let l := vget { } latches sl.num
    match ws.lookup sl with
    | some w => s.planWord t sl l w
    | none => s.planLatched t sl l

/-- Whether some slot's guard holds the issue (R33). -/
def State.planWaits (s : State) (t : Nat) (latches : Vector Latch 8) (ws : List (Slot × Word)) : Bool :=
  allSlots.any fun sl =>
    let l := vget { } latches sl.num
    match ws.lookup sl with
    | some w => s.guardWaits t sl w
    | none => l.live && s.guardWaits t sl l.word

/-- The state that V1's deferral checks see: after the deferral operation that V0 issues beside it (R209). -/
def State.afterV0 (s : State) (t addr : Nat) (ps : List SlotPlan) : State :=
  match ps.find? fun p => p.slot == .v0 with
  | none => s
  | some p =>
    let s' := s.focusOn t 1 p.latch.index.toNat addr true
    let r := match p.op with
      | some (.defer f) => execDefer f s'
      | some (.drain f) => execDrain f s'
      | some (.drainp f) => execDrainp f s'
      | _ => .next s
    match r with
    | .next s => s
    | _ => s

/-- What the other slot of a pair puts into a shared list before this one on the same issue: V0 before V1, C0 before
C1 (R28, R278, R282). -/
def State.earlier (s : State) (t addr : Nat) (ps : List SlotPlan) (slot : Slot) : Nat :=
  let one := fun (sl : Slot) (f : State → Instr → Bool) =>
    match ps.find? fun p => p.slot == sl with
    | some p => match p.op with
      | some i => (f (s.focusOn t sl.num p.latch.index.toNat addr false) i).toNat
      | none => 0
    | none => 0
  match slot with
  | .v1 => one .v0 fun _ i => isVAtomic i
  | .c1 => one .c0 fun s i => s.addsEntry (s.ctx i) i
  | _ => 0

/-- The decode faults of an issue's encoded words, in slot order (R58). -/
def State.planDecode (s : State) (t addr : Nat) (ps : List SlotPlan) : Option TrapReq :=
  let s1 := s.afterV0 t addr ps
  ps.findSome? fun p =>
    if !p.fresh then none
    else match p.fault, p.op with
      | some e, _ => some (trapOf p.slot.num e)
      | none, some i =>
        let s' := (if p.slot = .v1 then s1 else s).focusOn t p.slot.num p.latch.index.toNat addr false
        decodeTrap s' (s'.ctx i) i
      | none, none => none

/-- Whether an operation of an issue waits for one of its sources, which its checks read too (R28). -/
def State.planSources (s : State) (t addr : Nat) (ps : List SlotPlan) : Bool :=
  ps.any fun p => match p.op with
    | none => false
    | some i =>
      let s' := s.focusOn t p.slot.num p.latch.index.toNat addr false
      sourceWaits s' (s'.ctx i) i

/-- Whether an operation of an issue waits (R28, R32). -/
def State.planStalls (s : State) (t addr : Nat) (ps : List SlotPlan) : Bool :=
  ps.any fun p => match p.op with
    | none => false
    | some i =>
      let s' := s.focusOn t p.slot.num p.latch.index.toNat addr false
      opStalls s' (s'.ctx i) i (s.earlier t addr ps p.slot)

/-- The issue faults of an issue, in slot order; a latched operation's decode checks that depend on data are made
again (R58). Where one coincides with TRAP, the fault is taken and nothing goes out (R58, R149, log entry 86). -/
def State.planFault (s : State) (t addr : Nat) (ps : List SlotPlan) : Option TrapReq :=
  let s1 := s.afterV0 t addr ps
  ps.findSome? fun p => match p.op with
    | none => if p.fresh then none else p.fault.map (trapOf p.slot.num)
    | some i =>
      let s' := s.focusOn t p.slot.num p.latch.index.toNat addr false
      let c := s'.ctx i
      let again := if p.fresh then none
        else decodeTrap ((if p.slot = .v1 then s1 else s).focusOn t p.slot.num p.latch.index.toNat addr false) c i
      again.orElse fun _ => issueTrap s' c i (s.earlier t addr ps p.slot)

end Sys2Proof.Machine
end

