-- ==== Sys2Proof/Machine/Sequencer.lean ====
section
/-! DEFINITION. The sequencer's steps: issues, transfers, loop ends, bundle kinds, landings, the ends of stalls, trap
handlers (R27 to R31, R42 to R45, R79, R117 to R123, R133 to R141, R152 to R154, R181 to R183, R334, R335). -/

namespace Sys2Proof.Machine

/-! ### Trap-checked operations (R79) -/

/-- Whether a trap-checked operation of a tile is in flight. -/
def Seq.checking (q : Seq) : Bool := q.flights.any fun f => f.check.isSome

/-- Whether the landed trap-checked operations of a tile can be decided on: all have landed, and what its last issue
still selects has acted; END and TRET select nothing more, and a trap ends their wait (R79, R148, R154). -/
def Seq.decidable (q : Seq) : Bool :=
  q.phase.live && !q.checks.isEmpty && !q.checking
    && ((q.stall == .none && (q.inHand || (q.after.isEmpty && q.closing.isNone))) || q.stall == .ending || q.stall == .tretDrain)

/-- Whether they can be decided on in the drain of a suspension (R335). -/
def Seq.draining (q : Seq) : Bool := q.phase == .suspending && q.stall == .draining && !q.checks.isEmpty && !q.checking

/-- The traps that landed operations ask for, in the order V0, V1, X, under the enables as they stand. -/
def Tile.checkTraps (x : Tile) : List TrapReq :=
  [1, 2, 7].filterMap fun sl =>
    (x.seq.checks.find? fun e => e.1 == sl).bind fun e =>
      e.2.trap sl (if e.2.dec then x.sys.dtrapen else x.sys.ftrapen)

/-- The decision on the trap-checked operations of an issue: the first trap is taken, and the others are held with
sr.event.v1p and sr.event.xp (R79). The frames show the vault as it stood when the issue was checked (R189). -/
def State.settle (s : State) (t : Nat) : State :=
  let x := s.tile t
  if !x.seq.decidable then s else
  let traps := x.checkTraps
  let rest := traps.drop 1
  let s := s.onTile t fun x =>
    { x with
      sys := { x.sys with v1p := x.sys.v1p || rest.any (·.slot == 2), xp := x.sys.xp || rest.any (·.slot == 7) }
      seq := { x.seq with checks := [], held := x.seq.held ++ rest, heldAt := if rest.isEmpty then x.seq.heldAt else x.seq.snap } }
  match traps with
  | [] => s
  | r :: _ =>
    let next := if x.seq.stall == .tretDrain then s.returnsTo t else if x.seq.inHand then x.seq.next else x.seq.pc
    s.takeTrapAt t r x.seq.last next x.seq.lastNo x.seq.inHand x.seq.snap

/-- The decision in the drain of a suspension: with no trap the drain goes on; a trap is a fault found in the drain, and the
task does not suspend. At a yield or re-plan point it goes on to what its bundle selects, and takes the trap there; at a
sync wait it takes the trap at the sync bundle (R79, R294, R335). -/
def State.settleDrain (s : State) (t : Nat) : State :=
  let x := s.tile t
  if !x.seq.draining then s
  else if x.checkTraps.isEmpty then s.onSeq t fun q => { q with checks := [] }
  else
    let point := match x.task with | some k => k.point | none => 0
    if point < 2 then s.onSeq t fun q => { q with phase := .running, stall := .none }
    else
      let (a, n, i, rest) := s.standing t
      let held := x.checkTraps.drop 1
      let s := s.onTile t fun x =>
        { x with
          sys := { x.sys with v1p := x.sys.v1p || held.any (·.slot == 2), xp := x.sys.xp || held.any (·.slot == 7) }
          seq := { x.seq with checks := [], held := x.seq.held ++ held, heldAt := if held.isEmpty then x.seq.heldAt else x.seq.snap } }
      match x.checkTraps with
      | [] => s
      | r :: _ => s.takeTrapAt t r a n i rest x.seq.snap

/-- The state after a flight has landed (R27). -/
def State.landFlight (s : State) (t : Nat) (f : Flight) : State :=
  ((s.onTile t (·.land f (s.undef (8000000 + f.id)))).settle t).settleDrain t

/-- RESULT_LANDING: an issued operation's result lands, on a cycle from the one on which its value is there. Disabled
for any other (R27, R28, log entry 7). -/
def execResultLanding (t id : Nat) (s : State) : Host.Outcome State Fault Refusal :=
  if t ≥ Config.tiles then .fault .noSuchPart
  else
    match (s.tile t).seq.flights.find? fun f => f.id == id with
    | some f => if (s.tile t).mayLand f (s.icc t) then .next (s.landFlight t f).nextFree else .next s
    | none => .next s

/-- Whether code asked for on a cycle can come to a tile on this one: the port of its vault is free for it, or the bound of
290 cycles has come (R60, R259). -/
def State.codeComes (s : State) (t asked : Nat) : Bool := asked < s.icc t && (s.homeFree t || asked + 290 ≤ s.icc t)

/-- LINE_ARRIVAL: a line of the window arrives, or a target entry is filled with its two, after the cycle on which it was
asked for, as the vault's port moves them (R60, R122, R259). Disabled for what was not asked for (log entry 7). -/
def execLineArrival (t : Nat) (what : FetchOf) (s : State) : Host.Outcome State Fault Refusal :=
  if t ≥ Config.tiles then .fault .noSuchPart
  else
    let q := (s.tile t).seq
    match what with
    | .line a =>
      match q.window.find? fun e => e.addr == a && !e.here with
      | some e =>
        if s.codeComes t e.asked then
          .next ((s.onSeq t fun q =>
            { q with window := q.window.map fun w => if w.addr = a then { w with here := true } else w }).homeMoves t t 2)
        else .next s
      | none => .next s
    | .entry k =>
      let e := vget { } q.targets k.toNat
      match e.fill with
      | .filling asked =>
        if s.codeComes t asked then
          .next ((s.onSeq t fun q =>
            { q with targets := vset q.targets k.toNat { e with fill := .filled } }).homeMoves t t 4)
        else .next s
      | _ => .next s

/-! ### Issues (R42, R43, R45, R58) -/

/-- Whether a running tile comes to issue on this cycle: nothing stalls it, and its bundle in hand or the post-
operations of the last one are done (R32, R42, R79). -/
def State.mayIssue (s : State) (t : Nat) : Bool :=
  let x := s.tile t
  s.boot == .ready && x.seq.phase == .running && x.seq.stall == .none && x.seq.after.isEmpty
    && (x.seq.inHand || x.seq.closing.isNone) && x.seq.nextAt ≤ s.icc t && !x.seq.checking && x.task.isSome

/-- What a bundle does after its last issue: its kind, its transfer, its loop end (R42, R44). -/
def postOps (h : Head) (t : Nat) (calm : Bool) : List Instr :=
  (if calm then [] else
    if h.kind = 1 then [.sync t h.slev] else if h.kind = 2 then [.yield t] else if h.kind = 3 then [.rplan t] else [])
  ++ (if h.xkind = 1 then [.transferJump t h.xt h.xp h.xn]
      else if h.xkind = 2 then [.transferCall t h.xt h.xp h.xn] else [])
  ++ [.loopEnd t h.lend]

/-- The sequencer once an issue of the bundle at `pc`, of `size` bytes, has gone out, with what is left to do; the loop buffer
captures it where a body is active (R121). -/
def Seq.issued (q : Seq) (now step size : Nat) (after : List Instr) : Seq :=
  let more := q.issueNo < q.reps
  { q with
    last := q.pc, lastNo := q.issueNo, issuedAt := now, nextAt := now + step, inHand := more, xpHeld := none
    hushed := q.hushed && more, calm := q.calm && more, after := if more then [] else after
    captured := match q.captured with
      | some (b, e) => if q.capture && q.loops.toList.any (·.active) then some (b, max e (q.pc + size)) else q.captured
      | none => none }

/-- The bundle's own checks beyond its head's fields: the level of a sync bundle, and the slots and latches of a
re-plan point (R41, R182). -/
def State.kindFault (s : State) (t : Nat) (h : Head) (latches : Vector Latch 8) : Option TrapReq :=
  if h.kind = 1 && (match (s.tile t).task with | some k => k.levels ≤ h.slev.toNat | none => false) then
    some (trapOf 0xE 0x05)
  else if h.kind = 3 && (h.present != 0 || latches.toList.any (·.live)) then some (trapOf 0xE 0x16)
  else none

/-- One issue of the slots of the bundle at `pc`: what it waits for before its words can be checked, decode faults, the
bundle's own issue faults, stalls, the slots' issue faults; or every latch takes its value and the operations go out
(R45, R58, log entry 86). -/
def State.issueSlots (s : State) (t : Nat) (h : Head) (ws : List (Slot × Word)) (latches : Vector Latch 8) : State :=
  let q := (s.tile t).seq
  let ps := s.planAll t latches ws
  if s.planWaits t latches ws || s.planSources t q.pc ps then s
  else match s.planDecode t q.pc ps with
    | some r => s.refuse t r
    | none =>
      let taken := Vector.ofFn fun k : Fin 8 => match ps[k.val]? with | some p => p.latch | none => { }
      let latched := s.onSeq t fun q => { q with latches := taken }
      match s.kindFault t h latches with
      | some r => latched.refuse t r
      | none =>
        if s.planStalls t q.pc ps then s
        else match s.planFault t q.pc ps with
          | some r => latched.refuse t r
          | none =>
            let ops := ps.filterMap fun p => p.op.map fun i => (p.slot.num, p.latch.index.toNat, i)
            let x := s.tile t
            let s := latched.onSeq t fun q =>
              { q with snap := some ⟨s.icc t, s.pcc, x.vault⟩ }.issued (s.icc t) (x.divisor 0) (8 * h.granules) (postOps h t q.calm)
            { s.focusOn t 0 0 q.pc true with out := ops }

/-- The sequencer with the bundle at `pc` begun: its head's issues, and where sequential flow goes from it (R38, R42). -/
def State.beginBundle (s : State) (t : Nat) : State :=
  let pc := (s.tile t).seq.pc
  let next := match s.successor t pc with | .ok a => a | .error _ => pc
  s.onSeq t fun q => { q with issueNo := 0, reps := (s.headAt t pc).reps.toNat, next := next }

/-- An issue at which nothing goes out: the bundle in hand is suppressed, and its loop end has no marks (R43). The vault as it
stands is what a frame of its flow, or of its cycle's deficit, shows (R189). -/
def State.issueHushed (s : State) (t : Nat) : State :=
  let x := s.tile t
  let size := 8 * (s.headAt t x.seq.pc).granules
  s.onSeq t fun q => { q with hushed := true, snap := some ⟨s.icc t, s.pcc, x.vault⟩ }.issued (s.icc t) ((s.tile t).divisor 0) size [.loopEnd t 0]

/-- The first issue of the bundle begun, with what the protection of its code finds (R43, R58, R372). The bundle of a function entry
makes the latches idle as it issues: a frame of its decode fault shows them as they were (R45, log entry 109). -/
def State.issueFirst (s : State) (t : Nat) (err : Ecc) : State :=
  let q := (s.tile t).seq
  let h := s.headAt t q.pc
  let s := if err = .corrected then s.countCorrected t storeCode else s
  if err = .bad then (s.reportFault 7 1 0x73 t).trapAt t (trapOf 0xE 0x73)
  else match s.headFault t q.pc with
    | some e => s.trapAt t (trapOf 0xE e)
    | none =>
      if !headAdmits h q.loops then s.issueHushed t
      else s.issueSlots t h (h.words (s.granulesAt t q.pc h)).1
        (if s.isEntry t q.pc then q.latches.map fun _ => { } else q.latches)

/-- The next issue of the bundle in hand; where its operations hold it, nothing has happened (R42, R43). -/
def State.issueAgain (s : State) (t : Nat) : State :=
  let q := (s.tile t).seq
  let h := s.headAt t q.pc
  let s' := s.onSeq t fun q => { q with issueNo := q.issueNo + 1, reps := h.reps.toNat }
  let u := if q.hushed then s'.issueHushed t else s'.issueSlots t h [] q.latches
  if (u.tile t).seq.phase = .running && (u.tile t).seq.issuedAt < s.icc t then s else u

/-- The issue that a tile comes to: the next one of the bundle in hand, or the first of the bundle at `pc` once its
line is there, with the divisors and target entries that earlier bundles have set (R30, R122, R141). -/
def State.issueNext (s : State) (t : Nat) (err : Ecc) : State :=
  let s := s.onTile t fun x => if x.seq.inHand then x else x.newDivisors.newEntries
  let q := (s.tile t).seq
  if q.inHand then s.issueAgain t
  else if q.holds q.pc then (s.beginBundle t).issueFirst t err
  else if q.window.any fun e => e.addr == lineOf q.pc then s
  else s.onSeq t fun q => { q with window := slide q.window (lineOf q.pc) (s.icc t) }

/-- BUNDLE_ISSUE: the tile makes its next issue, if it comes to one on this cycle; otherwise nothing changes
(R42, R43, R45, R58, log entry 7). -/
def execBundleIssue (t : Nat) (err : Ecc) (s : State) : Host.Outcome State Fault Refusal :=
  if t ≥ Config.tiles then .fault .noSuchPart
  else if !s.mayIssue t then .next s
  else
    let s' := s.settle t
    if (s'.tile t).seq.phase = .running then .next (s'.issueNext t err).nextFree else .next s'

/-- What holds a tile once its bundle has acted: END ignores the transfer and the loop end, TRET the kind as well; the
drain of a MODE follows (R140, R148, R154). -/
def State.closeBundle (s : State) (t : Nat) : State :=
  s.onSeq t fun q =>
    if q.inHand then q
    else
      let kind := fun (i : Instr) => match i with
        | .sync _ _ | .yield _ | .rplan _ => true
        | _ => false
      let q := match q.closing with
        | some .ending => { q with after := q.after.filter kind }
        | some .tretDrain => { q with after := [] }
        | _ => q
      match q.closing, q.after, q.stall with
      | some st, [], .none => { q with stall := st, closing := none }
      | _, _, _ => q

/-! ### Transfers and loop ends (R44, R119, R120) -/

/-- Whether a sync wait or the drain of a suspension keeps the post-operations of a bundle waiting. -/
def Stall.ofKind : Stall → Bool
  | .arriving _ | .released _ | .draining | .exiting => true
  | _ => false

/-- Whether a tile issues bundles, or is resumed at a yield or re-plan point whose post-operations act now. -/
def State.postActive (s : State) (t : Nat) : Bool :=
  let x := s.tile t
  x.seq.phase == .running
    || (x.seq.phase == .resuming && x.seq.nextAt ≤ s.icc t && (match x.task with | some k => k.point < 2 | none => false))

/-- Whether a tile has come to a post-operation of its bundle: transfers and loop ends act with the last issue, kinds
once the stall of an operation of the bundle has ended. -/
def State.comesTo (s : State) (t : Nat) (i : Instr) (kind : Bool) : Bool :=
  let q := (s.tile t).seq
  s.postActive t && q.after.head? == some i && !q.inHand && (if kind then q.stall == .none else !q.stall.ofKind)

/-- Whether a transfer waits: in guarded mode, for a write to its predicate by an operation of an earlier issue. -/
def State.transferWaits (s : State) (t : Nat) (xp : BitVec 3) : Bool :=
  let x := s.tile t
  x.sys.gm && xp != 0 && x.seq.flights.any fun f => f.issue < x.seq.issuedAt && f.dests.contains (.p xp.toNat)

/-- A transfer waits for the value that an earlier operation's write gives its predicate: what its own bundle writes meanwhile is
never seen (R44). -/
def State.holdPred (s : State) (t : Nat) (xp : BitVec 3) : State :=
  s.onSeq t fun q => { q with xpHeld := some (s.predSettled t xp) }

/-- A jump or a call after its bundle's last issue: it waits for its predicate, is not taken, or is taken. -/
def State.runTransfer (s : State) (t : Nat) (xt xp : BitVec 3) (xn call : Bool) : State :=
  if s.transferWaits t xp then s.holdPred t xp
  else if s.predRead t xp == xn then s.onSeq t fun q => { q with after := q.after.drop 1 }
  else s.taken t xt call

/-- TRANSFER_JUMP: the transfer of the bundle that issued last, once nothing before it is left. Disabled otherwise
(R44, R120, log entry 7). -/
def execTransferJump (t : Nat) (xt xp : BitVec 3) (xn : Bool) (s : State) : Host.Outcome State Fault Refusal :=
  if t ≥ Config.tiles then .fault .noSuchPart
  else if !s.comesTo t (.transferJump t xt xp xn) false then .next s
  else .next (s.runTransfer t xt xp xn false).nextFree

/-- TRANSFER_CALL: as TRANSFER_JUMP, and s31 receives the return address (R44, R123). -/
def execTransferCall (t : Nat) (xt xp : BitVec 3) (xn : Bool) (s : State) : Host.Outcome State Fault Refusal :=
  if t ≥ Config.tiles then .fault .noSuchPart
  else if !s.comesTo t (.transferCall t xt xp xn) false then .next s
  else .next (s.runTransfer t xt xp xn true).nextFree

/-- LOOP_END: after the bundle's last issue, without a taken transfer, the marked levels advance; a level that has
iterations left replays its body, and otherwise sequential flow goes on. Disabled until then (R38, R119, R121, log
entry 7). -/
def execLoopEnd (t : Nat) (lend : BitVec 6) (s : State) : Host.Outcome State Fault Refusal :=
  if t ≥ Config.tiles then .fault .noSuchPart
  else if !s.comesTo t (.loopEnd t lend) false then .next s
  else .next (s.runLoopEnd t lend)

/-! ### Bundle kinds (R137 to R139, R183, R334, R335) -/

/-- The tile acts on a pre-emption notice: it stops issuing and drains (R335), and the yield count restarts (R339); `point` as
the context record has it (R338). The context shows the vault as it stands now (R336, log entry 92). -/
def State.suspendAt (s : State) (t point : Nat) : State :=
  s.onTile t fun x =>
    { x with task := x.task.map fun k => { k with point := point }
             seq := { x.seq with phase := .suspending, stall := .draining, yieldAt := s.icc t, pointAt := some (s.snap t) } }

/-- The divisors at a yield point with a throttle notice: the larger of floor and request (R334). -/
def State.throttle (s : State) (t : Nat) : State :=
  s.onSys t fun y =>
    if !y.thr then y
    else { y with thr := false, divFloor := y.thrTo
                  div := Vector.ofFn fun k : Fin 4 => max (vget 1 y.thrTo k.val) (vget 1 y.divReq k.val) }

/-- A yield point: the count restarts, a throttle is applied, and a pending notice suspends the task (R138). -/
def State.yieldPoint (s : State) (t point : Nat) : State :=
  let s := (s.onSeq t fun q => { q with yieldAt := s.icc t, after := q.after.drop 1 }).throttle t
  if (s.tile t).sys.pre then s.suspendAt t point else s

/-- The region open at a sync, yield-point or re-plan-point bundle is discarded, with trap 0x05 (R132). -/
def State.openRegion (s : State) (t : Nat) : Bool := (s.tile t).eng.region.isSome

/-- SYNC: after its last issue the bundle waits for arrival at its level (R137). Disabled until then (log entry 7). -/
def execSync (t : Nat) (slev : BitVec 3) (s : State) : Host.Outcome State Fault Refusal :=
  if t ≥ Config.tiles then .fault .noSuchPart
  else if !s.comesTo t (.sync t slev) true then .next s
  else if s.openRegion t then .next ((s.onTile t Tile.dropRegion).flowTrap t 0x05)
  else .next (s.onSeq t fun q => { q with stall := .arriving slev.toNat, after := q.after.drop 1 })

/-- YIELD: R138. Disabled until the bundle's last issue (log entry 7). -/
def execYield (t : Nat) (s : State) : Host.Outcome State Fault Refusal :=
  if t ≥ Config.tiles then .fault .noSuchPart
  else if !s.comesTo t (.yield t) true then .next s
  else if s.openRegion t then .next ((s.onTile t Tile.dropRegion).flowTrap t 0x05)
  else .next (s.yieldPoint t 0)

/-- The schedule for the lowest class present that is at least a class (R181, R183). -/
def schedFor (v : Variant) (e : Nat) : Option (Nat × List Word) :=
  ([0, 1, 2].filter (e ≤ ·)).findSome? fun c => v.scheds.find? fun p => p.1 == c

/-- The code region of a tile written from address 0 on (R325). -/
def State.writeCode (s : State) (t : Nat) (code : List Word) : State :=
  { s with mem := writeBytes s.mem (codeAddr t 0) (code.flatMap fun w => leBytes 8 w.toNat) }

/-- The entry for a class of the re-plan point at an address of the running schedule (R181). -/
def pointAt (v : Variant) (running addr cls : Nat) : Option ReplanEntry :=
  (v.replans.find? fun es => es.any fun e => e.cls == running && e.addr == addr).bind
    fun es => es.find? fun e => e.cls == cls

/-- The loop levels and target entries at a re-plan point of the selected schedule: active levels take their body
starts, filled entries their addresses, to be filled again; an entry that is not listed is emptied (R183). -/
def Seq.mapped (q : Seq) (e : ReplanEntry) (now : Nat) : Seq :=
  { q with
    loops := Vector.ofFn fun k : Fin 6 =>
      let l := vget { } q.loops k.val
      match l.active, find k.val e.bodies with
      | true, some a => { l with body := a }
      | _, _ => l
    targets := Vector.ofFn fun k : Fin 8 =>
      let t := vget { } q.targets k.val
      match t.fill, find k.val e.targets with
      | .empty, _ => t
      | _, some a => { addr := BitVec.ofNat 64 a, fill := .filling now }
      | _, none => { } }

/-- A layer at a swap or a fresh binding: the class applied is the one announced (R179). -/
def Layer.settle (l : Layer) : Layer := { l with app := l.pend, leads := [] }

/-- VARIANT_SWAP: the schedule for the class in force is written and goes on at the matching re-plan point, whose kind
does not act; the vault applies the announced classes, and sr.event.rcls clears. Without a matching point nothing changes
(R179, R183, log entry 58). -/
def State.swapVariant (s : State) (t : Nat) : State :=
  let x := s.tile t
  let now := s.icc t
  match x.task.bind fun k => s.variantOf k with
  | none => s
  | some v =>
    match schedFor v (effOf x.vault x.own).toNat with
    | none => s
    | some (cls, code) =>
      match pointAt v x.vault.sched.toNat x.seq.last cls with
      | none => s
      | some e =>
        let s := s.onTile t fun x =>
          let v := { x.vault with sched := BitVec.ofNat 2 cls, layers := x.vault.layers.map Layer.settle }
          { x with sys := { x.sys with rcls := false }, vault := v }
        (s.writeCode t code).onSeq t fun q =>
          let q := q.mapped e now
          { q with pc := e.addr, next := e.addr, after := [], calm := true, captured := none, capture := false
                   window := windowFrom (lineOf e.addr) now }

/-- RPLAN: a yield point that also restarts the re-plan count and, with a class change pending, swaps schedule
variants. Disabled until the bundle's last issue (R139, R183, log entry 7). -/
def execRplan (t : Nat) (s : State) : Host.Outcome State Fault Refusal :=
  if t ≥ Config.tiles then .fault .noSuchPart
  else if !s.comesTo t (.rplan t) true then .next s
  else if s.openRegion t then .next ((s.onTile t Tile.dropRegion).flowTrap t 0x05)
  else
    let s := (s.yieldPoint t 1).onSeq t fun q => { q with replanAt := s.pcc }
    if (s.tile t).sys.rcls && (s.tile t).seq.stall = .none then .next (s.swapVariant t) else .next s

/-! ### Interval limits (R31) -/

/-- Whether the counts of R31 can still trap a tile: not once END waits, with no bundle left to issue. -/
def Seq.counts (q : Seq) : Bool := q.phase.live && q.phase != .starting && q.phase != .resuming && q.stall != .ending

/-- YIELD_INTERVAL_EXPIRY: trap 0x0E when the count since the last yield point reaches yield_max + 1, also of a bundle that
stalls on a queue of the decoder, whose lists it leaves as they are. Disabled before (R31, R227, R295, log entry 7). -/
def execYieldIntervalExpiry (t : Nat) (s : State) : Host.Outcome State Fault Refusal :=
  if t ≥ Config.tiles then .fault .noSuchPart
  else
    let x := s.tile t
    match x.task with
    | some k =>
      if x.seq.counts && k.yieldMax < s.icc t - x.seq.yieldAt then .next (s.trapWaiting t (trapOf 0xE 0x0E)) else .next s
    | none => .next s

/-- REPLAN_INTERVAL_EXPIRY: trap 0x1E when the pcc count since the last re-plan point exceeds its limit. Disabled
before (R31, log entry 7). -/
def execReplanIntervalExpiry (t : Nat) (s : State) : Host.Outcome State Fault Refusal :=
  if t ≥ Config.tiles then .fault .noSuchPart
  else
    let x := s.tile t
    match x.task with
    | some k =>
      if x.seq.counts && k.replanMax * 1750 < s.pcc - x.seq.replanAt then .next (s.trapWaiting t (trapOf 0xE 0x1E))
      else .next s
    | none => .next s

/-! ### The ends of stalls (R133 to R135, R140) -/

/-- Generation of an arrival word in staging (R275). -/
def genAt (m : Memory) (a : Nat) : BitVec 32 := BitVec.ofNat 32 (readNat m (a + 8) 4)

/-- Entries of the early-read checker without those of global copies that a test picks (R278). -/
def Tile.observed (x : Tile) (p : Listed → Bool) : Tile :=
  { x with eng := { x.eng with early := x.eng.early.filter fun e => !(e.glob && p e) } }

/-- A task reads the generation of an arrival word: reads that any tile issues on a later cycle come after the write units that
have been counted up to it. Generations are compared modulo 2³², the nearer way round (R275, R277, R310, log entry 116). -/
def State.seesGen (s : State) (tile addr n gen : Nat) : State :=
  let sees := fun (o : Ordered) => o.word.tile == tile && addr ≤ o.word.addr + 8 && o.word.addr + 12 ≤ addr + n
    && o.seenAt.isNone && (match o.gen with | some g => decide ((gen + (2 ^ 32 - g)) % 2 ^ 32 < 2 ^ 31) | none => false)
  { s with ordered := s.ordered.map fun o => if sees o then { o with seenAt := some s.pcc } else o }

/-- WAITA_COMPLETE: the wait ends on a changed generation, near the yield limit, or on a notice; the destination
receives the generation one cycle later. Disabled before (R133, R278, log entry 7). -/
def execWaitaComplete (t : Nat) (s : State) : Host.Outcome State Fault Refusal :=
  if t ≥ Config.tiles then .fault .noSuchPart
  else
    let x := s.tile t
    let now := s.icc t
    match x.seq.stall, x.task with
    | .waita d addr old, some k =>
      let gen := genAt x.st addr
      let near := k.yieldMax - 256 ≤ now - x.seq.yieldAt
      if x.seq.issuedAt < now && (gen != old || near || x.sys.pre || x.sys.thr || x.sys.rcls) then
        let s := s.onTile t fun x =>
          { x with seq := { x.seq with stall := .none } }.observed fun e =>
            e.advanced && (match e.arrival with | some a => a.tile == t && a.addr == addr | none => false)
              && x.eng.copies.all fun g => g.id != e.copy
        let s := s.seesGen t addr 12 gen.toNat
        .next (if d % 32 = 0 then s else s.flightBy t (now + x.divisor 0) [.s (d % 32) (gen.setWidth 64)])
      else .next s
    | _, _ => .next s

/-- Whether the copies of a slot issued before an identifier have performed or faulted. -/
def Engines.copiesDone (e : Engines) (upto : Nat) (slot : Nat → Bool) : Bool :=
  e.copies.all fun g => upto ≤ g.id || !slot g.slot || g.fault.isSome

/-- WAITS_COMPLETE: the wait ends when the selected status holds (R134, R278). Disabled before (log entry 7). -/
def execWaitsComplete (t : Nat) (s : State) : Host.Outcome State Fault Refusal :=
  if t ≥ Config.tiles then .fault .noSuchPart
  else
    let x := s.tile t
    let e := x.eng
    match x.seq.stall with
    | .waits sel upto =>
      let slot := fun k => (sel = 1 && k = 4) || (sel = 2 && k = 5) || sel = 3
      let done :=
        if sel = 0 then e.mmad.reqs.all fun r => upto ≤ r.id
        else if sel = 4 then e.df.toList.all (·.isEmpty) && e.drf.reqs.isEmpty
        else e.copiesDone upto slot
      if done && x.seq.issuedAt < s.icc t then
        .next (s.onTile t fun x =>
          { x with seq := { x.seq with stall := .none } }.observed fun e => slot e.slot && e.copy < upto)
      else .next s
    | _ => .next s

/-- Whether the island copies and space-1 stores issued before a cycle have performed at their targets, the issuing tile
itself among them (R125, R265). -/
def Tile.islandDone (x : Tile) (before now : Nat) : Bool :=
  (x.seq.stWrites.all fun w => before ≤ w.issue || w.cycle ≤ now || !w.isle)
    && x.seq.stReads.all fun r => before ≤ r.issue || !r.isle

/-- Whether the operations that a FENCE selects, issued before it, have performed or faulted (R135). -/
def Tile.fenced (x : Tile) (sel upto now : Nat) : Bool :=
  let e := x.eng
  let glob := e.copiesDone upto (fun _ => true) && (e.atomics.all fun a => upto ≤ a.id || a.stopped)
    && e.vatomics.all fun a => upto ≤ a.id || a.stopped
  let isle := x.islandDone x.seq.issuedAt now
  (sel = 2 || glob) && (sel = 1 || isle)

/-- FENCE_COMPLETE: the wait ends when every selected operation has performed or faulted (R135, R278). Disabled before
(log entry 7). -/
def execFenceComplete (t : Nat) (s : State) : Host.Outcome State Fault Refusal :=
  if t ≥ Config.tiles then .fault .noSuchPart
  else
    let x := s.tile t
    match x.seq.stall with
    | .fence sel upto =>
      if x.fenced sel upto (s.icc t) && x.seq.issuedAt < s.icc t then
        .next (s.onTile t fun x =>
          { x with seq := { x.seq with stall := .none } }.observed fun e => sel < 2 && e.copy < upto)
      else .next s
    | _ => .next s

/-- MODE_SWITCH: after the static drain, the mode is as MODE asked; leaving the early-read checker empties its list
(R140, R143, R278). Disabled before (log entry 7). -/
def execModeSwitch (t : Nat) (s : State) : Host.Outcome State Fault Refusal :=
  if t ≥ Config.tiles then .fault .noSuchPart
  else
    let x := s.tile t
    match x.seq.stall with
    | .modeDrain gm er =>
      if x.drained then
        .next ((s.onTile t fun x =>
          { x with sys := { x.sys with gm := gm, er := er }, seq := { x.seq with stall := .none }
                   eng := { x.eng with early := if er then x.eng.early else [] } }).settle t)
      else .next s
    | _ => .next s

/-! ### Handlers (R153, R154) -/

/-- HANDLER_ENTRY: once every issued operation has landed, the frame and the trap record are written and the handler is
entered; one whose gang was halted meanwhile is halted before the handler's first bundle (R152, R153). Disabled before
(log entry 7). -/
def execHandlerEntry (t : Nat) (s : State) : Host.Outcome State Fault Refusal :=
  if t ≥ Config.tiles then .fault .noSuchPart
  else
    let x := s.tile t
    match x.seq.phase, x.seq.trap with
    | .trapping, some r =>
      if r.disp = 1 && x.drained then
        let s := s.enterHandler t r
        .next (match x.seq.haltBy with | some u => s.haltTile t u | none => s)
      else .next s
    | _, _ => .next s

/-- The sync bundle that a frame shows a wait at, with its issue number: 1 before its arrival, 2 after it (R294). -/
def State.frameWait (s : State) (t base : Nat) : Option (Nat × Nat) :=
  let issue := readNat s.mem base 8 / 2 ^ 40 % 256
  let addrs := readNat s.mem (base + 8) 8
  let a := addrs % 2 ^ 22
  if (s.headAt t a).kind == 1 && a == addrs / 2 ^ 32 % 2 ^ 22 && (issue = 1 || issue = 2) then some (a, issue) else none

/-- What holds a task that takes up its wait at a sync bundle again: the arrival condition, or the wait; nothing where the
release has come meanwhile (R294). -/
def Tile.waitAgain (x : Tile) (issue lev : Nat) : Stall :=
  if issue = 1 then .arriving lev else match x.bar.arrived with | some n => .released n | none => .none

/-- TRET_RESUME: after its drain, TRET restores the state of the frame in rows 0 to 3 and resumes; a held trap of V1,
then of X, is taken before the next issue, at the same bundle, with the vault as it stood at its issue (R79, R154, R189).
Disabled before (log entry 7). -/
def execTretResume (t : Nat) (s : State) : Host.Outcome State Fault Refusal :=
  if t ≥ Config.tiles then .fault .noSuchPart
  else
    let x := s.tile t
    if x.seq.stall != .tretDrain || x.seq.phase != .running || !x.drained then .next s
    else
      let base := vaultAddr t 31 0
      let now := s.icc t
      let head := readNat s.mem base 8
      let addrs := readNat s.mem (base + 8) 8
      let s := s.onTile t fun x =>
        let x := resumeAt (restoreFrom x s.mem base now) s.mem base now
        { x with sys := { x.sys with hnd := false }, seq := { x.seq with snap := x.seq.under, xpHeld := none } }
      match x.seq.held with
      | [] =>
        let s := s.closeBundle t
        .next (match s.frameWait t base with
          | some (a, i) =>
            let h := s.headAt t a
            s.onTile t fun x => { x with seq := { x.seq with
              stall := x.waitAgain i h.slev.toNat, after := (postOps h t false).drop 1, last := a } }
          | none => s)
      | r :: rest =>
        let s := s.onTile t fun x =>
          { x with
            sys := { x.sys with v1p := x.sys.v1p && r.slot != 2, xp := x.sys.xp && r.slot != 7 }
            seq := { x.seq with held := rest } }
        .next (s.takeTrapAt t r (addrs % 2 ^ 22) (addrs / 2 ^ 32 % 2 ^ 22) (head / 2 ^ 40 % 256) (head / 2 ^ 33 % 2 == 1)
          x.seq.heldAt)

end Sys2Proof.Machine
end

