-- ==== Sys2Proof/Machine/Launches.lean ====
section
/-! DEFINITION. Launches as a whole: members and groups, arrivals, the ends of tasks and of launches, reports of stopped
tasks (R12, R290 to R301, R321, R331, R342 to R345). -/

namespace Sys2Proof.Machine

/-! ### Members (R12, R13) -/

/-- The role count of a launch's record, and words of the record. -/
def Launch.recWord (l : Launch) (i : Nat) : Word := l.sub.record.getD i 0
def Launch.roles (l : Launch) : Nat := ((l.recWord 0).extractLsb' 32 11).toNat + 1
def Launch.cls (l : Launch) : Nat := ((l.recWord 0).extractLsb' 51 2).toNat
def Launch.levels (l : Launch) : Nat := ((l.recWord 0).extractLsb' 53 3).toNat + 1
def Launch.checkpoints (l : Launch) : Bool := (l.recWord 0).getLsbD 49
def Launch.own (l : Launch) : BitVec 31 := (l.recWord 2).extractLsb' 0 31
def Launch.world (l : Launch) : Bool := (l.recWord 0).getLsbD 48
def Launch.podN (l : Launch) : Nat := ((l.recWord 2).extractLsb' 48 16).toNat
def Launch.podRank (l : Launch) : Nat := ((l.recWord 2).extractLsb' 32 16).toNat
def Launch.domain (l : Launch) (n : Nat) : Nat := ((l.recWord (9 + n)).extractLsb' 61 3).toNat
def Launch.scope (l : Launch) (n : Nat) : Nat := ((l.recWord (9 + n)).extractLsb' 58 3).toNat
def Launch.groupSize (l : Launch) (n : Nat) : Nat := ((l.recWord (9 + n)).extractLsb' 47 11).toNat + 1

/-- Whether a state is a final one. -/
def LState.final : LState → Bool
  | .ended | .checkpointed | .failed | .refused | .cancelled => true
  | _ => false

/-- The roles of a group. -/
def Launch.group (l : Launch) (lev group : Nat) : List Nat :=
  (List.range (l.groupSize lev)).map (group * l.groupSize lev + ·)

/-- Whether a tile runs a task of a launch, and whether it holds one's saved context. -/
def Tile.runs (x : Tile) (serial : Nat) : Bool := match x.task with | some k => k.serial == serial | none => false
def Tile.saves (x : Tile) (serial : Nat) : Bool := match x.saved with | some k => k.serial == serial | none => false

/-- The barrier state of the task of a role, running or suspended. -/
def State.roleBar (s : State) (l : Launch) (serial role : Nat) : Option Bar :=
  (l.tiles[role]?).bind fun t =>
    let x := s.tile t
    if x.runs serial then some x.bar
    else match x.saved with
      | some k => if k.serial = serial then some k.bar else none
      | none => none

/-- The state with the barrier state of a role's task changed. -/
def State.onRoleBar (s : State) (l : Launch) (serial role : Nat) (f : Bar → Bar) : State :=
  match l.tiles[role]? with
  | none => s
  | some t => s.onTile t fun x =>
      if x.runs serial then { x with bar := f x.bar }
      else { x with saved := x.saved.map fun k => if k.serial = serial then { k with bar := f k.bar } else k }

/-- Whether a role counts as arrived at a level (R292). -/
def State.hasArrived (s : State) (l : Launch) (serial lev role : Nat) : Bool :=
  l.ends.contains role || (match s.roleBar l serial role with | some b => b.arrived == some lev | none => false)

/-! ### Barriers (R290 to R293, R298) -/

/-- Whether a record of a barrier is of a group. -/
def Barrier.isOf (b : Barrier) (serial lev group : Nat) : Bool := b.serial == serial && b.lev == lev && b.group == group

/-- The state with a barrier record changed; a new one where there is none. -/
def State.onBarrier (s : State) (serial lev group : Nat) (f : Barrier → Barrier) : State :=
  if s.barriers.any (·.isOf serial lev group) then
    { s with barriers := s.barriers.map fun b => if b.isOf serial lev group then f b else b }
  else { s with barriers := s.barriers ++ [f { serial := serial, lev := lev, group := group }] }

/-- Whether a package is the root of a launch's barrier tree; a pod of one package has no other (R361, R369). -/
def Launch.root (l : Launch) : Bool := l.parent.isNone || l.podN ≤ 1

/-- A barrier of pod domain at the tree's root, which learns of the pod's last arrival as it comes, its own or another package's
(R298, R369). -/
def Barrier.learn (b : Barrier) (l : Launch) (pcc : Nat) : Barrier :=
  if l.domain b.lev = 4 && l.root && b.last.isSome && b.learned.isNone && l.podN ≤ b.heard.length + 1 then
    { b with learned := some pcc }
  else b

/-- An arrival noted: where every member of the group has arrived, the cycle of the last, which at the tree's root may be the
pod's last (R292, R293, R298, R369). -/
def State.noteArrival (s : State) (serial lev group : Nat) : State :=
  match s.launch serial with
  | none => s
  | some l =>
    let rs := l.group lev group
    let some' := rs.any fun r => match s.roleBar l serial r with | some b => b.arrived == some lev | none => false
    let done := s.barriers.any fun b => b.isOf serial lev group && b.last.isSome
    if some' && !done && rs.all (s.hasArrived l serial lev) then
      let at_ := if l.domain lev < 2 then
          (match l.tiles[rs.headD 0]? with | some t => s.icc t | none => s.pcc)
        else s.pcc
      s.onBarrier serial lev group fun b => ({ b with last := some at_ } : Barrier).learn l s.pcc
    else s

/-- The barrier state of a task at its release at a level: the epoch count, the full bits and the link interval
(R293, R305, R306, R340). -/
def Bar.release (b : Bar) (ch : List (Nat × LinkEntry)) (lev dom now : Nat) : Bar :=
  let mine := ch.filter fun e => e.2.lev ≤ lev
  { b with
    epoch := if 1 ≤ dom then b.epoch + 1 else b.epoch
    arrived := none
    full := b.full.filter fun e => mine.all fun c => c.1 != e.1
    linkAt := if mine.isEmpty then b.linkAt else now }

/-- The release of one member: a waiting one issues its next bundle on this cycle once its post-operations have acted;
the release of a stopped, suspended or resuming one is kept in its barrier state, where the interval of one that does not run is
the cycles that it has counted (R137, R292, R293, R306, R340). -/
def State.releaseRole (s : State) (l : Launch) (serial lev role : Nat) : State :=
  match l.tiles[role]? with
  | none => s
  | some t =>
    let now := s.icc t
    let chans := fun (s : State) (k : Task) => s.receives k ++ s.sends k
    let x := s.tile t
    let ch := match (if x.runs serial then x.task else x.saved) with
      | some k => chans s k
      | none => []
    let from' := if x.runs serial && x.seq.phase != .suspended && x.seq.phase != .resuming then now else 0
    let s := s.onRoleBar l serial role fun b =>
      if b.arrived = some lev then b.release ch lev (l.domain lev) from' else b
    let waits := x.runs serial && x.seq.phase == .running && x.seq.stall == .released lev
    if !waits then s
    else s.onTile t fun x =>
      { x.observed (fun _ => true) with
        seq := { x.seq with stall := .none, nextAt := now }
        task := x.task.map fun k => { k with lenient := k.lenient.filter (lev < ·) } }

/-! ### Ends of tasks and launches (R148, R292, R301, R314, R321, R331, R342, R343) -/

/-- The state without the notices for a tile's task (R333). -/
def State.voidNotices (s : State) (t : Nat) : State :=
  { s with notices := s.notices.filter (fun e => e.1 != t), delivered := s.delivered.filter fun e => e.1 != t }

/-- A tile without its task; a suspended task's context stays, and falls announced for its layers are applied (R34, R176, R179,
R336). Atomics that it has still to perform perform (R129), and notices for it are void (R333). -/
def State.releaseTile (s : State) (t : Nat) : State :=
  let s := (s.performAll t).voidNotices t
  let x := s.tile t
  s.setTile t ({ x with
    task := none, sys := { }, seq := { }, eng := { }, bar := { }, kept := none, inPlace := false, frames := false
    vault := { x.vault with keeper := false, reads := [], deficit := [], sched := 0 } } : Tile).dropFalls

/-- A launch's place in the order in which the covered launches of its session end, once it has bound (R331, R332). -/
def State.noteEnding (s : State) (serial : Nat) (l : Launch) : State :=
  if !l.sub.session.getLsbD 63 then s
  else { s with sessions := s.sessions.map fun e =>
    if e.1 = (l.sub.session.extractLsb' 32 16).toNat && e.2.bound.contains serial then
      (e.1, { e.2 with endings := e.2.endings ++ [serial] })
    else e }

/-- Whether a line of a task's own send windows is still to be delivered, whoever wrote it (R304, R335). -/
def State.windowLeft (s : State) (t : Nat) : Bool :=
  !(s.tile t).bar.marks.isEmpty || s.lines.any fun e => e.src == t

/-- Whether what a tile's task has issued has landed, performed or faulted: for a stopped task the atomics that it left to
perform; for one whose launch ends by order everything but feeds, whose FIFO may never have room and which no other reads (R129, R314,
R344). -/
def State.landedOn (s : State) (t : Nat) : Bool :=
  let x := s.tile t
  let atoms := (x.eng.atomics.all (·.stopped)) && x.eng.vatomics.all (·.stopped)
  if x.seq.ceasing then false
  else if x.seq.phase == .closing then
    x.drained && (x.eng.copies.all fun g => g.fault.isSome || g.kind == .feed) && atoms && !s.windowLeft t
  else if x.seq.phase == .stopped || x.seq.phase == .halted then x.eng.atomics.all (·.stopped)
  else true

/-- A launch that has been ordered to end, or whose tasks have all ended or stopped, takes its final state once what its tiles
have issued has landed, which is reported and logged (R380); then its tiles are released, those with frames only where it was cancelled (R314, R342 to R344). -/
def State.concludes (s : State) (serial : Nat) : State :=
  match s.launch serial with
  | none => s
  | some l =>
    match l.endsAs with
    | none => s
    | some (st, code) =>
      let mine := l.tiles.filter fun t => (s.tile t).runs serial
      if !mine.all s.landedOn then s
      else
        let s := (s.onLaunch serial fun l =>
          { l with state := st, code := if l.code = 0 then code else l.code, leftAt := some s.pcc, endsAs := none }).noteEnding serial l
        let s := s.logIt 7 (16 + st.code) serial 0
        let s := { s with barriers := s.barriers.filter fun b => b.serial != serial
                          lines := s.lines.filter fun e => e.serial != serial }
        mine.foldl (fun s t => if st == .cancelled || !(s.tile t).frames then s.releaseTile t else s) s

/-- What is left once a launch's last task has stopped, or every exit barrier has released: its final state, once what it has
issued has landed, and its tiles without frames are released (R314, R321, R342, R343). A Held launch stays Held until its owner's
order, whatever its members have stopped with (log entry 132). -/
def State.finish (s : State) (serial : Nat) : State :=
  match s.launch serial with
  | none => s
  | some l =>
    let allOut := (List.range l.roles).all fun r => l.ends.contains r || l.stops.contains r
    if l.state.final || l.endsAs.isSome || l.state = .held || !allOut
        || (l.stops.isEmpty && l.tiles.any fun t => (s.tile t).runs serial) then s
    else
      let st := if !l.stops.isEmpty then .failed else if l.ckpt then .checkpointed else LState.ended
      (s.onLaunch serial fun l => { l with endsAs := some (st, 0) }).concludes serial

/-- Whether a task of a launch has its context saved, or stays suspended in place (R336). -/
def State.parked (s : State) (serial : Nat) (l : Launch) (role : Nat) : Bool :=
  match l.tiles[role]? with
  | some t => (s.tile t).saves serial || (s.tile t).inPlace
  | none => true

/-- Whether every task of a launch is suspended, has ended or has stopped, and some task is suspended (R321). -/
def State.allParked (s : State) (serial : Nat) (l : Launch) : Bool :=
  ((List.range l.roles).all fun r => l.ends.contains r || l.stops.contains r || s.parked serial l r)
    && (List.range l.roles).any fun r => !l.ends.contains r && !l.stops.contains r && s.parked serial l r

/-- A launch whose last task has saved its context, ended or stopped is suspended, and queued again; one of which only parts
are resumed goes on resuming (R321, R342). -/
def State.settled (s : State) (serial : Nat) : State :=
  match s.launch serial with
  | none => s
  | some l =>
    if l.endsAs.isSome then s
    else if l.state == .suspending then
      if s.allParked serial l then s.onLaunch serial fun l => { l with state := .suspended } else s
    else if (l.state == .running || l.state == .ending || l.state == .resuming)
        && l.tiles.any fun t => (s.tile t).saves serial && !l.granted.contains (t / 16) then
      s.onLaunch serial fun l => { l with state := .resuming, parts := true }
    else s

/-- A role's end by END; it may be the last that a suspending launch waits for (R148, R292, R321). -/
def State.roleEnded (s : State) (serial role : Nat) : State :=
  match s.launch serial with
  | none => s
  | some l =>
    let s := s.onLaunch serial fun l =>
      { l with ends := l.ends ++ [role]
               state := if l.state = .running || (l.state = .suspending && l.ckpt) then .ending else l.state }
    let s := s.settled serial
    (List.range l.levels).foldl (fun s lev => s.noteArrival serial lev (role / l.groupSize lev)) s

/-- An abnormal end: every other member of each of the role's groups has lost it, and the dispatcher's report names it (R301). -/
def State.roleLost (s : State) (serial role : Nat) : State :=
  match s.launch serial with
  | none => s
  | some l => (List.range l.levels).foldl (fun s lev =>
      ((l.group lev (role / l.groupSize lev)).filter (· != role)).foldl (fun s r =>
        s.onRoleBar l serial r fun b => if b.lost.contains lev then b else { b with lost := b.lost ++ [lev] }) s)
      (s.onLaunch serial fun l => { l with lost := l.lost ++ [(l.podRank, role)] })

/-- Whether a task can take a notice: it runs, and has not ended or stopped. -/
def Tile.noticed (x : Tile) : Bool := x.task.isSome && (x.seq.phase.live || x.seq.phase == .trapping)

/-- A notice decided on for every task of a launch that runs (R324, R333, R342). -/
def State.decide (s : State) (serial : Nat) (l : Launch) (n : Notice) : State :=
  { s with notices := s.notices ++ (l.tiles.filter fun t => (s.tile t).runs serial && (s.tile t).noticed).map fun t => (t, n, s.pcc) }

/-- Whether a stop with a code can be restarted (R281, R342). -/
def restartable (code : Nat) : Bool := (0x20 ≤ code && code ≤ 0x26) || code == 0x28

/-- The code by which a tile's gang stopped: its own, or that of the member which halted it (R152). -/
def State.gangCode (s : State) (r : TrapRec) : Nat :=
  if r.disp = 2 then
    (match (s.tile r.req.aux).seq.trap with | some q => q.req.code | none => 0)
  else r.req.code

/-- The dispatcher hears of a stopped task: the first stopping trap is recorded; a restartable stop holds the launch, whose
other running tasks are sent a hold notice; any other is the task's abnormal end, even of a task that waits at its exit
barrier. The report of a trap of R279 carries its address and kind of access, and every report is logged (R152, R175, R279, R301,
R333, R342, R345, R380). -/
def State.reportStop (s : State) (t : Nat) (r : TrapRec) : State :=
  match (s.tile t).task with
  | none => s
  | some k =>
    let code := s.gangCode r
    let serial := k.serial
    let first := fun (l : Launch) => !l.trapped && r.req.code != 0
    let s := s.onLaunch serial fun l =>
      { l with
        stops := l.stops ++ [k.role], ends := l.ends.filter (· != k.role)
        code := if first l then r.req.code else l.code
        frole := if first l then k.role else l.frole
        trapped := l.trapped || r.req.code != 0
        faults := l.faults ++ r.req.access.toList }
    let s := s.logIt 14 r.req.code t serial
    if restartable code then
      match s.launch serial with
      | none => s
      | some l =>
        if l.state.final || l.endsAs.isSome then s
        else
          (if l.hold then s else s.decide serial l .hold).onLaunch serial fun l => { l with state := .held, hold := true }
    else ((s.roleLost serial k.role).finish serial).settled serial

/-- Whether a stopping task may write its frame: every issued operation with a static bound has landed or faulted, atomic line
regions that load nothing among them, and the vector atomic in progress has completed or faulted (R29, R150, R280). -/
def Tile.stopDrained (x : Tile) : Bool :=
  let left := x.eng.vatomics.filterMap fun a => if a.stopped || !a.started then a.flight else none
  (x.seq.flights.all fun f => x.regionFlights.contains f.id || left.contains f.id)
    && x.seq.stReads.isEmpty && x.seq.stWrites.isEmpty && x.vault.reads.all (·.written) && x.regionsDone
    && x.eng.vatomics.all fun a => a.stopped || !a.started

/-- TASK_STOP: a stopping trap writes its frame, the tile stops with its owned banks kept by the idle refresh
sequencer, the engines retain their state only for a restartable stop, and the dispatcher hears of it (R150 to R152,
R176, R280, R343). Disabled before every issued operation has landed (log entry 7). -/
def execTaskStop (t : Nat) (s : State) : Host.Outcome State Fault Refusal :=
  if t ≥ Config.tiles then .fault .noSuchPart
  else
    let x := s.tile t
    match x.seq.phase, x.seq.trap with
    | .trapping, some r =>
      if r.disp = 1 || !x.stopDrained then .next s
      else
        let keep := restartable (s.gangCode r)
        let s := (s.onTile t Tile.dropRegion).writeFrame t r
        let s := s.onTile t fun x =>
          { x with
            seq := { x.seq with phase := if r.disp = 2 then .halted else .stopped }
            vault := { x.vault with keeper := true, deficit := [] }
            frames := true
            eng := if keep then x.eng else { atomics := x.eng.atomics } }
        .next ((s.onTile t Tile.dropFalls).reportStop t r)
    | _, _ => .next s

/-! ### END (R148, R292) -/

/-- Whether every issued operation of a tile has landed, performed or faulted, dynamic ones included (R148, R335). A write unit at a
host's window has performed here once its port has accepted it, whether or not the host has acknowledged it (log entry 126). -/
def Tile.quiet (x : Tile) (now : Nat) : Bool :=
  x.drained && x.islandDone (now + 1) now && (x.eng.copies.all fun g => g.fault.isSome)
    && (x.eng.atomics.all (·.stopped)) && (x.eng.vatomics.all (·.stopped)) && x.eng.mmad.reqs.isEmpty
    && x.eng.drf.reqs.isEmpty && x.seq.faults.isEmpty

/-- END_EXIT: once every issued operation has finished, the task has ended and waits at its gang's exit barrier
(R148). Disabled before (log entry 7). -/
def execEndExit (t : Nat) (s : State) : Host.Outcome State Fault Refusal :=
  if t ≥ Config.tiles then .fault .noSuchPart
  else
    let x := s.tile t
    match x.task with
    | some k =>
      if x.seq.phase != .running || x.seq.stall != .ending then .next s
      else if x.eng.region.isSome then
        .next ((s.onTile t Tile.dropRegion).takeTrap t (trapOf 0 0x05) x.seq.last x.seq.next x.seq.lastNo false)
      else if !x.quiet (s.icc t) then .next s
      else
        let s := s.onSeq t fun q => { q with phase := .ended, stall := .exiting, nextAt := s.icc t + 3 }
        .next ((s.roleEnded k.serial k.role).finish k.serial)
    | none => .next s

/-- EXIT_BARRIER_RELEASE: when every member of a launch's gang on an island has ended, its tiles and owned banks are
released on one island cycle, three after the last end as at an island barrier (R34, R148, R292, log entry 24). Disabled before (log entry 7). -/
def execExitBarrierRelease (serial island : Nat) (s : State) : Host.Outcome State Fault Refusal :=
  if island ≥ Config.islands then .fault .noSuchPart
  else
    match s.launch serial with
    | none => .next s
    | some l =>
      let gang := (List.range l.roles).filter fun r => match l.tiles[r]? with | some t => t / 16 == island | none => false
      let here := gang.filterMap fun r => l.tiles[r]?
      if gang.isEmpty || !(gang.all l.ends.contains) || here.all (fun t => !(s.tile t).runs serial)
          || here.any (fun t => (s.tile t).runs serial && s.icc t < (s.tile t).seq.nextAt) then .next s
      else .next ((here.foldl (fun s t => if (s.tile t).runs serial then s.releaseTile t else s) s).finish serial)

end Sys2Proof.Machine
end

