-- ==== Sys2Proof/Machine/Barrier.lean ====
section
/-! DEFINITION. Arrival, release, lost members and padded links (R290 to R307, R369). -/

namespace Sys2Proof.Machine

/-! ### Arrival and release (R291 to R295) -/

/-- Whether bytes of a tile's staging meet a send window of its task (R304). -/
def Tile.sendsFrom (x : Tile) (addr n : Nat) : Bool := match x.task with
  | some k => k.windows.any fun w => meet addr n w.2.1 (64 * w.2.2)
  | none => false

/-- Whether a write that a task has issued into a send window, its own or a partner's, has still to perform, one of this very cycle
among them: its lines are marked as the cycle ends (R291, R304). -/
def State.windowWrites (s : State) (t : Nat) : Bool :=
  let x := s.tile t
  let into := fun (u addr n : Nat) => (s.tile u).sendsFrom addr n
  (x.seq.stWrites.any fun w => into w.tile w.addr w.bytes.length)
    || (x.seq.stReads.any fun r => match r.use with
        | .copyTo _ u a _ => into u a r.len
        | .xpose _ _ _ u a _ _ _ => into u a 4096
        | _ => false)
    || (x.vault.reads.any fun e => !e.written && into t e.addr 64)
    || s.counts.any fun e => e.src == t && into e.word.tile e.word.addr 16

/-- Whether a line that a task wrote is still to be delivered: one of its own send windows, or of a partner's (R291). -/
def State.linesLeft (s : State) (t : Nat) : Bool :=
  s.windowWrites t
    || ((s.tile t).bar.marks.any fun m => m.by_.contains none)
    || (s.tiles.any fun e => e.2.bar.marks.any fun m => m.by_.contains (some t))
    || s.lines.any fun e => e.writers.contains t

/-- The conditions of an arrival for a level's scope (R286, R291). A host-window write has performed once its port has accepted
it; under the scope of the system the host has acknowledged it too. -/
def State.arrivalReady (s : State) (t scope : Nat) : Bool :=
  let x := s.tile t
  x.eng.copies.isEmpty && x.eng.atomics.isEmpty && x.eng.vatomics.isEmpty && x.islandDone (s.icc t + 1) (s.icc t)
    && (scope < 2 || !s.linesLeft t) && (scope < 5 || x.eng.acks.all (·.failed))

/-- SYNC_ARRIVAL: on the first island cycle after the sync bundle's last issue on which the conditions of its level's
scope hold, arrival is signalled; a group that has lost a member traps there instead (R291, R301). Disabled before
(log entry 7). -/
def execSyncArrival (t : Nat) (s : State) : Host.Outcome State Fault Refusal :=
  if t ≥ Config.tiles then .fault .noSuchPart
  else
    let x := s.tile t
    match x.seq.stall, x.task with
    | .arriving lev, some k =>
      if x.seq.phase != .running || s.icc t ≤ x.seq.issuedAt || !s.arrivalReady t (k.scope lev) then .next s
      else if x.bar.lost.contains lev then .next (s.trapWaiting t (trapOf 0xE 0x50))
      else
        let s := s.onTile t fun x =>
          { x with seq := { x.seq with stall := .released lev }, bar := { x.bar with arrived := some lev } }
        .next (s.noteArrival k.serial lev (k.group lev))
    | _, _ => .next s

/-- A barrier whose members have all resumed is over; arrivals that have come meanwhile are the next one's (R290, R292). -/
def State.barrierDone (s : State) (serial lev group : Nat) : State :=
  { s with barriers := s.barriers.filter fun b => !b.isOf serial lev group }.noteArrival serial lev group

/-- ISLAND_BARRIER_RELEASE: a barrier of island domain releases every member three island cycles after the last
arrival, one of tile domain its task one cycle after (R293). Disabled before (log entry 7). -/
def execIslandBarrierRelease (serial lev group : Nat) (s : State) : Host.Outcome State Fault Refusal :=
  if 8 ≤ lev then .fault .noSuchPart
  else
    match s.launch serial, s.barriers.find? fun b => b.isOf serial lev group with
    | some l, some b =>
      let rs := l.group lev group
      match b.last, l.tiles[rs.headD 0]? with
      | some a, some t =>
        let wait := if l.domain lev = 0 then 1 else 3
        if 2 ≤ l.domain lev || s.icc t < a + wait then .next s
        else
          let s := rs.foldl (fun s r => s.releaseRole l serial lev r) s
          .next (s.barrierDone serial lev group)
      | _, _ => .next s
    | _, _ => .next s

/-! ### The Lamplighter (R296 to R299, R369) -/

/-- The phase of an island in a launch's snapshot, and the cycles between phases (R296, R297, R299). -/
def Launch.phaseOf (l : Launch) (island : Nat) : Nat := (l.phases.getD island 0).toNat
def Launch.spc (l : Launch) : Nat := (l.word.extractLsb' 51 8).toNat
/-- Sig(k) less the release base (R299). -/
def Launch.sigOffset (l : Launch) (k : Nat) : Nat := (7 * l.spc * k + 1) / 2

/-- Whether the package knows that every member of a barrier's group has arrived: its own, and in a pod those of the
other packages (R298, R369). -/
def Barrier.known (b : Barrier) (l : Launch) : Bool :=
  b.last.isSome && (l.domain b.lev < 4 || b.learned.isSome || l.podN == 1)

/-- The pcc cycle by which the release base of a barrier is fixed: after the last arrival, in a pod after the package learns of
it (R298). -/
def Barrier.baseBy (b : Barrier) (l : Launch) : Option Nat :=
  if l.domain b.lev = 2 then b.last.map (· + 96)
  else if l.domain b.lev = 3 then b.last.map (· + 160)
  else match b.learned with
    | some c => some (c + 160)
    | none => b.last.map (· + 560)

/-- LAMPLIGHTER_RELEASE_BASE: the release base of a group of stack, package or pod domain is fixed, after its last
arrival is known (R298). An island whose members have all ended has none to resume. Disabled before (log entry 7). -/
def execLamplighterReleaseBase (serial lev group : Nat) (s : State) : Host.Outcome State Fault Refusal :=
  if 8 ≤ lev then .fault .noSuchPart
  else
    match s.launch serial, s.barriers.find? fun b => b.isOf serial lev group with
    | some l, some b =>
      if l.domain lev < 2 || !b.known l || b.base.isSome then .next s
      else
        let islands := (((l.group lev group).filter (!l.ends.contains ·)).filterMap fun r => (l.tiles[r]?).map (· / 16)).dedup
        .next (s.onBarrier serial lev group fun b => { b with base := some s.pcc, toResume := islands })
    | _, _ => .next s

/-- LAMPLIGHTER_PHASE_SIGNAL: an island resumes from its phase's signal on: all the group's members on it issue their
next bundles on this island cycle (R299). Disabled before the signal and while the island's cycle is stretched (log
entry 7). -/
def execLamplighterPhaseSignal (serial lev group island : Nat) (s : State) : Host.Outcome State Fault Refusal :=
  if 8 ≤ lev || island ≥ Config.islands then .fault .noSuchPart
  else
    match s.launch serial, s.barriers.find? fun b => b.isOf serial lev group with
    | some l, some b =>
      match b.base with
      | none => .next s
      | some t0 =>
        if !b.toResume.contains island || (s.island island).stretch || s.pcc < t0 + l.sigOffset (l.phaseOf island) then
          .next s
        else
          let rs := (l.group lev group).filter fun r => match l.tiles[r]? with | some t => t / 16 == island | none => false
          let s := rs.foldl (fun s r => s.releaseRole l serial lev r) s
          let left := b.toResume.filter (· != island)
          .next (if left.isEmpty then s.barrierDone serial lev group
            else s.onBarrier serial lev group fun b => { b with toResume := left })
    | _, _ => .next s

/-- Trap 0x53 at every member of a group that waits at a level (R307, R369). -/
def State.cutOff (s : State) (l : Launch) (serial lev : Nat) : State :=
  l.tiles.foldl (fun s t =>
    let x := s.tile t
    if x.runs serial && (x.seq.stall == .released lev || x.seq.stall == .arriving lev) then s.found t (trapOf 0xE 0x53)
    else s) s

/-- Whether the link to the parent on a launch's barrier tree is up (R361, R368, R369). -/
def State.parentUp (s : State) (l : Launch) : Bool := match l.parent with
  | some k => l.podN ≤ 1 || (vget { } s.links k).up
  | none => true

/-- Whether a link by which the tree goes on from this package cuts it off: the one to its parent, or one by which the arrival of a
package below it has still to come (R361, R368, R369, log entry 118). -/
def State.treeCut (s : State) (l : Launch) (heard : List Nat) : Bool :=
  !s.parentUp l || (List.range l.podN).any fun r => r != l.podRank && !heard.contains r
    && (match l.routes.find? fun e => e.1 == r with
        | some (_, k, _) => l.parent != some k && !(vget { } s.links k).up
        | none => false)

/-- The packages whose arrivals a barrier has heard of. -/
def State.heardOf (s : State) (serial lev : Nat) : List Nat :=
  match s.barriers.find? fun b => b.isOf serial lev 0 with | some b => b.heard | none => []

/-- A member of another package is lost: every member of the pod's group on this one has lost it, and the dispatcher's report names
its package and role (R301, log entry 95). -/
def State.podLost (s : State) (l : Launch) (serial lev rank role : Nat) : State :=
  (List.range l.roles).foldl (fun s r =>
    s.onRoleBar l serial r fun b => if b.lost.contains lev then b else { b with lost := b.lost ++ [lev] })
    (s.onLaunch serial fun l => { l with lost := if l.lost.contains (rank, role) then l.lost else l.lost ++ [(rank, role)] })

/-- BARRIER_MESSAGE: a pod barrier's release comes down the tree, an arrival of another package comes up to this one,
or this package's own goes up; one that cannot travel, by a link of this package or, as another package tells, by one further along
the tree, raises 0x53 at the waiting members. A member of another package that has ended abnormally is lost for the level (R298,
R301, R369). Disabled for a level of another domain (log entry 7). -/
def execBarrierMessage (serial lev : Nat) (what : BarrierNews) (rank : Nat) (s : State) : Host.Outcome State Fault Refusal :=
  if 8 ≤ lev then .fault .noSuchPart
  else
    match s.launch serial with
    | none => .next s
    | some l =>
      if l.domain lev != 4 || l.levels ≤ lev then .next s
      else match what with
        | .lost role => .next (if rank = l.podRank then s else s.podLost l serial lev rank role)
        | .cut => .next (s.cutOff l serial lev)
        | .release =>
          if !s.parentUp l then .next (s.cutOff l serial lev)
          else .next (s.onBarrier serial lev 0 fun b => if b.last.isSome then { b with learned := some s.pcc } else b)
        | .arrival =>
          if rank = l.podRank then if s.treeCut l (s.heardOf serial lev) then .next (s.cutOff l serial lev) else .next s
          else .next (s.onBarrier serial lev 0 fun b =>
            ({ b with heard := if b.heard.contains rank then b.heard else b.heard ++ [rank] } : Barrier).learn l s.pcc)

/-! ### Lost members (R301) -/

/-- MEMBER_LOST_TRAP: a task that waits at a sync of a level that has lost a member takes trap 0x50 there; one whose arrival is
not signalled yet takes it at its arrival (R301). Disabled for any other (log entry 7). -/
def execMemberLostTrap (t : Nat) (s : State) : Host.Outcome State Fault Refusal :=
  if t ≥ Config.tiles then .fault .noSuchPart
  else
    let x := s.tile t
    let trap := fun (lev : Nat) => if x.bar.lost.contains lev && x.seq.phase.live then s.trapWaiting t (trapOf 0xE 0x50) else s
    match x.seq.stall with
    | .released lev => .next (trap lev)
    | _ => .next s

/-! ### Padded links (R302 to R307) -/

/-- The route of a channel: the bound of a delivery in pcc cycles, and the MX link it leaves by (R304, R368). -/
def Launch.route (l : Launch) (e : LinkEntry) (t : Nat) : Nat × Option Nat :=
  let away := match e.ranks with | some (_, r) => r != l.podRank | none => false
  if away then
    let rank := match e.ranks with | some (_, r) => r | none => 0
    match l.routes.find? fun r => r.1 == rank with
    | some (_, link, hops) => (360 + 1600 * hops, some link)
    | none => (360, some 16)
  else match l.tiles[e.rrole]? with
    | some u => (if stackOf u = stackOf t then 180 else 360, none)
    | none => (360, none)

/-- Whether a route's link is down; a route that the owner has not written has none. -/
def State.linkDown (s : State) : Option Nat → Bool
  | some k => !(vget { up := false } s.links k).up
  | none => false

/-- The marked line that a tile's link port takes next: the first marked, and of one cycle's the lowest (R304). -/
def Bar.nextMark (b : Bar) : Option Mark :=
  b.marks.foldl (fun m e => match m with
    | some f => if e.cycle < f.cycle || (e.cycle == f.cycle && e.addr < f.addr) then some e else some f
    | none => some e) none

/-- The line that a link port sends for a mark, as it stands: its tile, launch and channel, its number in the order of
acceptance, and its route (R304). -/
def State.sentLine (s : State) (t serial : Nat) (m : Mark) (seq : Nat) (r : Nat × Option Nat) : LinkLine :=
  { seq := seq, src := t, serial := serial, chan := m.chan, line := m.line, bytes := readBytes (s.tile t).st m.addr 64
    due := s.pcc + r.1, link := r.2, writers := m.by_.map fun w => w.getD t }

/-- LINK_LINE_ACCEPT: the sender's link port accepts its next marked line, at most one on an island cycle, and sends it
as it stands; over a link that is down it fails at the sender (R304, R307). Disabled for another channel than the next
line's (log entry 7). -/
def execLinkLineAccept (t chan : Nat) (s : State) : Host.Outcome State Fault Refusal :=
  if t ≥ Config.tiles then .fault .noSuchPart
  else
    let x := s.tile t
    let now := s.icc t
    match x.bar.nextMark, x.task with
    | some m, some k =>
      match s.launch k.serial, (s.channels k).find? fun e => e.1 == chan with
      | some l, some (_, e) =>
        if m.chan != chan || now < x.bar.portAt || now ≤ m.cycle then .next s
        else
          let s := s.onTile t fun x => { x with bar := { x.bar with marks := x.bar.marks.erase m, portAt := now + 1 } }
          let r := l.route e t
          if s.linkDown r.2 then .next (s.found t (trapOf 0xE 0x53))
          else
            let (id, s) := s.fresh
            .next { s with lines := s.lines ++ [s.sentLine t k.serial m id r] }
      | _, _ => .next s
    | _, _ => .next s

/-- The tile and window base of the channel that a line is for, when its receiver is on this package and not suspended
(R304, R338). -/
def State.lineTarget (s : State) (e : LinkLine) : Option (Nat × Nat) :=
  (s.launch e.serial).bind fun l =>
    l.tiles.findSome? fun t =>
      let x := s.tile t
      match x.task with
      | some k => if k.serial = e.serial && x.seq.phase != .suspended then
          ((s.receives k).find? fun c => c.1 == e.chan).map fun c => (t, c.2.rbase)
        else none
      | none => none

/-- Whether a line's receiver waits suspended, its context saved or in its place: the link holds the line until it has resumed
(R336, R338). -/
def State.lineWaits (s : State) (e : LinkLine) : Bool :=
  match s.launch e.serial with
  | none => false
  | some l => l.tiles.any fun t =>
      let x := s.tile t
      let mine := fun (k : Task) => k.serial == e.serial && (s.receives k).any fun c => c.1 == e.chan
      (match x.saved with | some k => mine k | none => false)
        || (x.seq.phase == .suspended && (match x.task with | some k => mine k | none => false))

/-- A delivered line is written into its receive window, and its full bit is set (R304, R305). -/
def State.landLine (s : State) (e : Landing) : State :=
  s.onTile e.tile fun x =>
    let x := x.stageBy (s.icc e.tile) e.addr e.line.bytes []
    let k := (e.line.chan, e.line.line)
    { x with bar := { x.bar with full := if x.bar.full.contains k then x.bar.full else x.bar.full ++ [k] } }

/-- LINK_LINE_DELIVERY: a line is delivered on this cycle: it is written into its receive window, whose full bit is set, after
every other write of the cycle (`State.endCycle`); lines of one channel arrive in the order in which they were accepted. A line for
another package leaves this one, and one whose receiver has left its tile is written nowhere (log entry 119). Disabled while the
receiver is suspended (R304, R305, R338, log entry 7). -/
def execLinkLineDelivery (seq : Nat) (s : State) : Host.Outcome State Fault Refusal :=
  match s.lines.find? fun e => e.seq == seq with
  | none => .next s
  | some e =>
    if s.linkDown e.link || s.lines.any fun f => f.seq < seq && f.serial == e.serial && f.chan == e.chan then .next s
    else
      let s' := { s with lines := s.lines.filter fun f => f.seq != seq }
      if e.link.isSome then .next s'
      else match s.lineTarget e with
        | none => .next (if s.lineWaits e then s else s')
        | some (t, base) =>
          .next { s' with landings := s'.landings ++ [{ tile := t, addr := base + 64 * e.line, line := e }] }

/-- LINK_DELIVERY_FAILURE: a line held on a link that is down fails with 0x53 at its sender on the next island cycle
(R307, R368). Disabled for any other (log entry 7). -/
def execLinkDeliveryFailure (seq : Nat) (s : State) : Host.Outcome State Fault Refusal :=
  match s.lines.find? fun e => e.seq == seq with
  | none => .next s
  | some e =>
    if !s.linkDown e.link then .next s
    else
      let s := { s with lines := s.lines.filter fun f => f.seq != seq }
      .next (if e.src < Config.tiles then s.found e.src (trapOf 0xE 0x53) else s)

/-- LINK_SYNC_INTERVAL_EXPIRY: 65,536 island cycles after its start or its last release at a channel's level or a wider
one, a task with a channel takes trap 0x52. Disabled before (R306, log entry 7). -/
def execLinkSyncIntervalExpiry (t : Nat) (s : State) : Host.Outcome State Fault Refusal :=
  if t ≥ Config.tiles then .fault .noSuchPart
  else
    let x := s.tile t
    match x.task with
    | some k =>
      let any' := !(s.receives k).isEmpty || !(s.sends k).isEmpty
      if any' && x.seq.counts && 65536 ≤ s.icc t - x.bar.linkAt then .next (s.trapWaiting t (trapOf 0xE 0x52)) else .next s
    | none => .next s

end Sys2Proof.Machine
end

