-- ==== Sys2Proof/Machine/Crypto.lean ====
section
/-! DEFINITION. The digest of the defect map (R374): SHAKE256, by FIPS 202 (log entry 8). -/

namespace Sys2Proof.Machine

/-- The 1,600 bits of a sponge, 64 for each place of a five by five sheet. -/
abbrev Sponge := BitVec 1600

/-- The word at a column and a row of the sheet, both taken modulo 5. -/
def Sponge.at (s : Sponge) (col row : Nat) : Word := s.extractLsb' (64 * (col % 5 + 5 * (row % 5))) 64

/-- A word alone at its place of the sheet. -/
def Sponge.only (col row : Nat) (w : Word) : Sponge := w.setWidth 1600 <<< (64 * (col % 5 + 5 * (row % 5)))

/-- The sheet with each place filled by a rule. -/
def Sponge.build (f : Nat → Nat → Word) : Sponge :=
  (List.range 5).foldl (fun s row => (List.range 5).foldl (fun s col => s ||| Sponge.only col row (f col row)) s) 0

/-- The parity of a column. -/
def Sponge.parity (s : Sponge) (col : Nat) : Word := (List.range 5).foldl (fun w row => w ^^^ s.at col row) 0

/-- The θ step: the parities of the columns on both sides, the right one turned by a bit. -/
def Sponge.mixColumns (s : Sponge) : Sponge :=
  let p := (List.range 5).map s.parity
  let d := (List.range 5).map fun col => p.getD ((col + 4) % 5) 0 ^^^ (p.getD ((col + 1) % 5) 0).rotateLeft 1
  s ^^^ Sponge.build fun col _ => d.getD col 0

/-- The ρ and π steps along their one tour of the sheet from column 1, row 0: the t-th word met turns by the t-th
triangular number and moves to the next place of the tour. The word at column 0, row 0 stays. -/
def Sponge.tour (s : Sponge) : Nat → Nat → Nat → Nat → Sponge
  | 0, _, _, _ => Sponge.only 0 0 (s.at 0 0)
  | left + 1, t, col, row =>
    let on := 2 * col + 3 * row
    Sponge.only row on ((s.at col row).rotateLeft (t * (t + 1) / 2 % 64)) ||| s.tour left (t + 1) row (on % 5)

/-- The χ step: along each row. -/
def Sponge.mixRows (s : Sponge) : Sponge :=
  Sponge.build fun col row => s.at col row ^^^ (s.at (col + 2) row &&& ~~~(s.at (col + 1) row))

/-- The shift register of the ι step, stepped once. -/
def shiftOnce (r : Nat) : Nat := if 128 ≤ r then 2 * r ^^^ 0x171 else 2 * r

/-- The word that a round adds at column 0, row 0: seven bits of the register, at places 0, 1, 3, 7, 15, 31, 63; and the
register after them. -/
def roundWord (r : Nat) : Word × Nat :=
  (List.range 7).foldl (fun p j => (if p.2 % 2 = 1 then p.1 ||| BitVec.twoPow 64 (2 ^ j - 1) else p.1, shiftOnce p.2)) (0, r)

/-- Rounds of the permutation, from a content of the register on. -/
def Sponge.rounds : Nat → Nat → Sponge → Sponge
  | 0, _, s => s
  | n + 1, r, s =>
    let k := roundWord r
    Sponge.rounds n k.2 ((s.mixColumns.tour 24 1 1 0).mixRows ^^^ Sponge.only 0 0 k.1)

/-- Whole blocks of 136 bytes taken in, each followed by the 24 rounds. -/
def Sponge.absorb : Nat → List Byte → Sponge → Sponge
  | 0, _, s => s
  | n + 1, m, s => Sponge.absorb n (m.drop 136) (Sponge.rounds 24 1 (s ^^^ BitVec.ofNat 1600 (leNat (m.take 136))))

/-- The first 136 bytes of the SHAKE256 of a message, as a number, the first byte lowest: the message, the bits 1111 and the
padding from a 1 to a 1 at the end of a block. -/
def shake256 (m : List Byte) : Nat :=
  let n := m.length / 136 + 1
  let rest := leNat (m.drop (136 * (n - 1))) ||| 0x1F * 256 ^ (m.length % 136) ||| 2 ^ 1087
  let whole := m.take (136 * (n - 1))
  (Sponge.rounds 24 1 (Sponge.absorb (n - 1) whole 0 ^^^ BitVec.ofNat 1600 rest)).toNat % 2 ^ 1088

/-- Whether a tile is disabled in the defect map: found bad, or with a failed vault (R374). -/
def State.disabled (s : State) (t : Nat) : Bool := s.badTiles.contains t || s.badVaults.contains t

/-- The bytes of the defect map: disabled tiles, failed vaults, bad MX links (R374). -/
def State.defectMap (s : State) : List Byte :=
  let bits := s.badTiles ++ s.badVaults ++ s.badVaults.map (1536 + ·) ++ s.badLinks.map (3072 + ·)
  leBytes 386 (bits.foldl (fun n k => n ||| 2 ^ k) 0)

/-- The defect-map signature: the first 8 bytes of the map's digest (R374). -/
def State.signature (s : State) : Word := BitVec.ofNat 64 (shake256 s.defectMap)

end Sys2Proof.Machine
end

