-- ==== Sys2Proof/Machine/Acceptance.lean ====
section
/-! DEFINITION. Submissions and what they name: images, parameter blocks, the timed table, trace sessions, and the
checks of acceptance (R14 to R24, R302, R303, R318 to R320, R327 to R332). -/

namespace Sys2Proof.Machine

/-! ### Commands (R357) -/

/-- The owner against which commands are checked, and whether it has secure rights: on a cycle on which the owner
changes, the one as the cycle began (R381). -/
def State.commander (s : State) : Option Nat :=
  match s.ownerWas with
  | some (c, o, _) => if c = s.pcc then o else s.owner
  | none => s.owner
def State.rights (s : State) : Bool :=
  match s.ownerWas with
  | some (c, _, sec) => if c = s.pcc then sec else s.ownerSecure
  | none => s.ownerSecure

/-- Whether a port can bring a message that authenticates: its link is up and a session key is agreed (R355, R359). -/
def State.heard (s : State) (port : Nat) : Bool := (vget { } s.ports port).up && (vget { } s.ports port).session.isSome

/-- Whether a port's session is secure: its node has secure rights, and the port's world is the secure one (R356, R360,
R361, log entry 90). -/
def State.secureSession (s : State) (port : Nat) : Bool := s.rights && (vget { } s.ports port).secure

/-- A command of a port: one outside a session is discarded and counted; the owner's, while the package is up, is carried
out; another's is refused and reported to both nodes (R357, R359, R381). -/
def State.asOwner (s : State) (port : Nat) (f : State → State) : State :=
  if s.boot != .ready then s
  else if !s.heard port then s.logIt 5 3 port 0
  else if s.commander = some port then f s
  else ((s.logIt 5 1 port 0).tell port (.refused 0)).tell (1 - port) (.warning 5 port)

/-- A message refused, with a code, to the port that sent it. -/
def State.refuseTo (s : State) (port code : Nat) : State := (s.logIt 6 code port 0).tell port (.refused code)

/-- A command done. -/
def State.doneTo (s : State) (port : Nat) : State := s.tell port .done

/-- A command whose completion is reported: the report is logged too (R360, R361, R380). -/
def State.reportDone (s : State) (port : Nat) : State := (s.logIt 6 0 port 0).doneTo port

/-! ### Checks of a launch record (R14 to R21) -/

/-- Bits hi to lo of a word, as a number. -/
def bitsOf (w : Word) (hi lo : Nat) : Nat := w.toNat / 2 ^ lo % 2 ^ (hi - lo + 1)

/-- The words of a record from LV0 on, for the levels it uses. -/
def Launch.used (l : Launch) : List Nat := List.range l.levels

/-- A record that is malformed: its length, its version, a reserved bit, or an unused level that is not zero
(R14 to R20, R319). -/
def Launch.malformed (l : Launch) : Bool :=
  l.sub.record.length != 17 || bitsOf (l.recWord 0) 63 56 != 1 || bitsOf (l.recWord 0) 47 43 != 0
    || bitsOf (l.recWord 1) 37 0 != 0 || bitsOf (l.recWord 4) 63 32 != 0
    || ([5, 6, 7, 8].any fun k => bitsOf (l.recWord k) 42 32 != 0)
    || (l.used.any fun k => bitsOf (l.recWord (9 + k)) 46 0 != 0)
    || ((List.range 8).any fun k => l.levels ≤ k && l.recWord (9 + k) != 0)
    || bitsOf l.sub.root 63 52 != 0 || bitsOf l.sub.root 7 0 != 0
    || bitsOf l.sub.param 31 20 != 0 || bitsOf l.sub.param 5 0 != 0
    || bitsOf l.sub.session 62 48 != 0 || bitsOf l.sub.session 31 0 != 0

/-- The largest group that a domain admits (R21). -/
def domainLimit (d : Nat) : Nat := if d = 0 then 1 else if d = 1 then 16 else if d = 2 then 384 else 1536

/-- Levels, role count or pod placement that the loader refuses (R15, R17, R20, R21). -/
def Launch.badLevels (l : Launch) : Bool :=
  let d := l.domain
  let z := l.groupSize
  let last := l.levels - 1
  1536 < l.roles || l.podN == 0 || l.podN ≤ l.podRank || (l.podN != 1 && d last != 4) || z last != l.roles
    || l.used.any fun k =>
      4 < d k || 5 < l.scope k || l.scope k < d k || (l.scope k == 5 && d k < 3) || domainLimit (d k) < z k
        || (d k == 4 && k != last)
        || (k != 0 && (d k < d (k - 1) || z k ≤ z (k - 1) || z k % z (k - 1) != 0))

/-- A lease outside the range of its class, or one that names b31 (R17, R18). -/
def Launch.badLease (l : Launch) : Bool :=
  (l.recWord 2).getLsbD 31 || (2 ≤ l.cls && 2 ^ 23 ≤ l.own.toNat)

/-- Base, size and occupancy of a deferral queue's region, in bytes (R19). -/
def Launch.queueRegion (l : Launch) (k : Nat) : Nat × Nat × Nat :=
  let w := l.recWord (5 + k)
  (bitsOf w 63 54 * 1024, bitsOf w 53 43 * 1024, bitsOf w 31 0)

/-- Queue declarations that exceed a depth or a region (R19). -/
def Launch.badQueues (l : Launch) : Bool :=
  let r := l.queueRegion
  ((List.range 4).any fun q => 4096 < bitsOf (l.recWord 3) (16 * q + 15) (16 * q))
    || ((List.range 2).any fun f => 4096 < bitsOf (l.recWord 4) (16 * f + 15) (16 * f))
    || (List.range 4).any fun k =>
      (r k).2.1 < (r k).2.2 || 0x100000 < (r k).2.1 || ((r k).2.1 != 0 && 0x100000 < (r k).1 + (r k).2.1)
        || (List.range k).any fun j => (r j).2.1 != 0 && (r k).2.1 != 0 && meet (r j).1 (r j).2.1 (r k).1 (r k).2.1

/-- Yield and re-plan intervals out of range (R16). -/
def Launch.badYield (l : Launch) : Bool := let n := bitsOf (l.recWord 1) 63 48; n == 0 || 32768 < n
def Launch.badReplan (l : Launch) : Bool := let n := bitsOf (l.recWord 1) 47 38; n == 0 || 1000 < n

/-! ### Checks against a variant (R22, R23, R302, R303) -/

/-- The image that a launch names. -/
def State.imageOf (s : State) (l : Launch) : Option Image := find (bitsOf (l.recWord 0) 31 0) s.images

/-- The variant whose key is the signature, with its index (R22). -/
def State.selected (s : State) (l : Launch) : Option (Nat × Variant) :=
  let sig := s.signature
  (s.imageOf l).bind fun im =>
    ((List.range im.variants.length).zip im.variants).find? fun e => e.2.key == sig

/-- Tiles of a variant's binding table, by role (R23). -/
def tilesOf (v : Variant) : List Nat := v.table.map fun e => e.toNat % 2048

/-- The unit of a domain within which a group lies (R23). -/
def domainUnit (d t : Nat) : Nat := if d = 0 then t else if d = 1 then t / 16 else if d = 2 then t / 384 else 0

/-- A binding table that the loader refuses (R23). -/
def Launch.badTable (l : Launch) (v : Variant) : Bool :=
  let ts := tilesOf v
  v.table.length != l.roles || (v.table.any fun e => 2048 ≤ e.toNat) || (ts.any (Config.tiles ≤ ·)) || !ts.Nodup
    || l.used.any fun k => (List.range l.roles).any fun r =>
      domainUnit (l.domain k) (ts.getD r 0) != domainUnit (l.domain k) (ts.getD (r / l.groupSize k * l.groupSize k) 0)

/-- The windows of this package's tiles that an entry names: tile's role, base, bytes, and whether it sends. -/
def Launch.windowsOf (l : Launch) (e : LinkEntry) : List (Nat × Nat × Nat × Bool) :=
  let mine := fun (k : Nat × Nat → Nat) => match e.ranks with | some r => k r == l.podRank | none => true
  (if mine (·.1) then [(e.srole, e.sbase, 64 * e.lines, true)] else [])
    ++ (if mine (·.2) then [(e.rrole, e.rbase, 64 * e.lines, false)] else [])

/-- An entry of a link table that the loader refuses; one between two roles of another package is checked for form only, and
not against this package's binding (R302, R303). -/
def Launch.badLink (l : Launch) (ts : List Nat) (e : LinkEntry) : Bool :=
  let d := l.domain e.lev
  let z := l.groupSize e.lev
  let near := match e.ranks with | some r => r.1 == l.podRank && r.2 == l.podRank | none => true
  e.rsv || l.roles ≤ e.srole || l.roles ≤ e.rrole
    || (near && ts.getD e.srole 0 / 16 == ts.getD e.rrole 0 / 16)
    || l.levels ≤ e.lev || d < 2 || (e.srole / z != e.rrole / z)
    || (match e.ranks with | some r => d != 4 || l.podN ≤ r.1 || l.podN ≤ r.2 | none => false)
    || 0x100000 < e.sbase + 64 * e.lines || 0x100000 < e.rbase + 64 * e.lines

/-- A link table that the loader refuses (R302, R303). -/
def Launch.badLinks (l : Launch) (v : Variant) : Bool :=
  match v.links with
  | [] => false
  | w :: r =>
    let es := parseEntries r
    let ws := es.flatMap l.windowsOf
    let n := fun (t : Nat) (send : Bool) => (ws.filter fun x => x.1 == t && x.2.2.2 == send).length
    bitsOf w 63 32 != 0 || 1024 < w.toNat || bitsOf w 31 0 != es.length
      || (es.any (l.badLink (tilesOf v)))
      || (ws.any fun x => 4 < n x.1 x.2.2.2)
      || (List.range ws.length).any fun i => (List.range i).any fun j =>
        let a := ws.getD i (0, 0, 0, false)
        let b := ws.getD j (0, 0, 0, false)
        a.1 == b.1 && meet a.2.1 a.2.2.1 b.2.1 b.2.2.1

/-- The refusal codes that depend on the variant, made at acceptance and again at binding (R22, R23, R320). The field
disp is ignored for classes 0 and 1, and so is its check (R15). -/
def State.variantCodes (s : State) (l : Launch) : List Nat :=
  if (s.imageOf l).isNone then []
  else match s.selected l with
    | none => [0x01]
    | some (_, v) =>
      let ts := (tilesOf v).filter (· < Config.tiles)
      (if l.badTable v || l.badLinks v then [0x04] else [])
        ++ (if ts.any s.disabled then [0x09] else [])
        ++ (if ts.any fun t => (s.tile t).secure != l.world then [0x0A] else [])
        ++ (if l.checkpoints && 2 ≤ l.cls && v.ckpt == 0 then [0x0F] else [])

/-! ### Sessions and parameter blocks (R327, R330 to R332) -/

/-- The session number that a submission names. -/
def Launch.sessionNo (l : Launch) : Option Nat :=
  if l.sub.session.getLsbD 63 then some (bitsOf l.sub.session 47 32) else none
/-- The session that a submission names, if it is open: a launch that names one that is not is covered by none (R330, log
entry 129). -/
def State.sessionOf (s : State) (l : Launch) : Option (Nat × Session) :=
  l.sessionNo.bind fun n => (find n s.sessions).bind fun e => if e.opened then some (n, e) else none

/-- A trace entry: sequence, ends, variant, class, image and parameter version (R331). -/
def traceClass (e : Word × Word) : Nat := bitsOf e.1 15 14
def traceImage (e : Word × Word) : Nat := bitsOf e.2 63 32

/-- The session that replays a launch, and the trace entry it comes to (R332). -/
def State.replaying (s : State) (l : Launch) : Option (Nat × Session × Option (Word × Word)) :=
  (s.sessionOf l).bind fun e =>
    if e.2.replay && !e.2.broken then some (e.1, e.2, e.2.trace[e.2.matched]?) else none

/-- A launch that does not agree with the trace entry it comes to (R332). -/
def State.mismatch (s : State) (l : Launch) : Bool :=
  match s.replaying l with
  | none => false
  | some (_, _, none) => true
  | some (_, _, some e) => traceClass e != l.cls || traceImage e != bitsOf (l.recWord 0) 31 0

/-- The parameter block of a launch. -/
def Launch.blockNo (l : Launch) : Nat := bitsOf l.sub.param 63 32
def Launch.blockBase (l : Launch) : Nat := bitsOf l.sub.param 19 6 * 64
def State.blockOf (s : State) (l : Launch) : Option ParamBlock := find l.blockNo s.params

/-- The version of a block for a launch accepted now: a patch completed on this very cycle is for later launches (R327). -/
def ParamBlock.versionAt (b : ParamBlock) (pcc : Nat) : Nat :=
  match b.patched with | some (c, v) => if c = pcc then v else b.current | none => b.current

/-- The version that a launch binds: its trace entry's, its session's, or the current one, also of a block that was created after
the session opened (R327, R332, log entry 131). -/
def State.versionFor (s : State) (l : Launch) : Nat :=
  let now := match s.blockOf l with | some b => b.versionAt s.pcc | none => 0
  match s.replaying l, s.sessionOf l with
  | some (_, _, some e), _ => bitsOf e.2 31 0
  | _, some (_, e) => look now l.blockNo e.versions
  | _, none => now

/-- Bytes of the version that a launch binds; none of a recorded version that is kept no longer (log entry 130). -/
def State.blockBytes (s : State) (l : Launch) : List Byte :=
  match s.blockOf l with
  | some b => look [] l.pver b.versions
  | none => []

/-! ### Acceptance (R318 to R320) -/

/-- Whether a dispatcher has an entry that a class can use: of 1,024, 64 are for class 0 alone. A launch has an entry
while it is queued, suspending, suspended or resuming (R318). -/
def State.hasEntry (s : State) (disp cls : Nat) : Bool :=
  let es := s.launches.filter fun e => e.2.disp == disp
    && (e.2.state == .queued || e.2.state == .suspending || e.2.state == .suspended || e.2.state == .resuming)
  es.length < 1024 && (cls == 0 || (es.filter fun e => e.2.cls != 0).length < 960)

/-- Every refusal code that applies to a submission (R24, R320). -/
def State.acceptCodes (s : State) (l : Launch) : List Nat :=
  let on := fun (b : Bool) (c : Nat) => if b then [c] else []
  s.variantCodes l ++ on l.malformed 0x02 ++ on l.badLevels 0x03 ++ on l.badLease 0x05 ++ on l.badQueues 0x06
    ++ on l.badYield 0x07 ++ on l.badReplan 0x08 ++ on (s.imageOf l).isNone 0x0B
    ++ on (!s.hasEntry l.disp l.cls) 0x0C
    ++ on (l.blockNo != 0 && (match s.blockOf l with
        | none => true
        | some _ => l.pver == 0 || 0x100000 < l.blockBase + (s.blockBytes l).length)) 0x0D
    ++ on (l.sub.root.toNat % 65536 != 0
        || !(s.regionHas none 0 (l.sub.root.toNat % 2 ^ 52 / 65536) 61
          || s.regionHas none 1 (l.sub.root.toNat % 2 ^ 52 / 65536) 61)) 0x0E
    ++ on (s.mismatch l) 0x10

/-- The lowest of some codes; 0 for none. -/
def lowest (cs : List Nat) : Nat := cs.foldl (fun m c => if m = 0 || c < m then c else m) 0

/-- A launch that does not agree with its trace ends the replay of its session (R332). -/
def State.breakReplay (s : State) (l : Launch) : State :=
  match l.sessionNo with
  | some n => { s with sessions := s.sessions.map fun e => if e.1 = n then (n, { e.2 with broken := true }) else e }
  | none => s

/-- A launch refused at its submission, with the lowest code that applies (R24, R320, R332). -/
def State.turnAway (s : State) (serial : Nat) (l : Launch) (code : Nat) : State :=
  let s := if code = 0x10 then s.breakReplay l else s
  ({ s with launches := insertAt serial { l with state := .refused, code := code, leftAt := some s.pcc } s.launches }
    |>.logIt 7 code serial 0).tell l.port (.refused code)

/-- A launch queued; one that a replay covers is matched to its trace entry (R320, R332). -/
def State.enqueue (s : State) (serial : Nat) (l : Launch) : State :=
  let l := { l with variant := match s.selected l with | some e => e.1 | none => 0 }
  match s.replaying l with
  | some (n, e, some _) =>
    { s with
      sessions := insertAt n { e with matched := e.matched + 1 } s.sessions
      launches := insertAt serial { l with seqNo := some e.matched } s.launches }
  | _ => { s with launches := insertAt serial l s.launches }

/-- SUBMISSION and the firing of a timed entry, whose start time is the launch's start tick: the launch takes the next serial
and is queued or refused (R24, R318 to R320, R327, R329). -/
def State.submit (s : State) (port disp : Nat) (sub : Submission) (start : Option Nat) : State :=
  let l : Launch := { sub := sub, disp := disp, age := s.pcc, port := port, start := start }
  let l := { l with pver := s.versionFor l }
  let code := lowest (s.acceptCodes l)
  let s' := { s with serial := s.serial + 1 }.tell port (.serial s.serial)
  if code = 0 then s'.enqueue s.serial l else s'.turnAway s.serial l code

/-- SUBMISSION: R319, R320. -/
def execSubmission (port disp : Nat) (sub : Submission) (s : State) : Host.Outcome State Fault Refusal :=
  if 2 ≤ port || 4 ≤ disp then .fault .noSuchPart
  else .next (s.asOwner port fun s => s.submit port disp sub none)

/-! ### Images and parameter blocks -/

/-- Whether a code address is the g1 bundle of a function-entry line with target bit 33 set, in code given as granules: a bundle
begins there, as start bit 49 says (R22, R36, R341). -/
def isEntryOf (code : List Word) (a : Nat) : Bool :=
  let h := LineHeader.ofBits (code.getD (a / 8 - 1) 0)
  a % 128 == 8 && a / 8 < code.length && h.fentry && h.start.getLsbD 1 && h.target.getLsbD 1

/-- Whether the loader takes a variant: one to three schedules, one for class H, and valid entries in each
(R22, R181, R320). -/
def variantOk (v : Variant) : Bool :=
  1 ≤ v.scheds.length && v.scheds.length ≤ 3 && (v.scheds.any fun p => p.1 == 2)
    && v.scheds.all fun p => p.1 < 3 && p.2.length * 8 ≤ Config.codeBytes && isEntryOf p.2 v.start
      && (v.ckpt == 0 || isEntryOf p.2 v.ckpt)

/-- IMAGE_LOAD: an image is loaded under the handle that the loader issues, which no loaded image has, or refused with
load status 0x01 (R22, R320), also one without variants (log entry 134). Disabled for a handle in use (log entry 7). -/
def execImageLoad (port handle : Nat) (img : Image) (s : State) : Host.Outcome State Fault Refusal :=
  if 2 ≤ port then .fault .noSuchPart
  else .next (s.asOwner port fun s =>
    if (find handle s.images).isSome then s
    else if img.variants.isEmpty || !img.variants.all variantOk then s.refuseTo port 0x01
    else ({ s with images := insertAt handle img s.images }).tell port (.serial handle))

/-- The versions of a block that something is bound to: its current one, those of launches not at their end, and those
of open sessions (R327). -/
def State.keptVersions (s : State) (handle : Nat) (b : ParamBlock) : ParamBlock :=
  { b with versions := b.versions.filter fun e =>
      e.1 == b.current || (match b.patched with | some p => p.2 == e.1 | none => false)
        || (s.launches.any fun l => l.2.blockNo == handle && l.2.pver == e.1 && !l.2.state.final)
        || s.sessions.any fun x => x.2.opened && (look 0 handle x.2.versions == e.1
            || x.2.trace.any fun w => bitsOf w.2 31 0 == e.1) }

/-- PARAM_BLOCK_PATCH: a block of 64 bytes to 64 KiB is created, or patched, with a new version current (R327). Another size, or
handle 0, is refused with 0x0D (log entry 134). -/
def execParamBlockPatch (port handle : Nat) (bytes : List Byte) (s : State) : Host.Outcome State Fault Refusal :=
  if 2 ≤ port then .fault .noSuchPart
  else .next (s.asOwner port fun s =>
    if bytes.length < 64 || 65536 < bytes.length || handle = 0 then s.refuseTo port 0x0D
    else
      let b := (find handle s.params).getD { current := 0, versions := [] }
      let n := b.current + 1
      let was := match b.patched with | some (c, v) => if c = s.pcc then v else b.current | none => b.current
      ({ s with params := insertAt handle (s.keptVersions handle
          { current := n, versions := insertAt n bytes b.versions, patched := some (s.pcc, was) }) s.params }).doneTo port)

/-! ### The timed table (R328, R329) -/

/-- Fields of a timed entry. -/
def entryStart (e : Word × Word) : Nat := bitsOf e.1 63 30 * 1000000000 + bitsOf e.1 29 0
def entryPeriod (e : Word × Word) : Nat := bitsOf e.2 61 32 * 1000
def entryReps (e : Word × Word) : Nat := bitsOf e.2 31 16
def entrySlot (e : Word × Word) : Nat := bitsOf e.2 7 0

/-- An entry without its reserved bits (R2). -/
def entryOf (e : Word × Word) : Word × Word := (e.1, e.2 &&& 0xBFFFFFFFFFFF00FF)

/-- TIMED_TABLE_WRITE: an entry, a descriptor slot or both are written; an entry made valid with an invalid or a past
start time is refused and stays (R328). -/
def execTimedTableWrite (port disp index : Nat) (entry : Option (Word × Word)) (slot : Option Submission) (s : State) :
    Host.Outcome State Fault Refusal :=
  if 2 ≤ port || 4 ≤ disp then .fault .noSuchPart
  else .next (s.asOwner port fun s =>
    let s := match slot with
      | some x => if index < 256 then { s with slots := insertAt (disp * 256 + index) x s.slots } else s.refuseTo port 0
      | none => s
    match entry with
    | none => s
    | some e =>
      let e := entryOf e
      if 512 ≤ index || (e.2.getLsbD 63 && (1000000000 ≤ bitsOf e.1 29 0 || entryStart e < s.ptpNs)) then
        s.refuseTo port 0
      else { s with timed := insertAt (disp * 512 + index) e s.timed })

/-- A start time as a word of an entry (R328). -/
def startWord (n : Nat) : Word := BitVec.ofNat 64 (n / 1000000000 * 2 ^ 30 + n % 1000000000)

/-- An entry after a firing: invalid if it does not repeat, else its next start past the time, and one repeat less
(R329). -/
def entryFired (e : Word × Word) (now : Nat) : Word × Word :=
  let p := entryPeriod e
  if p = 0 then (e.1, e.2 &&& 0x7FFFFFFFFFFFFFFF)
  else
    let start := entryStart e
    let next := start + ((now - start) / p + 1) * p
    let reps := entryReps e
    let w := if reps = 0 then e.2
      else if reps = 1 then e.2 &&& 0xC00000000000FFFF
      else (e.2 &&& 0xFFFFFFFF0000FFFF) ||| BitVec.ofNat 64 ((reps - 1) * 65536)
    (startWord next, w)

/-- Whether a timed entry fires: valid, with its start time reached. -/
def State.entryDue (s : State) (disp index : Nat) : Bool :=
  match find (disp * 512 + index) s.timed with
  | some e => e.2.getLsbD 63 && entryStart e ≤ s.ptpNs
  | none => false

/-- TIMED_ENTRY_FIRE: an entry whose start time is reached submits its slot, and advances (R329). A slot that nothing
has written holds zeros, which the checks of R320 refuse. Disabled before (log entry 7). -/
def execTimedEntryFire (disp index : Nat) (s : State) : Host.Outcome State Fault Refusal :=
  if 4 ≤ disp || 512 ≤ index then .fault .noSuchPart
  else if s.boot != .ready || !s.entryDue disp index then .next s
  else match find (disp * 512 + index) s.timed with
    | none => .next s
    | some e =>
      let sub := look { record := List.replicate 17 0, root := 0, param := 0, session := 0 } (disp * 256 + entrySlot e) s.slots
      let s := { s with timed := insertAt (disp * 512 + index) (entryFired e s.ptpNs) s.timed }
      .next (s.submit (s.owner.getD 0) disp sub (some (entryStart e)))

/-! ### Sessions (R330) -/

/-- The order in which the launches of a recorded session ended, by their places in its trace; a replay keeps the one that it
replays (R331, R332). -/
def Session.ended (e : Session) : List Nat := if e.replay then e.order else e.endings.map fun x => e.bound.idxOf x

/-- SESSION_OPEN: a session opens to record, with an empty trace, or to replay the trace and the end order that stand under its
number; the block versions current now are those that its launches bind (R327, R330 to R332). -/
def execSessionOpen (port num : Nat) (replay : Bool) (s : State) : Host.Outcome State Fault Refusal :=
  if 2 ≤ port then .fault .noSuchPart
  else .next (s.asOwner port fun s =>
    let old := find num s.sessions
    if (match old with | some e => e.opened | none => false) then s.refuseTo port 0
    else
      let versions := s.params.map fun e => (e.1, e.2.current)
      let new : Session := { replay := replay, versions := versions }
      let e := match replay, old with
        | true, some o => { new with trace := o.trace, order := o.ended }
        | _, _ => new
      ({ s with sessions := insertAt num e s.sessions }).doneTo port)

/-- SESSION_CLOSE: a session closes; its trace stays (R330). -/
def execSessionClose (port num : Nat) (s : State) : Host.Outcome State Fault Refusal :=
  if 2 ≤ port then .fault .noSuchPart
  else .next (s.asOwner port fun s =>
    match find num s.sessions with
    | some e => ({ s with sessions := insertAt num { e with opened := false } s.sessions }).doneTo port
    | none => s.refuseTo port 0)

end Sys2Proof.Machine
end

