-- ==== Sys2Proof/Machine/Migration.lean ====
section
/-! DEFINITION. The tier migration engine (R257, R260, R261). -/

namespace Sys2Proof.Machine

/-- A page in use: the tier and address of its entry, and the entry as a leaf. -/
structure Page where
  tier : Nat
  addr : Nat
  leaf : Leaf
  deriving DecidableEq, Repr

/-- The words of a table that are not 0, by index. -/
def tableWords (m : Memory) (addr n : Nat) : List (Nat × Word) :=
  let seg := m.filter fun c => addr ≤ c.1 && c.1 < addr + 8 * n
  ((seg.map fun c => (c.1 - addr) / 8).dedup).map fun i => (i, readWord seg (addr + 8 * i))

/-- The leaves that the words of some table frames hold. A table is read where it stands, not from a root, so that a page
which no live launch maps counts as well (R252, R253, R317). -/
def State.pagesIn (s : State) (tier addr n : Nat) : List Page :=
  (tableWords (s.store? tier).1 addr n).filterMap fun e =>
    let l : Leaf := { va := 0, entry := e.2, level := (e.2.extractLsb' 61 2).toNat - 1 }
    if l.entry.getLsbD 63 && l.size != 0 && !s.malformed l && !s.mapsTables l then
      some { tier := tier, addr := addr + 8 * e.1, leaf := l }
    else none

/-- Every page that an entry of a table region maps (R252, R362). -/
def State.pages (s : State) : List Page :=
  (s.regions.flatMap fun e =>
    let w0 := e.2.1
    let base := (w0.extractLsb' 0 36).toNat
    let limit := (e.2.2.extractLsb' 0 36).toNat
    if w0.getLsbD 63 && w0.getLsbD 61 then
      s.pagesIn (w0.extractLsb' 59 2).toNat (base * 65536) ((limit + 1 - base) * 8192)
    else []).dedup

/-- Whether the frames of a leaf lie within those of another. -/
def Leaf.within (l big : Leaf) : Bool :=
  l.tier == big.tier && big.frame ≤ l.frame && l.frame + l.frames ≤ big.frame + big.frames

/-- Cells of a range, shifted. -/
def shiftCells (m : Memory) (a n b : Nat) : Memory :=
  (m.filter fun c => a ≤ c.1 && c.1 < a + n).map fun c => (c.1 - a + b, c.2)

/-- The cells of a range among those of a list, in canonical form: of a list in that form, all that lie there. -/
def withinCells (lo hi : Nat) : Memory → Memory
  | [] => []
  | c :: r => if lo ≤ c.1 && c.1 < hi && c.2 != 0 then c :: withinCells (c.1 + 1) hi r else withinCells lo hi r

/-- Memory with the cells of a range replaced by cells of that range. -/
def putCells (m : Memory) (a n : Nat) (cs : Memory) : Memory :=
  m.filter (fun c => c.1 < a) ++ withinCells a (a + n) cs ++ m.filter (fun c => a + n ≤ c.1)

/-- A table with the entries of a range replaced by those of another range, shifted. -/
def copyTable {α : Type} (src dst : Table α) (a n b : Nat) : Table α :=
  let moved := (src.filter fun e => a ≤ e.1 && e.1 < a + n).map fun e => (e.1 - a + b, e.2)
  dst.filter (fun e => e.1 < b) ++ moved ++ dst.filter (fun e => b + n ≤ e.1)

/-- A leaf in another tier and frame. -/
def Leaf.moved (l : Leaf) (tier frame : Nat) : Leaf :=
  { l with entry := (l.entry &&& 0xE7FFFFF000000000) ||| BitVec.ofNat 64 (tier % 4 * 2 ^ 59 + frame % 2 ^ 36) }

/-- The bytes of a page copied to another place: every line of it reads under the page's key as it did, and what was written
under no key, where the slot is empty, stays as it is stored (R258, R260). -/
def State.copyPage (s : State) (l : Leaf) (tier frame : Nat) : State :=
  let n := l.frames * 65536
  let a := l.frame * 65536
  let b := frame * 65536
  match find l.key s.keys with
  | some k =>
    let lines := (List.range (n / 64)).map fun i => (b / 64 + i, s.lineUnder k l.tier (a / 64 + i))
    let cells := lines.flatMap fun e => cells (e.1 * 64) e.2
    let fresh := lines.map fun e => (e.1, k)
    let keys := fun (t : Table Nat) => t.filter (fun e => e.1 < b / 64) ++ fresh ++ t.filter fun e => (b + n) / 64 ≤ e.1
    if tier = 0 then { s with mem := putCells s.mem b n cells, lineKeys := keys s.lineKeys }
    else { s with mem2 := putCells s.mem2 b n cells, lineKeys2 := keys s.lineKeys2 }
  | none =>
    let src := s.store? l.tier
    let cells := shiftCells src.1 a n b
    if tier = 0 then
      { s with mem := putCells s.mem b n cells, lineKeys := copyTable src.2 s.lineKeys (a / 64) (n / 64) (b / 64) }
    else { s with mem2 := putCells s.mem2 b n cells, lineKeys2 := copyTable src.2 s.lineKeys2 (a / 64) (n / 64) (b / 64) }

/-- The state with a page moved: its bytes, its writer tags and what orders reads after its writes, every entry that maps its frames or some of them, what the
caches hold of those entries, and the addresses that engines have resolved (R257, R260). -/
def State.movePage (s : State) (p : Page) (tier frame : Nat) : State :=
  let l := p.leaf
  let inside := s.pages.filter (·.leaf.within l)
  let s := s.copyPage l tier frame
  let s := if tier = 0 && l.tier = 0 then
      { s with
        tags := copyTable s.tags s.tags (l.frame * 1024) (l.frames * 1024) (frame * 1024)
        ordered := s.ordered.map fun o => if l.frame * 1024 ≤ o.line && o.line < (l.frame + l.frames) * 1024 then
          { o with line := o.line - l.frame * 1024 + frame * 1024 } else o }
      else s
  let swap := fun (x : Leaf) =>
    if x.entry.getLsbD 63 && x.size != 0 && x.within l then x.moved tier (frame + (x.frame - l.frame)) else x
  let s := inside.foldl (fun s q => s.writeRaw q.tier q.addr (leBytes 8 (swap q.leaf).entry.toNat)) s
  { s with
    caches := s.caches.map fun c => (c.1, c.2.1, swap c.2.2)
    tiles := s.tiles.map fun e => (e.1, { e.2 with eng := { e.2.eng with
      copies := e.2.eng.copies.map fun g => { g with leaves := g.leaves.map swap }
      atomics := e.2.eng.atomics.map fun g => { g with leaf := g.leaf.map swap } } }) }

/-- Whether a page can be moved as it is: no larger one holds its frames. -/
def wholePage (ps : List Page) (l : Leaf) : Bool := ps.all fun q => !(l.within q.leaf) || q.leaf.frames == l.frames

/-- Whether a page has to stay in the pooled tier: an entry that maps frames of it has epoch checks (R253, R260). -/
def pinned (ps : List Page) (l : Leaf) : Bool := ps.any fun q => q.leaf.within l && q.leaf.ep

/-- Whether frames of a tier can take a page: they exist, hold no page, and have the page's protection. -/
def State.frameFree (s : State) (used : List Page) (l : Leaf) (tier frame : Nat) : Bool :=
  let n := l.frames
  let sec := fun (tier f : Nat) => s.regionMeets tier f n 62
  frame % n == 0
    && !s.badFrame (l.moved tier frame)
    && (tier = 1 || (tier = 0 && !(s.tile (frame / 4096)).vault.failed))
    && !s.regionMeets tier frame n 61
    && sec tier frame == sec l.tier l.frame
    && used.all fun q => q.leaf.tier != tier || !meet q.leaf.frame q.leaf.frames frame n

/-- The first number from one on, in steps, that passes a test. -/
def firstFrom (p : Nat → Bool) (step : Nat) : Nat → Nat → Option Nat
  | 0, _ => none
  | fuel + 1, k => if p k then some k else firstFrom p step fuel (k + step)

/-- Where a page goes that must leave its bank: a pooled frame outside the banks that a lease takes, or else, for a page
without epoch checks, the second tier (R261). -/
def State.refuge (s : State) (used : List Page) (l : Leaf) (taken : Nat → Bool) : Option (Nat × Nat) :=
  let n := l.frames
  match firstFrom (fun f => !taken f && s.frameFree used l 0 f) n (Config.tiles * 4096 / n) 0 with
  | some f => some (0, f)
  | none => if pinned used l then none else (firstFrom (s.frameFree used l 1) n (s.capacity / n) 0).map fun f => (1, f)

/-- The state with every pooled page moved out of the banks of a lease on some tiles; none if a page has nowhere to go
(R160, R261). -/
def State.evacuate (s : State) (own : BitVec 31) (ts : List Nat) : Option State :=
  let taken := fun (f : Nat) => ts.contains (f / 4096) && own.getLsbD (f / 128 % 32)
  let ps := s.pages
  let held := (ps.filter fun p => p.leaf.tier == 0 && wholePage ps p.leaf
    && (List.range p.leaf.frames).any fun k => taken (p.leaf.frame + k)).foldl
    (fun (out : List Page) p => if out.any fun q => q.leaf.frame == p.leaf.frame then out else out ++ [p]) []
  held.foldl (fun s p => s.bind fun s => (s.refuge s.pages p.leaf taken).map fun d => s.movePage p d.1 d.2) (some s)

/-- PAGE_MIGRATION: the engine moves the page whose entry stands at an address to a free frame of either tier; a page
with epoch checks stays in the pooled tier, and none leaves a failed vault (R260, R376). Disabled for a page or a frame
that there is not (log entry 7). -/
def execPageMigration (entry frame tier : Nat) (s : State) : Host.Outcome State Fault Refusal :=
  match s.pages.find? fun p => p.addr == entry with
  | none => .next s
  | some p =>
    let l := p.leaf
    let ok := tier < 2 && l.tier < 2 && wholePage s.pages l && !(pinned s.pages l && tier != 0)
      && s.frameFree s.pages l tier frame
      && !(l.tier == 0 && (s.tile (l.frame / 4096)).vault.failed)
    .next (if ok then s.movePage p tier frame else s)

end Sys2Proof.Machine
end

