-- ==== Sys2Proof/Machine/Arbitrate.lean ====
section
/-! DEFINITION. Arbitration, reservations, pre-emption and notices, and the operating points that a grant raises
(R322 to R324, R332 to R334, R363 to R366). -/

namespace Sys2Proof.Machine

/-! ### Operating points (R363 to R366) -/

/-- The floors of an operating point: control, matrix, vector, copy (R363). -/
def pointFloors (n : Nat) : Vector Nat 4 :=
  if n = 0 then #v[1, 1, 1, 1] else if n = 1 then #v[1, 2, 2, 1] else if n = 2 then #v[2, 2, 2, 2]
  else if n = 3 then #v[2, 4, 4, 2] else if n = 4 then #v[4, 4, 4, 4] else #v[8, 8, 8, 8]

/-- The tiles of an island. -/
def islandTiles (i : Nat) : List Nat := (List.range 16).map (16 * i + ·)

/-- The operating-point word of an island (R364). -/
def Island.point (x : Island) : Nat :=
  x.cur * 2 ^ 61 + x.tgt * 2 ^ 58 + x.held * 2 ^ 55 + x.hv.toNat * 2 ^ 54 + (x.tgt != x.cur || x.step.isSome).toNat * 2 ^ 53
    + x.sup.toNat * 2 ^ 52

/-- The state with an island's operating point changed; every change of its word is reported, with the word (R364). -/
def State.setPoint (s : State) (i : Nat) (x : Island) : State :=
  let s' := s.setIsland i x
  if x.point = (s.island i).point then s' else (s'.logIt 8 2 i x.point).tellOwner (.words [i, x.point])

/-- The floors of an island, the owner's and its point's, the larger of each pair, as a notice brings them (R334, R363). -/
def Island.floorNotice (x : Island) : Notice :=
  let f := fun (k : Nat) => BitVec.ofNat 4 (max (vget 1 x.throttle k) (vget 1 x.floors k))
  .thr (f 0) (f 1) (f 2) (f 3)

/-- A task bound or restored while its island's point is being lowered gets the floors that have been posted (R365). -/
def State.postTo (s : State) (t : Nat) : State :=
  let i := s.island (t / 16)
  if i.cur < i.tgt then { s with delivered := s.delivered ++ [(t, i.floorNotice)] } else s

/-- The floors of a point posted to an island: each task takes them at its next yield point, as any throttle (R334, R363,
R365). -/
def State.postFloors (s : State) (i n : Nat) : State :=
  let x := { s.island i with floors := pointFloors n }
  let s := s.setIsland i x
  { s with delivered := s.delivered ++ ((islandTiles i).filter fun t => (s.tile t).noticed).map fun t => (t, x.floorNotice) }

/-- The launch to which a tile is granted before its task is bound or restored there. -/
def State.grantedTo (s : State) (t : Nat) : Option Nat :=
  (s.launches.find? fun e =>
    (e.2.state == .binding && e.2.tiles.contains t && !(s.tile t).runs e.1)
      || (e.2.state == .resuming && e.2.granted.contains (t / 16) && (s.tile t).saves e.1)).map (·.1)

/-- Whether every task bound on an island has applied the floors of a point at a yield point. A free tile and a suspended or
ended task count as having applied them; a tile that waits for its task does not (R365). -/
def State.applied (s : State) (i n : Nat) : Bool :=
  (islandTiles i).all fun t =>
    let x := s.tile t
    (s.grantedTo t).isNone
      && (!x.noticed || (List.range 4).all fun k => vget 1 (pointFloors n) k ≤ vget 1 x.sys.divFloor k)

/-- A ramp to a point starts: downwards the floors are posted first, upwards the voltage steps first (R365). -/
def State.startRamp (s : State) (i n : Nat) : State :=
  let x := s.island i
  if n = x.cur then s
  else if x.cur < n then (s.setPoint i { x with tgt := n }).postFloors i n
  else s.setPoint i { x with tgt := n, step := some (s.pcc + 1) }

/-- A request held; one that it replaces before it started sets sup, which is reported with the word (R364, R365). -/
def State.holdRequest (s : State) (i n : Nat) : State :=
  let x := s.island i
  let s := if x.hv then (s.logIt 8 1 i n).tellOwner (.warning 8 i) else s
  s.setPoint i { x with held := n, hv := true, sup := x.sup || x.hv }

/-- Whether a grant on an island must raise its voltage first (R366). -/
def Island.slow (x : Island) : Bool := x.cur != 0 || x.tgt != 0

/-- A grant on an island: a ramp in progress ends where its step ends, OP0 is put in force, and the point that the
island was in, or was to reach, is held (R366). -/
def State.raiseIsland (s : State) (i : Nat) : State :=
  let x := s.island i
  if !x.slow then s
  else
    let back := x.tgt
    let s := if back = 0 then s else s.holdRequest i back
    let x := s.island i
    s.setPoint i { x with tgt := 0, step := some (match x.step with | some c => max c s.pcc + 1 | none => s.pcc + 1) }

/-! ### Who holds a tile (R160, R323) -/

/-- Whether nothing runs on a tile, and none of its time is another's. -/
def State.idle (s : State) (t : Nat) : Bool :=
  let x := s.tile t
  x.task.isNone && x.busyTill ≤ s.icc t && (s.grantedTo t).isNone

/-- Whether a tile can be used by a launch, reservations apart (R323). -/
def State.usable (s : State) (serial : Nat) (l : Launch) (t : Nat) : Bool :=
  let x := s.tile t
  s.idle t && (match x.saved with
    | none => true
    | some k => k.serial == serial || (l.cls < 2 && (l.own &&& x.savedOwn) == 0))

/-! ### The order of waiting launches (R322) -/

/-- The serial last bound of the age group of a launch (R322). -/
def State.pointer (s : State) (l : Launch) : Nat :=
  match s.lastBound.find? fun e => e.1 == l.cls && e.2.1 == l.age with | some e => e.2.2 | none => 0
def State.notePointer (s : State) (serial : Nat) (l : Launch) : State :=
  { s with lastBound := (l.cls, l.age, serial) :: s.lastBound.filter fun e => !(e.1 == l.cls && e.2.1 == l.age) }

/-- Whether a launch comes before another: class, age, and round robin from the serial last bound of its age group. -/
def State.before (s : State) (a b : Nat × Launch) : Bool :=
  let turn := fun (e : Nat × Launch) =>
    (((e.1 : Int) - (s.pointer e.2 : Nat) - 1) % (2 ^ 64 : Int)).toNat
  if a.2.cls ≠ b.2.cls then a.2.cls < b.2.cls
  else if a.2.age ≠ b.2.age then a.2.age < b.2.age
  else turn a ≤ turn b

/-- A launch put in its place. -/
def State.place (s : State) (a : Nat × Launch) : List (Nat × Launch) → List (Nat × Launch)
  | [] => [a]
  | b :: r => if s.before a b then a :: b :: r else b :: s.place a r

/-- Whether a launch waits for tiles: queued, suspended, or with gangs that a hold has parted from the others (R322, R342). -/
def Launch.waits (l : Launch) : Bool :=
  l.endsAs.isNone && (l.state == .queued || l.state == .suspended || (l.state == .resuming && l.parts))

/-- The waiting launches, in the package order. -/
def State.waiting (s : State) : List (Nat × Launch) := (s.launches.filter fun e => e.2.waits).foldr s.place []

/-- The places in a replayed trace of the launches of a list that are matched to it (R332). -/
def State.placesOf (s : State) (serials : List Nat) : List Nat := serials.filterMap fun n => (s.launch n).bind (·.seqNo)

/-- Whether a replay lets a matched launch bind: every launch of lower sequence has bound, and the first of the recorded end
order, as many as its entry says, have ended. A break of the session frees the later launches only, which are not matched
(R332). -/
def State.replayLets (s : State) (l : Launch) : Bool :=
  match l.seqNo, s.sessionOf l with
  | some n, some (_, e) =>
    ((List.range n).all (s.placesOf e.bound).contains) && (match e.trace[n]? with
      | some w => (e.order.take (bitsOf w.1 47 32)).all (s.placesOf e.endings).contains
      | none => true)
  | _, _ => true

/-! ### Suspended launches -/

/-- The tiles on which a launch's contexts wait, those whose gang is all saved or ended, or waits for them with its restarted
members; a launch that a hold has parted resumes gang by gang, any other whole (R323, R339, R342). -/
def State.resumable (s : State) (serial : Nat) (l : Launch) : List (List Nat) :=
  let saved := l.tiles.filter fun t => (s.tile t).saves serial
  let ready := fun (t : Nat) =>
    !l.granted.contains (t / 16) && l.tiles.all fun u => u / 16 != t / 16 || (s.tile u).saves serial
      || (s.tile u).seq.phase == .ended || (s.tile u).seq.phase == .resuming || (s.tile u).inPlace || !(s.tile u).runs serial
  if l.parts then ((saved.map (· / 16)).dedup.map fun i => saved.filter (· / 16 == i)).filter fun g => g.all ready
  else if saved.isEmpty then [] else [saved]

/-! ### Granting and reserving (R323) -/

/-- The state with tiles granted to a queued launch: its binding follows, once their islands are at OP0 (R321, R366). -/
def State.grantBinding (s : State) (serial : Nat) (ts : List Nat) (v : Nat) : State :=
  let s := s.onLaunch serial fun l => { l with state := .binding, tiles := ts, variant := v, waiting := false }
  ((ts.map (· / 16)).dedup).foldl State.raiseIsland s

/-- The state with tiles granted to a suspended launch for its resumption (R339, R366). -/
def State.grantResume (s : State) (serial : Nat) (ts : List Nat) : State :=
  let is := (ts.map (· / 16)).dedup
  let s := s.onLaunch serial fun l =>
    { l with state := .resuming, granted := l.granted ++ is, notified := false, started := l.started.filter (!is.contains ·) }
  is.foldl State.raiseIsland s

/-- PREEMPTION_DECISION: a launch of class 0 or 1 with a lease within b23 to b30 sends notices to the launches of classes
2 and 3 on its tiles, where every tile it needs is free, runs such a task, or holds a suspended one (R18, R324). -/
def State.preempt (s : State) (l : Launch) (need : List Nat) : State :=
  let low := fun (t : Nat) => match (s.tile t).task with
    | some k => 2 ≤ k.cls && (s.tile t).seq.phase != .stopped && (s.tile t).seq.phase != .halted
        && (s.tile t).seq.phase != .trapping
    | none => (s.grantedTo t).isNone
  if l.cls ≥ 2 || l.own.toNat % 2 ^ 23 ≠ 0 || !need.all low then s
  else
    let victims := (need.filterMap fun t => (s.tile t).task.map (·.serial)).dedup
    victims.foldl (fun s v => match s.launch v with
      | none => s
      | some k =>
        if k.notified || k.ckpt || k.state == .held || k.state.final || k.endsAs.isSome || !k.granted.isEmpty then s
        else
          let s := s.decide v k .pre
          s.onLaunch v fun k => { k with notified := true, state := .suspending, parts := false }) s

/-- One launch of the walk: granted if every tile it needs is available and its lease strands no page, and otherwise
reserving those that are free, and pre-empting (R261, R323, R324). -/
def State.consider (s : State) (serial : Nat) : State :=
  match s.launch serial with
  | none => s
  | some l =>
    let open' := fun (s : State) (t : Nat) => s.usable serial l t && look serial t s.reserved == serial
    let reserve := fun (s : State) (ts : List Nat) =>
      ts.foldl (fun s t => if open' s t then { s with reserved := insertAt t serial s.reserved } else s) s
    if l.state == .queued then
      if !s.replayLets l then s
      else
        let (n, need) := match s.selected l with | some e => (e.1, tilesOf e.2) | none => (0, [])
        if need.all (open' s) then
          if (s.evacuate l.own need).isSome then s.grantBinding serial need n
          else if l.waiting then s
          else ((s.onLaunch serial fun l => { l with waiting := true }).logIt 7 2 serial 0).tellOwner (.warning 7 serial)
        else (reserve s need).preempt l need
    else
      (s.resumable serial l).foldl (fun s g =>
        if g.any fun t => (s.tile t).vault.failed then s
        else if g.all (open' s) then s.grantResume serial g
        else reserve s g) s

/-- ARBITRATION: the waiting launches are walked in the package order; each is granted its tiles, all or nothing, or
reserves those that are free against every later one (R318, R322 to R324). -/
def execArbitration (s : State) : Host.Outcome State Fault Refusal :=
  if s.boot != .ready then .next s
  else .next (s.waiting.foldl (fun s e => s.consider e.1) { s with reserved := [] })

/-! ### Notices (R333, R334) -/

/-- An island's floors as the owner's throttle command gives them, and notices of them to the tasks that run there: the last
command's floors replace those before it. The manual gives floors from 1 to 8; the model takes a field outside as the nearest of
them (R333, R334, log entry 121). -/
def State.throttleIsland (s : State) (floors : Vector (BitVec 4) 4) (i : Nat) : State :=
  let x := { s.island i with throttle := floors.map fun f => max 1 (min 8 f.toNat) }
  let s := s.setIsland i x
  { s with notices := s.notices ++ ((islandTiles i).filter fun t => (s.tile t).noticed).map fun t => (t, x.floorNotice, s.pcc) }

/-- The throttle command to a set of islands (R334). -/
def State.throttleAll (s : State) (islands : List Nat) (floors : Vector (BitVec 4) 4) : State :=
  (islands.filter (· < Config.islands)).foldl (·.throttleIsland floors) s

/-- NOTICE_DELIVERY: a notice decided on, of a pre-emption, of a hold or of an accepted throttle command, reaches its task, to be
seen from the first island cycle that begins after this pcc cycle; a throttle brings the floors that its island has then (R333,
R334). Disabled for a notice that nobody has decided on for the task (log entry 7). -/
def execNoticeDelivery (t : Nat) (n : Notice) (s : State) : Host.Outcome State Fault Refusal :=
  if t ≥ Config.tiles then .fault .noSuchPart
  else match s.notices.find? fun e => e.1 == t && e.2.1 == n with
    | none => .next s
    | some e =>
      let seen := match n with | .thr _ _ _ _ => (s.island (t / 16)).floorNotice | _ => n
      let s := { s with notices := s.notices.erase e }
      .next (if (s.tile t).noticed then { s with delivered := s.delivered ++ [(t, seen)] } else s)

/-- The notices that an island cycle of a tile begins with (R333). -/
def State.showNotices (s : State) (t : Nat) : State :=
  let mine := s.delivered.filter fun e => e.1 == t
  let s := mine.foldl (fun s e => s.onTile t fun x =>
    if !x.noticed then x
    else match e.2 with
      | .thr c m v k => { x with sys := { x.sys with thr := true, thrTo := #v[c.toNat, m.toNat, v.toNat, k.toNat] } }
      | .pre => { x with sys := { x.sys with pre := true } }
      | .hold => { x with sys := { x.sys with pre := true }, task := x.task.map fun k => { k with holding := true } }) s
  { s with delivered := s.delivered.filter fun e => e.1 != t }

end Sys2Proof.Machine
end

