-- ==== Sys2Proof/Machine/Binding.lean ====
section
/-! DEFINITION. Binding and the starts of gangs (R9, R18, R25, R176, R179, R181, R297, R321, R325, R326, R331, R339). -/

namespace Sys2Proof.Machine

/-- Code lines of a schedule, of 64 bytes (R325). -/
def codeLines (code : List Word) : Nat := (code.length + 7) / 8

/-- The banks that an owner of one world takes from a task of the other, zeroed, and the world that owns them now
(R18). -/
def State.takeBanks (s : State) (t : Nat) (own : BitVec 31) (world : Bool) : State :=
  ((List.range 31).filter own.getLsbD).foldl (fun s b =>
    let a := vaultAddr t b 0
    let foreign := match find b (s.tile t).worlds with | some w => w != world | none => false
    let s := if foreign then
        { s with mem := zeroBytes s.mem a Config.bankBytes
                 lineKeys := s.lineKeys.filter fun e => e.1 < a / 64 || (a + Config.bankBytes) / 64 ≤ e.1 }
      else s
    s.onTile t fun x => { x with worlds := insertAt b world x.worlds }) s

/-- The vault as a fresh task takes it: its banks closed, with nothing owed and every age at 255 (R176). -/
def Vault.handOver (v : Vault) (own : BitVec 31) (now : Nat) : Vault :=
  let old : Int := (now : Int) - 255
  { v with
    banks := Vector.ofFn fun b : Fin 32 =>
      let k := vget { } v.banks b.val
      if b.val < 31 && own.getLsbD b.val then { rptr := k.rptr, act := old, pre := old, rd := old, wr := old, ref := old }
      else k
    chan := { acts := Vector.replicate 4 (old, 0), rd := (old, 0), wr := (old, 0) }
    keeper := false, reads := [], deficit := [] }

/-- The vault at a binding: the banks are kept until the gang starts, the layers' announced classes are applied, and the
class is that of the schedule bound (R25, R176, R179). -/
def Vault.fresh (v : Vault) (own : BitVec 31) (now cls : Nat) : Vault :=
  { v.handOver own now with layers := v.layers.map Layer.settle, sched := BitVec.ofNat 2 cls, keeper := true }

/-- A tile with a task bound fresh, its state as R25 sets it, its preloads written (R25, R26, R326). The first bundle's
line is asked for once the code and the preloads have been written (R325). A preload is the dispatcher's write, none of the
task's: it marks no line of a send window (R304, log entry 127). -/
def Tile.bound (x : Tile) (k : Task) (start now cost cls : Nat) (preload : List (Nat × List Byte)) : Tile :=
  { x with
    regs := { }, eng := { }, inPlace := false, kept := none, frames := false
    sys := { sfail := x.vault.layers.toList.any (·.sfail) }
    bar := { linkAt := now }
    st := preload.foldl (fun m p => writeBytes m p.1 p.2) []
    vault := x.vault.fresh k.own now cls
    task := some k
    seq := { phase := .starting, pc := start, next := start, nextAt := now + cost, yieldAt := now
             window := windowFrom (lineOf start) (now + cost) } }

/-- A launch's role bound to its tile. -/
def State.bindRole (s : State) (serial : Nat) (l : Launch) (v : Variant) (role : Nat) : State :=
  match l.tiles[role]? with
  | none => s
  | some t =>
    let e := effOf (s.tile t).vault l.own
    let k : Task := { serial := serial, role := role, record := l.sub.record, variant := l.variant, chosen := e }
    let (cls, code) := (schedFor v e.toNat).getD (2, [])
    let stage := (match s.imageOf l with | some im => im.stage | none => [])
    let block := s.blockBytes l
    let preload := stage ++ (if l.blockNo = 0 then [] else [(l.blockBase, block)])
    let bytes := preload.foldl (fun n p => n + p.2.length) 0
    let s := (s.takeBanks t l.own l.world).writeCode t code
    let windows := (s.sends k).map fun c => (c.1, c.2.sbase, c.2.lines)
    let cost := codeLines code + (bytes + 4095) / 4096
    (s.onTile t fun x => x.bound { k with windows := windows } v.start (s.icc t) cost cls preload).postTo t

/-- The trace entry of a launch that binds, appended to its session's trace in record mode, up to 65,536 entries; and its
place in the order of binding (R331). -/
def State.traceBinding (s : State) (serial : Nat) (l : Launch) : State :=
  match s.sessionOf l with
  | none => s
  | some (n, e) =>
    let w0 := e.trace.length % 65536 * 2 ^ 48 + e.endings.length % 65536 * 2 ^ 32 + l.variant % 65536 * 2 ^ 16
      + l.cls * 2 ^ 14
    let w1 := bitsOf (l.recWord 0) 31 0 * 2 ^ 32 + l.pver % 2 ^ 32
    let full := 65536 ≤ e.trace.length
    let e := { e with bound := e.bound ++ [serial] }
    if e.replay then { s with sessions := insertAt n e s.sessions }
    else if full then
      let s := { s with sessions := insertAt n { e with incomplete := true } s.sessions }
      (s.logIt 7 3 n 0).tellOwner (.warning 7 n)
    else { s with sessions := insertAt n { e with trace := e.trace ++ [(BitVec.ofNat 64 w0, BitVec.ofNat 64 w1)] } s.sessions }

/-- Whether the voltage of every island of some tiles has come to OP0 after a grant (R366). -/
def State.raised (s : State) (ts : List Nat) : Bool :=
  ts.all fun t => let i := s.island (t / 16); i.cur == 0 && !(i.step.isSome && i.tgt == 0)

/-- Whether the code and the preloads of a launch that binds are still being written, so that what step 5 fixes is not fixed
yet (R325). -/
def State.writing (s : State) (serial : Nat) (l : Launch) : Bool :=
  l.state == .binding && l.tiles.any fun t =>
    (s.tile t).runs serial && (s.tile t).seq.phase == .starting && s.icc t < (s.tile t).seq.nextAt

/-- A change of what the launches take that have still to take their snapshots (R325). -/
def State.onWriting (s : State) (f : Launch → Launch) : State :=
  { s with launches := s.launches.map fun e => (e.1, if s.writing e.1 e.2 then f e.2 else e.2) }

/-- BINDING: a granted launch selects its variant, is checked again, and is bound: pages are moved out of its banks, code
and preloads are written, the tasks' state is set, and the Lamplighter snapshot and the routes are fixed; a write of them while
code and preloads are still being written changes them yet (`State.writing`). A refusal, a changed table of tiles or a
stranded page releases the grant. Disabled for a launch that is not granted, and while an island's voltage is
raised (R18, R22, R25, R261, R297, R320, R325 to R327, R331, R366, log entry 7). -/
def execBinding (serial : Nat) (s : State) : Host.Outcome State Fault Refusal :=
  match s.launch serial with
  | none => .next s
  | some l =>
    if l.state != .binding || (l.tiles.any fun t => (s.tile t).runs serial) || !s.raised l.tiles then .next s
    else
      let code := lowest (s.variantCodes l)
      if code ≠ 0 then
        let s := s.onLaunch serial fun l => { l with state := .refused, code := code, leftAt := some s.pcc, tiles := [] }
        .next ((s.logIt 7 code serial 0).tell l.port (.refused code))
      else match s.selected l, s.evacuate l.own l.tiles with
        | some (n, v), some s' =>
          if tilesOf v != l.tiles then .next (s.onLaunch serial fun l => { l with state := .queued, tiles := [] })
          else
            let l := { l with variant := n, word := s.lampWord, phases := s.phases, routes := s.routes, parent := s.parent, hops := s.hops }
            let s := (List.range l.roles).foldl (fun s r => s.bindRole serial l v r)
              (s'.onLaunch serial fun _ => l)
            .next ((s.notePointer serial l).traceBinding serial l)
        | _, _ => .next (s.onLaunch serial fun l => { l with state := .queued, tiles := [], waiting := true })

/-! ### Banks given back (R176, R179) -/

/-- A layer at a resumption: the class applied is the lower of the one announced and the schedule's, and a higher one
announced starts its lead (R179). -/
def Layer.resume (l : Layer) (sched : BitVec 2) (lcc : Nat) : Layer :=
  if sched.toNat < l.pend.toNat then { l with app := sched, leads := [(lcc + 3500000, l.pend)] }
  else { l with app := l.pend, leads := [] }

/-! ### The start of a gang (R9, R294, R339) -/

/-- The island cycles that an activation of the k-th of some rows waits for the first, one every 4 and four in 28 (R163). -/
def openAt (k : Nat) : Nat := k / 4 * 28 + k % 4 * 4

/-- The owned banks that a saved vault has open. -/
def Tile.savedOpen (x : Tile) (old : Vault) : List Nat :=
  (List.range 31).filter fun b => x.owns b && (vget { } old.banks b).opened

/-- Whether the sequencer has caught up on every owned bank (R176). -/
def Tile.caughtUp (x : Tile) : Bool := (List.range 31).all fun b => !x.owns b || (vget { } x.vault.banks b).owed ≤ 0

/-- Whether a member of a tile's gang has its context saved still, so that the gang cannot issue yet (R342). -/
def State.gangWaits (s : State) (t : Nat) : Bool :=
  match (s.tile t).task with
  | none => false
  | some k => match s.launch k.serial with
    | some l => l.tiles.any fun u => u / 16 == t / 16 && (s.tile u).saves k.serial
    | none => false

/-- The banks of a task that goes on are taken from the sequencer, once it has caught up and all else of its gang is restored: the
tile activates each saved open row, and waits 70 cycles after the last (R176). -/
def State.reactivate (s : State) (t : Nat) : State :=
  let x := s.tile t
  let now := s.icc t
  match x.kept with
  | none => s
  | some (_, old) =>
    if x.seq.phase != .resuming || !x.vault.keeper || s.icc t < x.seq.nextAt || !x.caughtUp || s.gangWaits t then s
    else
      let rows := x.savedOpen old
      let banks := (List.range rows.length).foldl (fun bs k =>
        let b := rows.getD k 0
        let o := vget ({ } : Bank) old.banks b
        vset bs b { vget ({ } : Bank) bs b with opened := true, row := o.row, act := ((now + openAt k : Nat) : Int) }) x.vault.banks
      let wait := if rows.isEmpty then 0 else openAt (rows.length - 1) + 70
      s.onTile t fun x =>
        { x with vault := { x.vault with banks := banks, keeper := false }, seq := { x.seq with nextAt := now + wait } }

/-- Whether a member of a gang is ready to issue its first or next bundle: its state and banks are there, its
post-operations have acted, and its line has arrived; one in a sync wait has none to fetch. -/
def State.memberReady (s : State) (t : Nat) : Bool :=
  let x := s.tile t
  let q := x.seq
  let waits := match x.task with | some k => 2 ≤ k.point | none => false
  q.nextAt ≤ s.icc t
    && (if x.kept.isSome then !x.vault.keeper else x.caughtUp)
    && (waits || (q.after.isEmpty && q.holds (lineOf q.pc)))

/-- A member that issues on this cycle; one suspended or stopped in a sync wait takes it up again (R294), and its counts
go on from where they stood (R31, R306, R339). -/
def State.startMember (s : State) (t : Nat) : State :=
  let now := s.icc t
  let lev := (s.headAt t (s.tile t).seq.pc).slev.toNat
  s.onTile t fun x =>
    let point := match x.task with | some k => k.point | none => 0
    let stall := if 2 ≤ point then x.waitAgain (point - 1) lev else Stall.none
    let back := x.seq.phase == .resuming
    let vault := match x.kept with
      | some (since, old) => if back then x.vault.giveBack old x.own since now else x.vault
      | none => if back then x.vault else x.vault.handOver x.own now
    let chosen := match x.task with | some k => k.chosen | none => 0
    { x with
      vault := vault, kept := none, inPlace := false
      sys := if back then x.sys else { x.sys with rcls := effOf x.vault x.own != chosen }
      bar := if back then { x.bar with linkAt := now - x.bar.linkAt } else { x.bar with linkAt := now }
      task := x.task.map fun k => { k with point := 0, holding := false }
      seq := { x.seq with
        phase := .running, stall := stall, nextAt := now, issuedAt := now - 1
        yieldAt := if back then now - x.seq.yieldAt else now
        replanAt := if back then s.pcc - x.seq.replanAt else s.pcc } }

/-- The launch after a gang's start: running once every task has issued, suspending if a notice is in force, or still resuming
while other gangs wait for theirs (R321, R342). -/
def Launch.afterStart (l : Launch) (more : Bool) (left : Bool) : LState :=
  if l.state != .binding && l.state != .resuming then l.state
  else if more || left then l.state
  else if l.notified && l.state == .binding then .suspending
  else if l.ends.isEmpty then .running else .ending

/-- GANG_START: the members of a launch's gang on an island, all of whose first or next lines have arrived, issue on one
island cycle. Disabled before (R9, R325, R339, log entry 7). -/
def execGangStart (serial island : Nat) (s : State) : Host.Outcome State Fault Refusal :=
  if Config.islands ≤ island then .fault .noSuchPart
  else
    match s.launch serial with
    | none => .next s
    | some l =>
      let comes := fun (s : State) (t : Nat) => (s.tile t).runs serial
        && ((s.tile t).seq.phase == .starting || (s.tile t).seq.phase == .resuming)
      let gang := l.tiles.filter fun t => t / 16 == island
      let here := gang.filter (comes s)
      if here.isEmpty || !here.all s.memberReady || gang.any (fun t => (s.tile t).saves serial) then .next s
      else
        let s := here.foldl State.startMember s
        let more := l.tiles.any (comes s)
        let left := l.tiles.any fun t => (s.tile t).saves serial
        .next (s.onLaunch serial fun l =>
          { l with state := l.afterStart more left, started := l.started ++ [island]
                   granted := l.granted.filter (· != island) })

end Sys2Proof.Machine
end

