-- ==== Sys2Proof/Machine/Context.lean ====
section
/-! DEFINITION. Saved contexts, checkpoint paths, resumption, restart, and the owner's orders to launches
(R281, R294, R335 to R345, R372). -/

namespace Sys2Proof.Machine

/-! ### The layout of a saved context (R336 to R338) -/

/-- The address of a row of b31. -/
def rowAddr (t row : Nat) : Nat := vaultAddr t 31 (row * 1024)

/-- The cells of the items of a table, each of n bytes, laid out from an address by their keys. -/
def tableCells {w : Nat} (a n : Nat) (m : Table (BitVec w)) : Memory :=
  m.flatMap fun e => cells (a + n * e.1) (leBytes n e.2.toNat)

/-- The items of a table of n bytes each, as cells from an address hold them. -/
def cellsTable (w a n count : Nat) (m : Memory) : Table (BitVec w) :=
  let seg := m.filter fun c => a ≤ c.1 && c.1 < a + n * count
  ((seg.map fun c => (c.1 - a) / n).dedup).map fun k => (k, BitVec.ofNat w (readNat seg (a + n * k) n))

/-- The context record at row 12 (R338). -/
def contextRecord (x : Tile) (k : Task) (chans : List (Nat × LinkEntry)) : List Byte :=
  let dq := fun i : Nat => let q := vget { } x.eng.dq i
    leBytes 8 (q.entries.length * 2 ^ 32 + q.width % 8 * 2 ^ 29)
  let n := fun i : Nat => (vget [] x.eng.q i).length
  let f := fun i : Nat => (vget [] x.eng.df i).length
  let full := fun e : Nat × LinkEntry =>
    leBytes 64 ((List.range 512).foldl (fun a l => if x.bar.full.contains (e.1, l) then a + 2 ^ l else a) 0)
  leBytes 8 (2 ^ 56 + k.point % 256 * 2 ^ 48 + k.variant % 65536 * 2 ^ 16 + k.serial % 65536)
    ++ leBytes 8 x.bar.epoch ++ leBytes 8 (tvecWord x.sys).toNat
    ++ leBytes 8 (vget 1 x.sys.divReq 0 + vget 1 x.sys.divReq 1 * 16 + vget 1 x.sys.divReq 2 * 256
        + vget 1 x.sys.divReq 3 * 4096)
    ++ (List.range 4).flatMap dq
    ++ leBytes 8 (n 0 + n 1 * 2 ^ 16 + n 2 * 2 ^ 32 + n 3 * 2 ^ 48)
    ++ leBytes 8 (x.regs.wTag.toNat + f 1 * 2 ^ 32 + f 0 * 2 ^ 48)
    ++ ((chans.take 4).flatMap full ++ List.replicate 256 0).take 256
    ++ List.replicate 3760 0

/-- The vault and the cycle of a suspending task's suspension point (R336). -/
def State.pointSnap (s : State) (t : Nat) : Snap := (s.tile t).seq.pointAt.getD (s.snap t)

/-- The trap-frame layout of a context: the suspension point's bundle as the trapping and the next one, and no head but the
serial (R337). -/
def State.contextFrame (s : State) (t : Nat) (k : Task) : List Byte :=
  let a := (s.tile t).seq.last
  let v := s.pointSnap t
  let r : TrapRec :=
    { req := { code := 0, slot := 0 }, disp := 0, addr := a, next := a, issue := 0, rest := false, icc := v.icc
      pcc := v.pcc, banks := Vector.ofFn fun b : Fin 32 => s.bankWords t b v, phase := s.phaseWord t v }
  leBytes 8 (k.serial % 65536) ++ (s.frameBytes t r).drop 8

/-- The bytes that the loop buffer holds: those of the captured code, at most 128 KiB (R121, R337). -/
def State.loopBytes (s : State) (t : Nat) : List Byte :=
  match (s.tile t).seq.captured with
  | none => []
  | some (b, e) =>
    if loopBufferBytes < e - b then []
    else (List.range ((e - b) / 8)).flatMap fun g => leBytes 8 (s.granule t (b + 8 * g)).toNat

/-- The cells of a tile's SRAM, rows 16 to 2,063 of a context: vector file, staging, accumulators, loop buffer (R336, R337). -/
def State.sramCells (s : State) (t : Nat) : Memory :=
  let x := s.tile t
  tableCells (rowAddr t 16) 1024 x.regs.v
    ++ x.st.map (fun c => (rowAddr t 400 + c.1, c.2))
    ++ tableCells (rowAddr t 1424) 8192 x.regs.acc
    ++ cells (rowAddr t 1936) (s.loopBytes t)

/-- The extended state of a context: what lies where, rows 2,064 to 2,152; of the FIFOs and queues what they hold (R337). -/
def Tile.extended (x : Tile) : List (Nat × List Byte) :=
  [(2064, x.regs.m.toList.flatMap fun v => leBytes 128 v.toNat),
   (2066, leBytes 2048 x.regs.opLatch.toNat ++ leBytes 128 x.regs.opScales.toNat ++ leBytes 4352 x.regs.wLatch.toNat),
   (2073, (vget [] x.eng.df 0).take 4096), (2077, (vget [] x.eng.df 1).take 4096)]
    ++ (List.range 4).map fun i => (2081 + 16 * i, ((vget [] x.eng.q i).take 4096).flatMap fun w => leBytes 4 w.toNat)

/-- Memory with a tile's whole context written, and nothing else of rows 8 to 2,152 (R336, R337). -/
def State.withContext (s : State) (t : Nat) (k : Task) : State :=
  let x := s.tile t
  let m := writeBytes s.mem (rowAddr t 8) (s.contextFrame t k ++ contextRecord x k (s.receives k))
  let m := putCells m (rowAddr t 16) (2048 * 1024) (s.sramCells t)
  let m := x.extended.foldl (fun m e => writeBytes m (rowAddr t e.1) e.2) m
  { s with mem := if x.sys.hnd then putCells m (rowAddr t 2145) 8192 (shiftCells s.mem (rowAddr t 0) 8192 (rowAddr t 2145)) else m }

/-- The lines of rows 8 to 15 and 2,064 to 2,152 that a save writes (R336, R346). -/
def contextLines (x : Tile) : Nat :=
  let up := fun n : Nat => (n + 63) / 64
  262 + (x.eng.df.toList.map fun f => up f.length).sum + (x.eng.q.toList.map fun f => up (4 * f.length)).sum
    + (if x.sys.hnd then 128 else 0)

/-! ### Suspension (R335, R336) -/

/-- Whether a suspending task has drained: every issued operation has finished, no fault waits to be raised, and every
marked line of its send windows is delivered (R335). -/
def State.suspendReady (s : State) (t : Nat) : Bool :=
  let x := s.tile t
  x.seq.phase == .suspending && x.quiet (s.icc t) && x.seq.checks.isEmpty && !s.windowLeft t

/-- The barrier state of a task that leaves its tile or stays on it suspended: the link interval as the cycles that it
has counted (R306, R340). -/
def Bar.frozen (b : Bar) (now : Nat) : Bar := { b with linkAt := now - b.linkAt }

/-- A drained task stays on its tile, suspended, because another context is saved there (R179, R336). -/
def State.parkInPlace (s : State) (t : Nat) : State :=
  let now := s.icc t
  let v := s.pointSnap t
  s.onTile t fun x =>
    ({ x with
      inPlace := true, kept := some (v.icc, v.vault), vault := { x.vault with keeper := true, deficit := [] }
      bar := x.bar.frozen now, sys := { x.sys with pre := false }
      seq := { x.seq with phase := .suspended } } : Tile).dropFalls

/-- What the hardware keeps of a task beside its rows of b31. -/
def Task.keeping (k : Task) (x : Tile) (now : Nat) (v : Snap) : Task :=
  let q := x.seq
  { k with captured := q.captured, capture := q.capture, after := q.after, closing := q.closing, preps := q.prepPend
           bar := x.bar.frozen now, vault := some (v.icc, v.vault), held := q.held, heldAt := q.heldAt, owed := q.owed, under := q.under
           floor := x.sys.divFloor, thrTo := x.sys.thrTo }

/-- A drained task's context is saved in its rows of b31, its banks are held, and its tile is left with no task; its target
entries stand there as its transfer will see them (R122, R179, R336 to R338). -/
def State.saveContext (s : State) (t : Nat) (k : Task) : State :=
  let now := s.icc t
  let v := s.pointSnap t
  let k := k.keeping (s.tile t) now v
  let s := (s.onTile t fun x =>
    { x with sys := { x.sys with pre := false }, seq := { x.seq with prepPend := [] } }).voidNotices t
  let x := s.tile t
  (s.withContext t k).setTile t ({ x with
    task := none, saved := some k, savedOwn := k.own, savedDq := x.eng.dq, busyTill := now + 32768 + contextLines x
    regs := { }, sys := { }, seq := { }, eng := { }, bar := { }, st := [], kept := none, inPlace := false
    vault := { x.vault with keeper := false, reads := [], deficit := [], sched := 0 } } : Tile).dropFalls

/-- CONTEXT_SAVE: after its drain a suspending task saves its context, its banks are held, and its tile is free once the
save has had its cycles; a task on a tile that holds another context stays in place (R335 to R338). Disabled before, and
for a task that takes its checkpoint path (log entry 7). -/
def execContextSave (t : Nat) (s : State) : Host.Outcome State Fault Refusal :=
  if t ≥ Config.tiles then .fault .noSuchPart
  else
    match (s.tile t).task with
    | none => .next s
    | some k =>
      if !s.suspendReady t || (k.disp && 2 ≤ k.cls && !k.holding) then .next s
      else if (s.tile t).saved.isSome then .next ((s.parkInPlace t).settled k.serial)
      else .next ((s.saveContext t k).settled k.serial)

/-- CHECKPOINT_PATH_ENTRY: after its drain, a task of a launch with disp = 1 that a pre-emption suspends goes on at its
variant's checkpoint entry (R341). Disabled before (log entry 7). -/
def execCheckpointPathEntry (t : Nat) (s : State) : Host.Outcome State Fault Refusal :=
  if t ≥ Config.tiles then .fault .noSuchPart
  else
    let x := s.tile t
    let now := s.icc t
    match x.task with
    | none => .next s
    | some k =>
      match s.variantOf k with
      | none => .next s
      | some v =>
        if !s.suspendReady t || !k.disp || k.cls < 2 || k.holding then .next s
        else
          let s := s.onTile t fun x =>
            { x with
              sys := { x.sys with pre := false, hnd := false }
              task := some { k with ckpt := true, point := 0 }
              seq := { x.seq with
                phase := .running, stall := .none, pc := v.ckpt, next := v.ckpt, after := [], closing := none
                inHand := false, issueNo := 0, hushed := false, calm := false, nextAt := now, captured := none, capture := false
                loops := x.seq.loops.map fun _ => { }, window := windowFrom (lineOf v.ckpt) now } }
          .next (s.onLaunch k.serial fun l => { l with ckpt := true })

/-! ### Restoring a task (R281, R339) -/

/-- The scalars, predicates and system registers of a frame (R150, R281). -/
def restoreScalars (x : Tile) (m : Memory) (base : Nat) : Tile :=
  let nat := fun off n => readNat m (base + off) n
  let ev := nat 0x938 8
  let div := nat 0x930 8
  let bit := fun (n k : Nat) => n / 2 ^ k % 2 == 1
  { x with
    regs := { x.regs with
      s := Vector.ofFn fun k : Fin 32 => if k.val = 0 then 0 else BitVec.ofNat 64 (nat (0x950 + 8 * k.val) 8)
      p := Vector.ofFn fun k : Fin 8 => k.val != 0 && bit (nat 0x948 8) k.val }
    sys := { x.sys with
      hnd := bit (nat 0x900 8) 2, fpsr := BitVec.ofNat 6 (nat 0x908 8), ftrapen := BitVec.ofNat 5 (nat 0x910 8)
      dfpsr := BitVec.ofNat 5 (nat 0x918 8), dtrapen := BitVec.ofNat 5 (nat 0x920 8), drm := BitVec.ofNat 3 (nat 0x928 8)
      div := #v[div % 16, div / 16 % 16, div / 256 % 16, div / 4096 % 16]
      thr := bit ev 2, rcls := bit ev 3, sfail := bit ev 4, v1p := bit ev 5, xp := bit ev 6 } }

/-- A tile as its saved context has it (R337 to R339); the code and the bank state are others' to restore. -/
def State.restoredTile (s : State) (t : Nat) (k : Task) (cost : Nat) : Tile :=
  let x := s.tile t
  let now := s.icc t
  let base := rowAddr t 8
  let rec' := rowAddr t 12
  let nat := fun off n => readNat s.mem (rec' + off) n
  let m := s.mem
  let q := fun i : Nat => (List.range (nat (0x40 + 2 * i) 2)).map fun j => BitVec.ofNat 32 (readNat m (rowAddr t (2081 + 16 * i) + 4 * j) 4)
  let df := fun i : Nat => readBytes m (rowAddr t (2073 + 4 * i)) (nat (0x4E - 2 * i) 2)
  let addr := readNat m (base + 8) 8 % 2 ^ 22
  let div := nat 0x18 8
  let tvec := nat 0x10 8
  let old := match k.vault with | some v => v.2 | none => x.vault
  let y : Tile := { x with
    task := some { k with vault := none, after := [], captured := none, lenient := ((s.receives k).map (·.2.lev)).dedup
                          held := [], heldAt := none, owed := [], under := none, preps := [] }
    saved := none, savedOwn := 0, savedDq := Vector.replicate 4 { }
    kept := k.vault
    bar := k.bar
    st := shiftCells m (rowAddr t 400) Config.stagingBytes 0
    eng := { q := Vector.ofFn fun i : Fin 4 => q i.val, df := Vector.ofFn fun i : Fin 2 => df i.val, dq := x.savedDq }
    regs := {
      v := cellsTable 8192 (rowAddr t 16) 1024 384 m
      acc := cellsTable 65536 (rowAddr t 1424) 8192 64 m
      m := Vector.ofFn fun i : Fin 16 => BitVec.ofNat 1024 (readNat m (rowAddr t 2064 + 128 * i.val) 128)
      opLatch := BitVec.ofNat 16384 (readNat m (rowAddr t 2066) 2048)
      opScales := BitVec.ofNat 1024 (readNat m (rowAddr t 2068) 128)
      wLatch := BitVec.ofNat 34816 (readNat m (rowAddr t 2068 + 128) 4352)
      wTag := BitVec.ofNat 4 (nat 0x48 8) }
    sys := { en := tvec % 2 == 1, handler := BitVec.ofNat 19 (tvec / 8), trec := BitVec.ofNat 12 (tvec / 2 ^ 32)
             divReq := #v[div % 16, div / 16 % 16, div / 256 % 16, div / 4096 % 16], divFloor := k.floor, thrTo := k.thrTo }
    vault := { x.vault with
      keeper := true, sched := old.sched
      layers := Vector.ofFn fun n : Fin 4 => (vget { } x.vault.layers n.val).resume old.sched (s.lcc t (1 + n.val)) }
    seq := { phase := .resuming, pc := addr, next := addr, last := addr, after := k.after, closing := k.closing
             captured := k.captured, capture := k.capture, held := k.held, heldAt := k.heldAt, owed := k.owed, under := k.under
             prepPend := k.preps, nextAt := now + cost
             window := windowFrom (lineOf addr) (now + cost) } }
  let y := restoreScalars (restoreFrom y m base now) m base
  let moved := effOf x.vault k.own != effOf old k.own
  let sick := y.vault.layers.toList.any fun l => l.sfail
  { y with sys := { y.sys with
    rcls := y.sys.rcls || moved
    sfail := y.sys.sfail || (sick && !(old.layers.toList.any fun l => l.sfail)) } }

/-- The task of a saved context goes back to its tile; a task in its handler gets its frames back too (R338, R339). -/
def State.restoreTile (s : State) (t : Nat) (k : Task) (cost : Nat) : State :=
  let x := s.restoredTile t k cost
  let m := if x.sys.hnd then putCells s.mem (rowAddr t 0) 8192 (shiftCells s.mem (rowAddr t 2145) 8192 (rowAddr t 0)) else s.mem
  { s.setTile t x with mem := m }

/-- A saved context discarded (R344). -/
def Tile.discard (x : Tile) : Tile :=
  { x with saved := none, savedOwn := 0, savedDq := Vector.replicate 4 { }, busyTill := 0 }

/-- A tile whose task is ordered to end: a hold's end lets nothing issue again, and a cancellation stops it at the next bundle, so that
the issues left of a repeating one in hand still go out (R342, R344). -/
def Tile.ceases (x : Tile) (st : LState) : Tile :=
  if x.seq.phase == .stopped || x.seq.phase == .halted then x
  else if st == .cancelled && x.seq.phase == .running && x.seq.inHand then { x with seq := { x.seq with ceasing := true, haltBy := none } }
  else x.closed

/-- The end of a launch by order: its tasks issue nothing again, its contexts are discarded, and it ends once what it has
issued has landed; the vault's sequencer keeps its banks till then (R342, R344). -/
def State.endLaunch (s : State) (serial : Nat) (st : LState) (code : Nat) : State :=
  match s.launch serial with
  | none => s
  | some l =>
    let s := { s with barriers := s.barriers.filter fun b => b.serial != serial }
    let s := s.onLaunch serial fun l => { l with endsAs := some (st, code) }
    let s := l.tiles.foldl (fun s t =>
      let s := if (s.tile t).saves serial then s.onTile t Tile.discard else s
      if (s.tile t).runs serial then (s.voidNotices t).onTile t (·.ceases st) else s) s
    s.concludes serial

/-- RESUME: each granted tile of a gang writes its code region again and restores its context; its banks are given back
when the gang issues. An uncorrectable error in a context stops its task with 0x74, and the launch is Failed. Disabled
before the grant, while an island's voltage is raised, and for what is restored already. A correctable error in a context is
counted (R176, R339, R366, R372, log entry 7). -/
def execResume (serial island : Nat) (err : Ecc) (s : State) : Host.Outcome State Fault Refusal :=
  if Config.islands ≤ island then .fault .noSuchPart
  else
    match s.launch serial with
    | none => .next s
    | some l =>
      let here := l.tiles.filter fun t => t / 16 == island && (s.tile t).saves serial
      if l.state != .resuming || !l.granted.contains island || here.isEmpty || !s.raised here then .next s
      else if err = .bad then .next ((s.reportFault 7 1 0x74 (here.headD 0)).endLaunch serial .failed 0x74)
      else
        let s := if err = .corrected then s.countCorrected (here.headD 0) storeContext else s
        .next (here.foldl (fun s t =>
        match (s.tile t).saved with
        | none => s
        | some k =>
          let old := match k.vault with | some v => v.2.sched.toNat | none => 2
          let code := match s.variantOf k with
            | some v => ((v.scheds.find? fun p => p.1 == old).map (·.2)).getD []
            | none => []
          let cost := codeLines code + 32768 + 262
          ((s.writeCode t code).restoreTile t k cost).postTo t) s)

/-! ### Restart (R281, R342) -/

/-- A stopped copy as it goes on from its prefix: the pages of the units that have performed stay translated, those past them are
translated again, and a unit that a host has to answer is sent anew (R268, R281, log entry 117). -/
def GCopy.restarted (g : GCopy) (pcc : Nat) : GCopy :=
  let n := g.prefixDone
  let had := g.leaves.filter fun l => (List.range n).any fun u => (g.ends u).any l.covers
  let g := { g with done := List.range n, fault := none, leaves := had, walked := n }
  let upto := match g.nextWalk with | some e => e.1 | none => g.units
  { g with walked := upto, sent := [(upto, pcc)] }

/-- The engines' operations once a stopped tile restarts: copies go on from their prefixes, and a faulting atomic is
performed again whole (R281). -/
def Engines.restarted (e : Engines) (pcc : Nat) : Engines :=
  { e with
    copies := e.copies.map (·.restarted pcc)
    atomics := e.atomics.map fun a => { a with stopped := false, leaf := none }
    vatomics := e.vatomics.map fun a => { a with stopped := false }
    acks := e.acks.map fun a => if a.failed then { a with failed := false, pcc := pcc } else a }

/-- The flights of a stopped atomic, again in flight (R281). -/
def Tile.revive (x : Tile) (a : Atomic) : Tile :=
  let fly := fun (x : Tile) (id reg : Nat) =>
    x.launchFlight { id := id, slot := 0, issue := a.issue, ready := never, bound := never, dests := [.s reg], writes := []
                     atomic := true }
  match a.kind, a.flight with
  | .scalar _ _ _ _ (some d), some id => if d = 0 then x else fly x id d
  | .line acc, _ => acc.foldl (fun x e => match e.flight with | some id => if e.reg = 0 then x else fly x id e.reg | none => x) x
  | _, _ => x

/-- A stopped or halted tile restarted from its frame. What has been announced since the stop stays in sr.event, and so do the
faults that no restarted operation finds again (R154, R172, R176, R179, R281, R294). -/
def State.restartedTile (s : State) (t : Nat) : Tile :=
  let x := s.tile t
  let now := s.icc t
  let base := rowAddr t (if x.sys.hnd then 4 else 0)
  let a := readNat s.mem (base + 8) 8 % 2 ^ 22
  let wait := s.frameWait t base
  let since := match x.seq.trap with | some r => (r.icc, r.pcc) | none => (now, s.pcc)
  let stopped := x.eng.atomics.filter (·.stopped)
  let live := x.sys
  let x := restoreScalars (resumeAt (restoreFrom x s.mem base now) s.mem base now) s.mem base
  let x := stopped.foldl Tile.revive x
  let h := s.headAt t a
  { x with
    frames := false, eng := x.eng.restarted s.pcc, bar := { x.bar with linkAt := since.1 - x.bar.linkAt }
    task := x.task.map fun k => { k with point := (match wait with | some w => w.2 + 1 | none => 0), holding := false }
    sys := { x.sys with pre := false, rcls := x.sys.rcls || live.rcls, sfail := x.sys.sfail || live.sfail }
    seq := { x.seq with
      phase := .resuming, stall := .none, nextAt := now + 1, checks := []
      faults := x.seq.faults.filter fun e => !isGlobalCode e.2.code
      yieldAt := since.1 - x.seq.yieldAt, replanAt := since.2 - x.seq.replanAt, last := a
      after := if wait.isSome then (postOps h t false).drop 1 else [] } }

/-- The state with tile `t` restarted. -/
def State.restartTile (s : State) (t : Nat) : State :=
  s.setTile t (s.restartedTile t)

/-- The state with a task that is suspended in its place resumed: its layers take the classes of a resumption, and a checked read of
an undelivered line stalls it (R179, R336, R340). -/
def State.resumeInPlace (s : State) (t : Nat) : State :=
  let ready := fun (k : Task) => { k with lenient := ((s.receives k).map (·.2.lev)).dedup }
  s.onTile t fun x =>
    { x with
      task := x.task.map ready
      vault := { x.vault with layers := Vector.ofFn fun n : Fin 4 =>
        (vget { } x.vault.layers n.val).resume x.vault.sched (s.lcc t (1 + n.val)) }
      seq := { x.seq with phase := .resuming, stall := .none, nextAt := s.icc t + 1, yieldAt := 0, replanAt := 0 } }

/-- Whether a tile's stop, its own or that of the member which halted it, can be restarted; any other has ended the task
(R281, R342). -/
def State.restarts (s : State) (t : Nat) : Bool :=
  let q := (s.tile t).seq
  (q.phase == .stopped || q.phase == .halted) && (match q.trap with | some r => restartable (s.gangCode r) | none => false)

/-- Whether a hold or a pre-emption has come to a member of a tile's gang: such a gang suspends whole, and resumes whole (R339,
R342). -/
def State.gangTold (s : State) (t serial : Nat) (l : Launch) : Bool :=
  l.tiles.any fun u => u / 16 == t / 16 && ((s.tile u).saves serial
    || ((s.tile u).runs serial && ((s.tile u).sys.pre || (s.tile u).seq.phase == .suspending || (s.tile u).inPlace
        || s.delivered.any fun e => e.1 == u && (e.2 == .hold || e.2 == .pre))))

/-- The state with the held launch `serial` restarted: its stopped and halted members from their frames, its
suspended-in-place ones where they stand. It resumes until every task has issued again. A notice on its way is void, but for a gang of
which a member has its own already (R281, R321, R342, log entry 120). -/
def State.restartGang (s : State) (serial : Nat) (l : Launch) : State :=
  let mine := l.tiles.filter fun t => (s.tile t).runs serial
  let down := mine.filter s.restarts
  let roles := (List.range l.roles).filter fun r => match l.tiles[r]? with | some t => down.contains t | none => false
  let s := { s with notices := s.notices.filter fun e =>
    !(mine.contains e.1 && (e.2.1 == .hold || e.2.1 == .pre) && !s.gangTold e.1 serial l) }
  let s := down.foldl State.restartTile s
  let s := (mine.filter fun t => (s.tile t).inPlace).foldl State.resumeInPlace s
  let waits := l.tiles.any fun t => (s.tile t).saves serial || ((s.tile t).runs serial && (s.tile t).seq.phase == .resuming)
  s.onLaunch serial fun l =>
    { l with stops := l.stops.filter fun r => !roles.contains r, hold := false, notified := false, parts := true
             state := if waits then .resuming else if l.ends.isEmpty then .running else .ending }

/-- GANG_RESTART: the owner restarts the stopped gangs of a held launch from their frames; the tasks that the hold
suspended resume, those kept in their places at once, the others as their tiles are available. Refused for a launch that
is not held, and while a task of it is still stopping (R281, R336, R342). -/
def execGangRestart (port serial : Nat) (s : State) : Host.Outcome State Fault Refusal :=
  if 2 ≤ port then .fault .noSuchPart
  else .next (s.asOwner port fun s =>
    match s.launch serial with
    | none => s.refuseTo port 0
    | some l =>
      if l.state != .held || l.tiles.any (fun t => (s.tile t).runs serial && (s.tile t).seq.phase == .trapping) then s.refuseTo port 0
      else (s.restartGang serial l).doneTo port)

/-- HOLD_END: the owner ends a held launch: every task of it ends, none raises 0x50, and it is Failed (R342). -/
def execHoldEnd (port serial : Nat) (s : State) : Host.Outcome State Fault Refusal :=
  if 2 ≤ port then .fault .noSuchPart
  else .next (s.asOwner port fun s =>
    match s.launch serial with
    | some l => if l.state == .held && l.endsAs.isNone then (s.endLaunch serial .failed 0).doneTo port else s.refuseTo port 0
    | none => s.refuseTo port 0)

/-- CANCEL: the owner cancels a launch that is not at its end: it leaves its queue, its contexts are discarded, its tiles
stop, and are released once what they have issued has landed, performed or faulted (R344). -/
def execCancel (port serial : Nat) (s : State) : Host.Outcome State Fault Refusal :=
  if 2 ≤ port then .fault .noSuchPart
  else .next (s.asOwner port fun s =>
    match s.launch serial with
    | some l => if l.state.final || l.endsAs.isSome then s.refuseTo port 0 else (s.endLaunch serial .cancelled 0).doneTo port
    | none => s.refuseTo port 0)

/-- Whether the frames of a tile can be released, and the tile with them: those of a held launch, which a restart needs, and of
one that has still to end stay (R342, R343). -/
def State.framesGo (s : State) (t : Nat) : Bool :=
  let x := s.tile t
  x.frames && (match x.task with
    | some k => (match s.launch k.serial with | some l => l.state != .held && l.endsAs.isNone | none => true)
    | none => true)

/-- FRAME_RELEASE: the owner releases the frames of a stopped task, and its tile (R343). -/
def execFrameRelease (port t : Nat) (s : State) : Host.Outcome State Fault Refusal :=
  if 2 ≤ port || t ≥ Config.tiles then .fault .noSuchPart
  else .next (s.asOwner port fun s =>
    if s.framesGo t then (s.releaseTile t).doneTo port else s.refuseTo port 0)

/-- Whether a tile has held the frames of a Failed launch for 1 s (R343). -/
def State.framesExpire (s : State) (t : Nat) : Bool :=
  let x := s.tile t
  x.frames && (match x.task.bind fun k => s.launch k.serial with
    | some l => l.state == .failed && (match l.leftAt with | some c => c + 1750000000 ≤ s.pcc | none => false)
    | none => false)

/-- FAILED_TILE_RELEASE_TIMEOUT: a tile whose frames nobody has released is released 1 s after its launch became Failed.
Disabled before (R343, log entry 7). -/
def execFailedTileReleaseTimeout (t : Nat) (s : State) : Host.Outcome State Fault Refusal :=
  if t ≥ Config.tiles then .fault .noSuchPart
  else .next (if s.framesExpire t then s.releaseTile t else s)

/-! ### Status (R345) -/

/-- An epoch report as the 16 bytes of a status record: code, kind of access and virtual address, then the accessing role, the
tag's role and E. The manual gives the fields and the size, not their places (R311, R345, log entry 93). -/
def EpochReport.words (r : EpochReport) : List Nat :=
  [r.code % 256 * 2 ^ 56 + r.kind % 16 * 2 ^ 52 + r.va % 2 ^ 52,
   r.role % 2048 * 2 ^ 53 + r.tagRole % 2048 * 2 ^ 42 + r.epoch % 2 ^ 42]

/-- The words of a launch's status record, its epoch reports and its fault reports; then a word that says whether the launch
waits for a page to be moved, and a word for each lost member, with its pod rank and role (R261, R301, R311, R345, log entry
93). -/
def Launch.status (l : Launch) (serial : Nat) : List Nat :=
  [l.state.code * 2 ^ 60 + l.code % 256 * 2 ^ 52 + l.stops.length * 2 ^ 41 + l.ends.length * 2 ^ 30 + l.frole % 2048 * 2 ^ 19,
   serial % 2 ^ 64, l.nrep % 2 ^ 32 * 2 ^ 32]
    ++ l.reports.flatMap EpochReport.words ++ (l.faults.flatMap fun f => [f.1, f.2]) ++ [l.waiting.toNat]
    ++ l.lost.map fun e => e.1 % 65536 * 2 ^ 11 + e.2 % 2048

/-- Whether a launch left the last running state 10 s ago: its record can be read no longer (R345). -/
def Launch.expired (l : Launch) (pcc : Nat) : Bool :=
  match l.leftAt with | some c => decide (c + 17500000000 ≤ pcc) | none => false

/-- Whether a port may read status and logs: the owner's and that of another node, with a verified session (R357, R359). -/
def State.mayRead (s : State) (port : Nat) : Bool := s.boot == .ready && s.heard port

/-- The frames of a launch's stopped task read through the status interface: rows 0 to 7 of b31 of its tile, which is free once
the owner has read them (R150, R343). -/
def State.readFrames (s : State) (port serial t : Nat) : State :=
  if !((s.tile t).runs serial && (s.tile t).frames) then s.refuseTo port 0
  else
    let s := s.tell port (.bytes (readBytes s.mem (rowAddr t 0) 8192))
    if s.commander = some port && s.framesGo t then s.releaseTile t else s

/-- LAUNCH_STATUS_READ: a launch's status, or the frames of one of its stopped tasks, is read until it is acknowledged or
expires (R343, R345, R357). A read outside a session is discarded and counted (R359). -/
def execLaunchStatusRead (port : Nat) (what : StatusRead) (s : State) : Host.Outcome State Fault Refusal :=
  if 2 ≤ port then .fault .noSuchPart
  else if !s.mayRead port then .next (if s.boot == .ready then s.logIt 5 3 port 0 else s)
  else match what with
    | .record serial => match s.launch serial with
      | some l => .next (if l.acked || l.expired s.pcc then s.refuseTo port 0 else s.tell port (.words (l.status serial)))
      | none => .next (s.refuseTo port 0)
    | .frames serial t => match s.launch serial with
      | some _ => .next (s.readFrames port serial t)
      | none => .next (s.refuseTo port 0)

/-- STATUS_ACK: the owner acknowledges the record of a launch at its end, which is kept no longer (R345). -/
def execStatusAck (port serial : Nat) (s : State) : Host.Outcome State Fault Refusal :=
  if 2 ≤ port then .fault .noSuchPart
  else .next (s.asOwner port fun s =>
    match s.launch serial with
    | some l => if l.state.final && !l.acked && !l.expired s.pcc then (s.onLaunch serial fun l => { l with acked := true }).doneTo port
      else s.refuseTo port 0
    | none => s.refuseTo port 0)

/-- STATUS_RECORD_EXPIRY: a record is discarded 10 s after its launch left the last running state. Disabled before (R345,
log entry 7). -/
def execStatusRecordExpiry (serial : Nat) (s : State) : Host.Outcome State Fault Refusal :=
  match s.launch serial with
  | some l => .next (if l.expired s.pcc then s.onLaunch serial fun l => { l with acked := true } else s)
  | none => .next s

end Sys2Proof.Machine
end

