-- ==== Sys2Proof/Machine/Ed448.lean ====
section
/-! DEFINITION. The signatures of the service processor (R5, R352 to R356): Ed448 by RFC 8032, with SHAKE256. A key is 57 bytes and
a signature 114, here as numbers with the first byte lowest (log entry 8). -/

namespace Sys2Proof.Machine

/-- The field's order 2^448 − 2^224 − 1, the order of the base point, and the curve's constant d = −39081. -/
def edField : Nat := 2 ^ 448 - 2 ^ 224 - 1
def edOrder : Nat := 2 ^ 446 - 0x8335dc163bb124b65129c96fde933d8d723a70aadc873d6d54a7bb0d
def edConst : Nat := edField - 39081

/-- A point of the curve x² + y² = 1 + d x² y², by projective coordinates. -/
structure EdPoint where
  x : Nat
  y : Nat
  z : Nat
  deriving DecidableEq, Repr

/-- The neutral point and the base point. -/
def EdPoint.zero : EdPoint := ⟨0, 1, 1⟩
def EdPoint.base : EdPoint :=
  ⟨224580040295924300187604334099896036246789641632564134246125461686950415467406032909029192869357953282578032075146446173674602635247710,
   298819210078481492676017930443930673437544040154080242095928241372331506189835876003536878655418784733982303233503462500531545062832660, 1⟩

/-- A difference in the field. -/
def edSub (a b : Nat) : Nat := (a + (edField - b % edField)) % edField

/-- The sum of two points; it is complete on this curve. -/
def EdPoint.add (p q : EdPoint) : EdPoint :=
  let a := p.z * q.z % edField
  let b := a * a % edField
  let c := p.x * q.x % edField
  let d := p.y * q.y % edField
  let e := edConst * (c * d % edField) % edField
  let f := edSub b e
  let g := (b + e) % edField
  let h := (p.x + p.y) * (q.x + q.y) % edField
  ⟨a * f % edField * edSub h (c + d) % edField, a * g % edField * edSub d c % edField, f * g % edField⟩

/-- A multiple of a point, by the lowest `n` bits of the factor. -/
def EdPoint.times (p : EdPoint) : Nat → Nat → EdPoint
  | 0, _ => .zero
  | n + 1, k =>
    let h := p.times n (k / 2)
    let h := h.add h
    if k % 2 = 1 then h.add p else h

/-- Whether two points are the same. -/
def EdPoint.same (p q : EdPoint) : Bool :=
  p.x * q.z % edField == q.x * p.z % edField && p.y * q.z % edField == q.y * p.z % edField

/-- A power in the field, by the lowest `n` bits of the exponent. -/
def edPower (a : Nat) : Nat → Nat → Nat
  | 0, _ => 1
  | n + 1, k =>
    let h := edPower a n (k / 2)
    let h := h * h % edField
    if k % 2 = 1 then h * a % edField else h

/-- A point as 57 bytes: y, and the lowest bit of x at the top. -/
def EdPoint.encode (p : EdPoint) : Nat :=
  let i := edPower p.z 448 (edField - 2)
  p.y * i % edField + p.x * i % edField % 2 * 2 ^ 455

/-- The point of 57 bytes; none where no point has that y. -/
def edDecode (w : Nat) : Option EdPoint :=
  let y := w % 2 ^ 455
  let sign := w / 2 ^ 455
  if edField ≤ y || 1 < sign then none
  else
    let u := edSub (y * y) 1
    let v := edSub (edConst * (y * y % edField)) 1
    let u3v := u * u % edField * u % edField * v % edField
    let u5v3 := u3v * (u * u % edField) % edField * (v * v % edField) % edField
    let x := u3v * edPower u5v3 448 ((edField - 3) / 4) % edField
    if v * (x * x % edField) % edField != u then none
    else if x = 0 && sign = 1 then none
    else some ⟨if x % 2 = sign then x else edField - x, y, 1⟩

/-- The SHAKE256 of some bytes with an output of 114 bytes, as a number. -/
def shake114 (bs : List Byte) : Nat := shake256 bs % 2 ^ 912

/-- What each hash of a signature begins with: the name SigEd448, and no context. -/
def edPrefix : List Byte := [0x53, 0x69, 0x67, 0x45, 0x64, 0x34, 0x34, 0x38, 0, 0]

/-- The secret scalar of a seed of 57 bytes, and the second half of its digest. -/
def edSecret (seed : Nat) : Nat × Nat :=
  let h := shake114 (leBytes 57 seed)
  (h % 2 ^ 447 / 4 * 4 + 2 ^ 447, h / 2 ^ 456)

/-- The public key of a seed (R354). -/
def ed448Public (seed : Nat) : Nat := (EdPoint.base.times 448 (edSecret seed).1).encode

/-- The number that binds a signature's point to its key and its message. -/
def edBinding (r key : Nat) (msg : List Byte) : Nat := shake114 (edPrefix ++ leBytes 57 r ++ leBytes 57 key ++ msg) % edOrder

/-- The signature of a message by the key of a seed (R355). -/
def ed448Sign (seed : Nat) (msg : List Byte) : Nat :=
  let (s, half) := edSecret seed
  let n := shake114 (edPrefix ++ leBytes 57 half ++ msg) % edOrder
  let r := (EdPoint.base.times 448 n).encode
  r + (n + edBinding r (ed448Public seed) msg * s) % edOrder * 2 ^ 456

/-- Whether a signature of a message holds under a key (R352, R353, R356): its equation taken four times, as RFC 8032 gives it. -/
def ed448Valid (key : Nat) (msg : List Byte) (sig : Nat) : Bool :=
  let r := sig % 2 ^ 456
  let s := sig / 2 ^ 456
  match edDecode key, edDecode r with
  | some a, some p =>
    s < edOrder
      && (EdPoint.base.times 448 (4 * s % edOrder)).same
        ((p.times 3 4).add ((a.times 448 (edBinding r key msg)).times 3 4))
  | _, _ => false

end Sys2Proof.Machine
end

