-- ==== Sys2Proof/Machine/Package.lean ====
section
/-! DEFINITION. Power, boot, attestation, ownership, the Lantern ports, the service processor's commands, sensors and
failures of the package (R178, R185, R347 to R366, R371, R374 to R380). -/

namespace Sys2Proof.Machine

/-! ### Power and boot (R349 to R354) -/

/-- POWER OFF: all state is lost; what the outside has been told, and what it will still do, stays (R348, R349). -/
def State.powerOff (s : State) : State :=
  { wakes := s.wakes, told := s.told, inbox := s.inbox, freeCtr := s.freeCtr + 1, nextId := s.nextId, pacing := s.pacing }

/-- A code of boot: told on the waking port, and logged (R351, R380). -/
def State.bootCode (s : State) (code : Nat) : State := (s.logIt 13 code s.waking 0).tell s.waking (.boot code)

/-- A boot that stops with a failure code on the waking port (R351). -/
def State.bootFails (s : State) (code : Nat) : State := { s.bootCode code with boot := .failed code }

/-- The codes of the stages passed. -/
def State.stages (s : State) (codes : List Nat) : State := codes.foldl State.bootCode s

/-- What stands in a configuration record before its signature, as bytes: the manual gives the items and their order, and the
size of the keys only (R352, log entry 94). -/
def recordBytes (r : ConfigRecord) : List Byte :=
  leBytes 4 r.version ++ leBytes 4 r.grade ++ r.trims ++ r.helper ++ leBytes 57 r.identity ++ leBytes 8 r.minFirmware
    ++ leBytes 1 r.cxl.toNat ++ r.keys.flatMap fun k => leBytes 57 k.1 ++ leBytes 1 k.2.toNat

/-- The SHAKE256 digest of some bytes with an output of 512 bits, as a number, the first byte lowest. -/
def digest512 (bs : List Byte) : Nat := shake256 bs % 2 ^ 512

/-- The digest that a signature covers, as its 64 bytes. -/
def digestBytes (bs : List Byte) : List Byte := leBytes 64 (digest512 bs)

/-- The seed of the identity key at a boot: the corrected value of the PUF, hashed to 57 bytes (R354). -/
def identitySeed (boot : Nat) (r : ConfigRecord) : Nat := shake256 (Config.pufValue boot (leNat r.helper)) % 2 ^ 456

/-- A firmware image with the version that it carries (R353, log entry 94). -/
def firmwareBytes (f : Firmware) : List Byte := leBytes 8 f.version ++ f.image

/-- The waking port: the one on which the wake pattern is seen first, or port 0 (R350). -/
def wakingPort : WakeOn → Nat
  | .one p => p
  | .both => 0

/-- WAKE_PATTERN: the wake pattern, seen first on a port, or on both within one detector period, which makes port 0 the waking
port, powers the package, whose boot passes the power, record and identity stages, each of which can stop it. A record with
more than 8 keys is none. Disabled while the package runs (R349 to R354, log entry 7). -/
def execWakePattern (on : WakeOn) (record : Option ConfigRecord) (railOk : Bool) (s : State) :
    Host.Outcome State Fault Refusal :=
  if 2 ≤ wakingPort on then .fault .noSuchPart
  else
    let go : Bool := match s.boot with | .off | .failed _ => true | _ => false
    if !go then .next s
    else
      let o := s.powerOff
      let p : Port := { up := true, had := true }
      let s := { o with wakes := o.wakes + 1, waking := wakingPort on
                        ports := if on = WakeOn.both then Vector.replicate 2 p else vset o.ports (wakingPort on) p }
      if !railOk then .next (s.bootFails 0x81)
      else
        let s := s.stages [1]
        match record with
        | none => .next (s.bootFails 0x82)
        | some r =>
          if 8 < r.keys.length || !ed448Valid Config.vendorKey (digestBytes (recordBytes r)) r.sig then .next (s.bootFails 0x82)
          else if !Config.recordVersion r.version then .next (s.bootFails 0x83)
          else
            let s := { s with record := some r }.stages [2]
            if ed448Public (identitySeed s.wakes r) ≠ r.identity then .next (s.bootFails 0x84)
            else .next { s.stages [3] with boot := .firmware }

/-- The most second-tier frames of 64 KiB that can be installed: 3,072 GB (R5, R371). -/
def maxCapacity : Nat := 46875000

/-- FIRMWARE_PUSH: a firmware image is verified; one that fails is discarded and reported on the waking port, and another is
awaited on either port. Then self-test forms the defect map and the package is ready. Disabled outside the firmware stage, on a port
without light, and for the first image on the other port than the waking one (R5, R351, R353, R371, R374, log entry 7). -/
def execFirmwarePush (port : Nat) (fw : Firmware) (found : SelfTest) (s : State) : Host.Outcome State Fault Refusal :=
  if 2 ≤ port then .fault .noSuchPart
  else
    match s.boot, s.record with
    | .firmware, some r =>
      if !(vget { } s.ports port).up || (port != s.waking && !s.pushRefused) then .next s else
      let code := if !ed448Valid Config.vendorKey (digestBytes (firmwareBytes fw)) fw.sig then 0x85
        else if fw.version < r.minFirmware then 0x86
        else if 0x1000000 < fw.image.length then 0x87
        else 0
      if code ≠ 0 then .next { s.bootCode code with pushRefused := true }
      else
        let vaults := found.vaults.filter (· < Config.tiles)
        let s := vaults.foldl (fun s t => s.onVault t fun v => { v with failed := true }) s
        let links := found.links.filter (· < 16)
        .next ({ s with
          firmware := some fw, boot := .ready
          badTiles := found.tiles.filter (· < Config.tiles), badVaults := vaults, badLinks := links
          links := Vector.ofFn fun k : Fin 16 => { up := !links.contains k.val }
          capacity := min maxCapacity found.capacity }.stages [4, 5, 6])
    | _, _ => .next s

/-- LIGHT_REMOVAL_TIMEOUT: light gone from both ports for 1 s ends the hold of a stopped boot (R351). Disabled otherwise
(log entry 7). -/
def execLightRemovalTimeout (s : State) : Host.Outcome State Fault Refusal :=
  let dark := s.ports.toList.all fun p => !p.up && (match p.lostAt with | some c => c + 1750000000 ≤ s.pcc | none => true)
  match s.boot with
  | .failed _ => .next (if dark then s.powerOff else s)
  | _ => .next s

/-- A reset that has been ordered removes power once every launch has come to its end (R344, R349). -/
def State.resets (s : State) : State :=
  if s.resetting && s.launches.all (fun e => e.2.state.final) then s.powerOff else s

/-- PACKAGE_RESET: the owner's reset cancels every launch, and then removes power (R349). -/
def execPackageReset (port : Nat) (s : State) : Host.Outcome State Fault Refusal :=
  if 2 ≤ port then .fault .noSuchPart
  else .next (s.asOwner port fun s =>
    State.resets { (s.launches.filter fun e => !e.2.state.final).foldl (fun s e => s.endLaunch e.1 .cancelled 0) s with
      resetting := true })

/-- The service lamp (R351, R379). -/
inductive Lamp where
  | dark | lit | flashing (hertz : Nat)
  deriving DecidableEq, Repr

/-- What the service lamp shows: it flashes at 2 Hz where boot has stopped, and is lit while the service request is set
(R351, R379). -/
def State.lamp (s : State) : Lamp :=
  match s.boot with
  | .failed _ => .flashing 2
  | .ready => if s.svc != 0 then .lit else .dark
  | _ => .dark

/-! ### Attestation and ownership (R355 to R358) -/

/-- The bytes of a quote before its signature (R355). -/
def State.quoteBytes (s : State) (port nonce : Nat) : List Byte :=
  let r := match s.record with | some r => (digest512 (recordBytes r ++ leBytes 114 r.sig), r.identity) | none => (0, 0)
  let fw := match s.firmware with | some f => digest512 (firmwareBytes f) | none => 0
  leBytes 8 (2 ^ 56 + port * 2 ^ 48) ++ leBytes 32 nonce ++ leBytes 64 Config.maskRomDigest ++ leBytes 64 r.1
    ++ leBytes 64 fw ++ leBytes 8 s.signature.toNat ++ leBytes 8 (Config.bootNonce s.wakes) ++ leBytes 57 r.2
    ++ leBytes 7 0

/-- QUOTE_REQUEST: a node on a lit port receives a quote signed under the identity key, and its port a session key (R354,
R355). Disabled before attestation is accepted (R351, log entry 7). -/
def execQuoteRequest (port nonce : Nat) (s : State) : Host.Outcome State Fault Refusal :=
  if 2 ≤ port then .fault .noSuchPart
  else
    let p := vget { } s.ports port
    match s.boot, s.record with
    | .ready, some r =>
      if !p.up then .next s
      else
        let bytes := s.quoteBytes port nonce
        let sig := ed448Sign (identitySeed s.wakes r) (digestBytes bytes)
        let s := { s with ports := vset s.ports port { p with session := some (Config.sessionKey s.wakes port nonce) } }
        .next (s.tell port (.quote [leNat bytes, sig]))
    | _, _ => .next s

/-- What a claim signs: the boot nonce and the identity public key (R356). -/
def State.claimText (s : State) : List Byte :=
  leBytes 8 (Config.bootNonce s.wakes) ++ leBytes 57 (match s.record with | some r => r.identity | none => 0)

/-- Whether a port's node may claim with a key: without an owner, or with the key that a handover names, or once the
owner's link has been reported lost and is still down; of two claims on one cycle port 0's wins (R356, R358). -/
def State.mayClaim (s : State) (port key : Nat) : Bool :=
  match s.owner with
  | none => true
  | some o =>
    (o != port && ((match s.handover with | some h => h.1 == key && s.pcc < h.2 | none => false)
      || (let p := vget { } s.ports o; p.lossTold && !p.up)))
    || (o == 1 && port == 0 && (match s.ownerWas with | some (c, was, _) => c == s.pcc && was.isNone | none => false))

/-- CLAIM: a claim that verifies under a listed key makes its node the owner, where one may be made; any other is
reported or refused on its port, and one outside a session is discarded and counted (R356, R358, R359, R381). -/
def execClaim (port key sig : Nat) (s : State) : Host.Outcome State Fault Refusal :=
  if 2 ≤ port then .fault .noSuchPart
  else
    match s.boot, s.record with
    | .ready, some r =>
      if !s.heard port then .next (s.logIt 5 3 port 0) else
      match r.keys.find? fun k => k.1 == key with
      | none => .next (s.refuseTo port 1)
      | some (_, sec) =>
        if !ed448Valid key s.claimText sig then .next (s.refuseTo port 1)
        else if !s.mayClaim port key then .next (s.refuseTo port 2)
        else
          let was := match s.ownerWas with
            | some e => if e.1 = s.pcc then e else (s.pcc, s.owner, s.ownerSecure)
            | none => (s.pcc, s.owner, s.ownerSecure)
          let s := { s with
            owner := some port, ownerSecure := sec, handover := none, ownerWas := some was
            ports := vset s.ports port { vget ({ } : Port) s.ports port with key := some key } }
          .next (s.doneTo port)
    | _, _ => .next s

/-- HANDOVER: the owner names the key of another node, which may claim within 1 s (R358). -/
def execHandover (port key : Nat) (s : State) : Host.Outcome State Fault Refusal :=
  if 2 ≤ port then .fault .noSuchPart
  else .next (s.asOwner port fun s => ({ s with handover := some (key, s.pcc + 1750000000) }).doneTo port)

/-- HANDOVER_TIMEOUT: a handover not claimed within 1 s lapses (R358). Disabled before (log entry 7). -/
def execHandoverTimeout (s : State) : Host.Outcome State Fault Refusal :=
  match s.handover with
  | some h => .next (if h.2 ≤ s.pcc then { s with handover := none } else s)
  | none => .next s

/-- OWNER_LINK_LOSS_TIMEOUT: the owner's link has been down for 2 s, and the other node is told that it may claim (R358).
Disabled before (log entry 7). -/
def execOwnerLinkLossTimeout (s : State) : Host.Outcome State Fault Refusal :=
  match s.owner with
  | none => .next s
  | some o =>
    let p := vget { } s.ports o
    let due := match p.lostAt with | some c => c + 3500000000 ≤ s.pcc | none => false
    if p.up || p.lossTold || !due then .next s
    else .next (({ s with ports := vset s.ports o { p with lossTold := true } }).logIt 5 2 o 0 |>.tell (1 - o) (.warning 5 o))

/-! ### Lantern ports (R359, R360, R378) -/

/-- LANTERN_LINK_LOSS: a port loses its link, and lan is set (R358, R378). -/
def execLanternLinkLoss (port : Nat) (s : State) : Host.Outcome State Fault Refusal :=
  if 2 ≤ port then .fault .noSuchPart
  else
    let p := vget { } s.ports port
    if !p.up then .next s
    else
      let s := { s with ports := vset s.ports port { p with up := false, lostAt := some s.pcc, lossTold := false } }
      .next (if s.boot = .ready then s.reportFault 2 4 port port else s)

/-- LANTERN_LINK_RETURN: a port has its link again; an owner whose link returns before another claim is verified remains
the owner (R358, R379). Disabled without power (log entry 7). -/
def execLanternLinkReturn (port : Nat) (s : State) : Host.Outcome State Fault Refusal :=
  if 2 ≤ port then .fault .noSuchPart
  else if s.boot = .off then .next s
  else
    let p := vget { } s.ports port
    .next { s with ports := vset s.ports port { p with up := true, had := true, lostAt := none, lossTold := false } }

/-- A record of the service log as its 32 bytes; the detail is a number of 16 (R380). -/
def LogRec.bytes (r : LogRec) : List Byte :=
  leBytes 8 r.pcc ++ leBytes 2 r.source ++ leBytes 2 r.code ++ leBytes 4 r.place ++ leBytes 16 r.detail

/-- LANTERN_MESSAGE: a message that does not authenticate under its port's session key is discarded and counted; a command
of a node that is not the owner is refused and reported to both; the service status and the service log, with its count of
overwritten records, are read by any node with a session (R357, R359, R378, R380). What an accepted command does is the step
that names it, and that step discards a command of a port without a session. -/
def execLanternMessage (port message : Nat) (use : LanternUse) (s : State) : Host.Outcome State Fault Refusal :=
  if 2 ≤ port then .fault .noSuchPart
  else if s.boot != .ready then .next s
  else
    let good := s.heard port
      && (match (vget { } s.ports port).session with | some k => Config.gcmValid k message | none => false)
    if !good then .next (s.logIt 5 3 port 0)
    else .next (match use with
      | .command => s.asOwner port id
      | .throttle islands c m v k => s.asOwner port fun s => (s.throttleAll islands #v[c, m, v, k]).doneTo port
      | .service => s.tell port (.words [s.svc.toNat])
      | .log => s.tell port (.bytes (leBytes 4 s.overwritten ++ s.log.flatMap LogRec.bytes))
      | .other => s)

/-- PTP_MESSAGE: a message of the owner's port disciplines sr.ptp: an offset above 1 µs by a step, a smaller one by a slew
(R360). Disabled on another port (log entry 7). -/
def execPtpMessage (port sec ns : Nat) (s : State) : Host.Outcome State Fault Refusal :=
  if 2 ≤ port then .fault .noSuchPart
  else if s.boot != .ready || s.owner != some port || 1000000000 ≤ ns then .next s
  else
    let now : Nat := sec % 2 ^ 34 * 1000000000 + ns
    let off := (now : Int) - (s.ptpNs : Int)
    .next (if 1000 < off.natAbs then { s with ptpNs := now, ptpFrac := 0, ptpSlew := 0 } else { s with ptpSlew := off })

/-- HOST_WINDOW_OPEN: the owner opens one of up to 64 host windows (R360). -/
def execHostWindowOpen (port base size node : Nat) (s : State) : Host.Outcome State Fault Refusal :=
  if 2 ≤ port then .fault .noSuchPart
  else .next (s.asOwner port fun s =>
    if 64 ≤ s.windows.length || size = 0 || 2 ^ 36 < base + size then s.refuseTo port 0
    else ({ s with windows := s.windows ++ [(base, size, node)] }).doneTo port)

/-! ### Owner commands (R361, R362) -/

/-- TABLE_CACHE_INVALIDATE: each stack drops what it has cached of a root for a virtual range (R257, R361). -/
def execTableCacheInvalidate (port : Nat) (root : Word) (lo hi : Nat) (s : State) : Host.Outcome State Fault Refusal :=
  if 2 ≤ port then .fault .noSuchPart
  else .next (s.asOwner port fun s =>
    ({ s with caches := s.caches.filter fun c =>
        !(c.2.1 == root && c.2.2.va ≤ hi && lo < c.2.2.va + 2 ^ levelShift c.2.2.level) }).reportDone port)

/-- WRITER_TAG_CLEAR: the tags of the lines of a range of pooled frames become zero (R308, R361). -/
def execWriterTagClear (port lo hi : Nat) (s : State) : Host.Outcome State Fault Refusal :=
  if 2 ≤ port then .fault .noSuchPart
  else .next (s.asOwner port fun s =>
    ({ s with tags := s.tags.filter fun e => e.1 / 1024 < lo || hi < e.1 / 1024 }).reportDone port)

/-- LAMPLIGHTER_WRITE: the configuration word and the phase table are written, or refused whole where an entry is at or
above the phase count; a launch whose snapshot is still to be taken takes them (R296, R297, R325, R361). -/
def execLamplighterWrite (port : Nat) (word : Word) (phases : List (BitVec 5)) (s : State) :
    Host.Outcome State Fault Refusal :=
  if 2 ≤ port then .fault .noSuchPart
  else .next (s.asOwner port fun s =>
    let ps := (phases ++ List.replicate 96 0).take 96
    if ps.any fun p => bitsOf word 63 59 < p.toNat then s.refuseTo port 0
    else
      let w := word &&& 0xFFF8000000000000
      (({ s with lampWord := w, phases := ps }).onWriting fun l => { l with word := w, phases := ps }).doneTo port)

/-- KEY_LOAD: a wrapped key is unwrapped under the session key into a slot; slots 0 to 255 need secure rights
(R258, R361). -/
def execKeyLoad (port slot wrapped : Nat) (s : State) : Host.Outcome State Fault Refusal :=
  if 2 ≤ port || 4096 ≤ slot then .fault .noSuchPart
  else .next (s.asOwner port fun s =>
    let key := ((vget { } s.ports port).session).bind fun k => Config.unwrapKey k wrapped
    match key with
    | some k => if slot < 256 && !s.rights then s.refuseTo port 0
      else ({ s with keys := insertAt slot k s.keys }).doneTo port
    | none => s.refuseTo port 0)

/-- KEY_ERASE: a slot becomes empty (R361). -/
def execKeyErase (port slot : Nat) (s : State) : Host.Outcome State Fault Refusal :=
  if 2 ≤ port || 4096 ≤ slot then .fault .noSuchPart
  else .next (s.asOwner port fun s => ({ s with keys := dropAt slot s.keys }).doneTo port)

/-- Whether an entry of a region table covers a frame of a tier (R362). -/
def regionCovers (w0 w1 : Word) (tier frame : Nat) : Bool :=
  w0.getLsbD 63 && bitsOf w0 60 59 == tier && bitsOf w0 35 0 ≤ frame && frame ≤ bitsOf w1 35 0

/-- The frames that accesses in flight have resolved, or will reach by the tables as they stand (R361, R362). -/
def State.inFlight (s : State) : List (Nat × Nat) :=
  s.tiles.flatMap fun e =>
    let x := e.2
    let walked := fun (va : Nat) => match (s.walk (stackOf e.1) (s.rootOf e.1) va).1 with
      | .ok l => [(l.tier, l.phys va / 65536)]
      | .error _ => []
    let meets := fun (l : Option Leaf) (va : Nat) => match l with
      | some l => [(l.tier, l.phys va / 65536)]
      | none => walked va
    (x.eng.copies.flatMap fun g => (List.range g.units).flatMap fun u =>
        if g.done.contains u then [] else (g.ranges u).flatMap fun r => meets (g.leafAt r.1) r.1)
      ++ (x.eng.atomics.flatMap fun a => meets a.leaf a.va)
      ++ x.eng.vatomics.flatMap fun a => a.lanes.flatMap fun p => walked p.2.1

/-- REGION_WRITE: one entry of a stack's region table is written; refused for a tier that has none, and while an access to
the region is in flight, to the one that the entry held or to the one that it is to hold (R361, R362, log entry 133). -/
def execRegionWrite (port stack index : Nat) (w0 w1 : Word) (s : State) : Host.Outcome State Fault Refusal :=
  if 2 ≤ port || 4 ≤ stack || 64 ≤ index then .fault .noSuchPart
  else .next (s.asOwner port fun s =>
    let n := stack * 64 + index
    let old := look (0, 0) n s.regions
    let busy := s.inFlight.any fun f => regionCovers w0 w1 f.1 f.2 || regionCovers old.1 old.2 f.1 f.2
    if 2 ≤ bitsOf w0 60 59 || busy then s.refuseTo port 0
    else ({ s with regions := insertAt n (w0 &&& 0xF800000FFFFFFFFF, w1 &&& 0xFFFFFFFFF) s.regions }).doneTo port)

/-- WORLD_ASSIGN: the world of a free tile, or of a port, is set (R361). -/
def execWorldAssign (port : Nat) (which : WorldOf) (secure : Bool) (s : State) : Host.Outcome State Fault Refusal :=
  if 2 ≤ port then .fault .noSuchPart
  else .next (s.asOwner port fun s =>
    match which with
    | .tile g =>
      if Config.tiles ≤ g || !s.idle g || (s.tile g).saved.isSome then s.refuseTo port 0
      else (s.onTile g fun x => { x with secure := secure }).doneTo port
    | .port p =>
      if 2 ≤ p then s.refuseTo port 0
      else ({ s with ports := vset s.ports p { vget ({ } : Port) s.ports p with secure := secure } }).doneTo port)

/-- ROUTE_WRITE: the MX routes, each a rank with its link and hops, and the barrier tree, for launches bound after it
(R361, R368). -/
def execRouteWrite (port : Nat) (routes : List (Nat × Nat × Nat)) (parent : Option Nat) (hops : Nat) (s : State) :
    Host.Outcome State Fault Refusal :=
  if 2 ≤ port then .fault .noSuchPart
  else .next (s.asOwner port fun s =>
    (({ s with routes := routes, parent := parent, hops := hops }).onWriting fun l =>
      { l with routes := routes, parent := parent, hops := hops }).doneTo port)

/-! ### Operating points (R364 to R366) -/

/-- Whether a grant on an island waits for its task to be bound or restored. -/
def State.grantWaits (s : State) (i : Nat) : Bool :=
  (islandTiles i).any fun t => (s.grantedTo t).isSome
    || ((s.tile t).task.isSome && ((s.tile t).seq.phase == .starting || (s.tile t).seq.phase == .resuming))

/-- OPERATING_POINT_REQUEST: a request starts a ramp, or is held while one is in progress or another waits to start; the latest wins.
In place of a point the owner may send the word with bit 52 set, which clears sup, whose access is W1C (R364 to R366, log entry
91). -/
def execOperatingPointRequest (port island point : Nat) (s : State) : Host.Outcome State Fault Refusal :=
  if 2 ≤ port || Config.islands ≤ island then .fault .noSuchPart
  else .next (s.asOwner port fun s =>
    let x := s.island island
    if point = 2 ^ 52 then (s.setPoint island { x with sup := false }).doneTo port
    else if 6 ≤ point then s.refuseTo port 0
    else if x.tgt != x.cur || x.step.isSome || x.hv then (s.holdRequest island point).doneTo port
    else (s.startRamp island point).doneTo port)

/-- A held request that starts: the ramp before it has ended, and no grant waits on the island (R365, R366). -/
def State.startHeld (s : State) (i : Nat) : State :=
  let x := s.island i
  if !x.hv || x.tgt != x.cur || x.step.isSome || s.grantWaits i then s
  else (s.setPoint i { x with hv := false }).startRamp i x.held

/-- VOLTAGE_STEP_COMPLETE: an island's voltage has settled: upwards the new point's floors are posted, and the ramp ends, also where a
grant has ended a ramp down whose floors have been posted already;
downwards the step waits until every task has applied the floors. The change is reported with the word, and then a held
request starts. Disabled otherwise (R364 to R366, log entry 7). -/
def execVoltageStepComplete (island : Nat) (s : State) : Host.Outcome State Fault Refusal :=
  if Config.islands ≤ island then .fault .noSuchPart
  else
    let x := s.island island
    if x.tgt == x.cur && x.step.isNone then .next (s.startHeld island)
    else
      let done := if x.cur < x.tgt then s.applied island x.tgt
        else match x.step with | some c => c ≤ s.pcc | none => false
      if !done then .next s
      else
        let up := x.floors != pointFloors x.tgt
        let s := s.setPoint island { x with cur := x.tgt, step := none }
        .next ((if up then s.postFloors island x.tgt else s).startHeld island)

/-! ### Service status (R378, R379) -/

/-- The bits whose causes hold (R379). -/
def State.causes (s : State) : BitVec 8 :=
  let layers := fun (p : Layer → Bool) => s.tiles.any fun e => e.2.vault.layers.toList.any p
  let bit := fun (k : Nat) (b : Bool) => if b then BitVec.twoPow 8 k else 0
  bit 6 (s.tiles.any fun e => e.2.vault.failed)
    ||| bit 5 (layers fun l => l.lostOwn || l.lostShadow)
    ||| bit 4 ((layers (·.sfail)) || s.isl.any fun e => e.2.failed)
    ||| bit 3 (s.links.toList.any fun l => !l.up)
    ||| bit 2 (s.ports.toList.any fun p => p.had && !p.up)
    ||| bit 1 (!s.unitsDown.isEmpty)
    ||| bit 0 ((layers fun l => l.warn == 3) || s.isl.any fun e => match e.2.reading with | some r => 380 ≤ r | none => false)

/-- SERVICE_CLEAR: the bits written as 1 clear, but for those set on this cycle; a cause that still holds sets its bit
again on the next pcc cycle (R361, R379). -/
def execServiceClear (port : Nat) (bits : BitVec 8) (s : State) : Host.Outcome State Fault Refusal :=
  if 2 ≤ port then .fault .noSuchPart
  else .next (s.asOwner port fun s => ({ s with svc := s.svc &&& ~~~(bits &&& ~~~s.svcNew) }).doneTo port)

/-! ### Sensors and failures (R185, R347, R348, R371, R375 to R377) -/

/-- The stack of an island (R5). -/
def stackOfIsland (i : Nat) : Nat := i / 24

/-- An island's compute-die sensor gives a reading in quarter degrees, or none; in place of a failed one stands its stack's
base-die reading, with 10 °C added. Warnings are reported at 95 °C and 105 °C; two reads of 115 °C in a row are the thermal
trip. The criteria of a failed sensor are tested (R180, R347, R348, R377). -/
def State.computeRead (s : State) (island : Nat) (reading : Option Int) : State :=
  let x := s.island island
  let base := find (stackOfIsland island) s.baseDie
  match if x.failed then base.map (· + 40) else reading with
  | none => s.setIsland island { x with hot := 0, suspect := x.suspect || (!x.failed && 175000 ≤ s.pcc - x.readAt) }
  | some r =>
    let jump := match x.reading with | some o => 8 < (r - o).natAbs | none => false
    let same := x.reading == some r
    let stuck := same && stuckAt (s.pcc - x.stillSince) x.beside base
    let bad := !x.failed && (r < -80 || 520 < r || jump || stuck)
    let hot := if 460 ≤ r then x.hot + 1 else 0
    let s := s.setIsland island { x with
      reading := some r, readAt := s.pcc, hot := hot, suspect := x.suspect || bad
      stillSince := if same then x.stillSince else s.pcc, beside := if same then x.beside.or base else base }
    if 2 ≤ hot then
      let lit := [0, 1].filter fun p => (vget { } s.ports p).up
      (lit.foldl (fun s p => s.tell p (.warning 2 island)) s).powerOff
    else if 420 ≤ r then s.reportFault 0 2 105 island
    else if 380 ≤ r then s.reportFault 0 2 95 island
    else s

/-- COMPUTE_SENSOR_READ: a compute-die sensor, or the base-die sensor of a stack, is read (R347, R348, R377). A vault layer's
sensor is read by VAULT_SENSOR_READ. -/
def execComputeSensorRead (which : Sensor) (reading : Option Int) (s : State) : Host.Outcome State Fault Refusal :=
  match which with
  | .layer _ _ => .fault .noSuchPart
  | .compute island =>
    if Config.islands ≤ island then .fault .noSuchPart
    else if s.boot = .off then .next s
    else .next (s.computeRead island reading)
  | .base stack =>
    if 4 ≤ stack then .fault .noSuchPart
    else if s.boot = .off then .next s
    else .next (match reading with
      | some r => { s with baseDie := insertAt stack r s.baseDie }
      | none => { s with baseDie := dropAt stack s.baseDie })

/-- SECOND_TIER_DOWN: a channel or a port of the second tier goes down (R371, R378). Disabled for one that the package
does not have (log entry 7). -/
def execSecondTierDown (unit : Nat) (s : State) : Host.Outcome State Fault Refusal :=
  let n := match s.record with | some r => if r.cxl then 4 else 24 | none => 24
  if s.boot != .ready || n ≤ unit || s.unitsDown.contains unit then .next s
  else .next ({ s with unitsDown := s.unitsDown ++ [unit] }.reportFault 1 9 unit unit)

/-- A vault reported failed: the defect map changes; a bound task takes 0x15 at its next bundle; a suspended task whose
context lies there cannot resume, and its launch fails (R374, R376). -/
def State.failVault (s : State) (t : Nat) : State :=
  if (s.tile t).vault.failed then s
  else
    let s := (s.onVault t fun v => { v with failed := true }).reportFault 6 10 0x15 t
    let s := { s with badVaults := s.badVaults ++ [t] }
    let s := if (s.tile t).task.isSome then s.found t { trapOf 0xE 0x15 with word := constraintWord 0x16 0 0 0 0 0 0 0 0 } else s
    match (s.tile t).saved with
    | none => s
    | some k =>
      match s.launch k.serial with
      | none => s
      | some l =>
        if l.tiles.all fun u => !(s.tile u).runs k.serial then s.endLaunch k.serial .failed 0x15
        else
          let s := s.onTile t Tile.discard
          let s := s.onLaunch k.serial fun l => { l with stops := l.stops ++ [k.role], code := if l.code = 0 then 0x15 else l.code }
          (s.roleLost k.serial k.role).finish k.serial

/-- VAULT_FAILURE: R376. -/
def execVaultFailure (t : Nat) (s : State) : Host.Outcome State Fault Refusal :=
  if t ≥ Config.tiles then .fault .noSuchPart
  else if s.boot != .ready then .next s
  else .next (s.failVault t)

/-- REMAP_COPY_LOSS: one copy of a layer's remap table is lost and reported; with both lost the vault has failed
(R375). -/
def execRemapCopyLoss (t layer : Nat) (shadow : Bool) (s : State) : Host.Outcome State Fault Refusal :=
  if t ≥ Config.tiles || 4 ≤ layer then .fault .noSuchPart
  else if s.boot != .ready then .next s
  else
    let lose := fun (l : Layer) => if shadow then { l with lostShadow := true } else { l with lostOwn := true }
    let s := s.onVault t fun v => { v with layers := vset v.layers layer (lose (vget { } v.layers layer)) }
    let l := vget { } (s.tile t).vault.layers layer
    let s := s.reportFault 5 11 layer (t * 4 + layer)
    .next (if l.lostOwn && l.lostShadow then s.failVault t else s)

/-- ISLAND_CLOCK_STRETCH: the present island cycle of an island is stretched over a second reference period, for all its
tiles, at most one in any 16 (R8, R185). Disabled sooner (log entry 7). -/
def execIslandClockStretch (island : Nat) (s : State) : Host.Outcome State Fault Refusal :=
  if Config.islands ≤ island then .fault .noSuchPart
  else
    let x := s.island island
    let now := s.icc (16 * island)
    let near := match x.stretchAt with | some c => now < c + 16 | none => false
    if s.boot != .ready || near then .next s
    else .next (s.setIsland island { x with due := true, stretchAt := some now })

end Sys2Proof.Machine
end

