-- ==== Sys2Proof/Machine/Windows.lean ====
section
/-! DEFINITION. Accesses from outside: node windows, peer accesses, the decompressing aperture; and the MX links
(R262, R317, R360, R367 to R370). -/

namespace Sys2Proof.Machine

/-! ### Accesses by virtual address (R256, R262, R360) -/

/-- The checks of R256 on the leaf of an access from outside. A secure region of any stack's table is closed to it (R360, R362). -/
def State.outsideDenied (s : State) (secure : Bool) (w : Want) (l : Leaf) (va : Nat) : Option Nat :=
  if !secure && s.regionHas none l.tier (l.phys va / 65536) 62 then some 0x24 else s.leafFault 0 secure w l va

/-- The leaf of an outside access to one address, or the code it is refused with: the walk and the checks of R256, then
the formats that only the aperture serves, then the failures at the home (R262). A write through a leaf with wr = 0 is refused with
0x21, an owner's too (log entry 128). -/
def State.outsideLeaf (s : State) (root : Word) (secure writes : Bool) (va : Nat) : Except Nat Leaf :=
  match (s.walk 0 root va).1 with
  | .error e => .error e
  | .ok l =>
    match s.outsideDenied secure { writes := writes } l va with
    | some e => .error e
    | none =>
      if [7, 8, 9, 10].contains l.fmt then .error 0x22
      else match s.homeFault l va with
        | some e => .error e
        | none => .ok l

/-- The parts of a range by 64-byte lines: address and length. -/
def linesOf (va n : Nat) : List (Nat × Nat) :=
  if n = 0 then []
  else (List.range ((va + n - 1) / 64 - va / 64 + 1)).map fun k =>
    let a := max va ((va / 64 + k) * 64)
    (a, min (va + n) ((va / 64 + k + 1) * 64) - a)

/-- The first refusal of an outside access to a range. -/
def State.outsideFault (s : State) (root : Word) (secure writes : Bool) (va n : Nat) : Option Nat :=
  if 2 ^ 52 < va + n then some 0x20
  else (linesOf va n).findSome? fun p => match s.outsideLeaf root secure writes p.1 with
    | .error e => some e
    | .ok _ => none

/-- Bytes of a range read from outside; never epoch-checked (R311, R370). -/
def State.outsideRead (s : State) (root : Word) (secure : Bool) (va n : Nat) : List Byte :=
  (linesOf va n).flatMap fun p => match s.outsideLeaf root secure false p.1 with
    | .ok l => s.readPart l p.1 p.2
    | .error _ => List.replicate p.2 0

/-- Bytes of a range written from outside; never epoch-checked (R311, R370). -/
def State.outsideWrite (s : State) (root : Word) (secure : Bool) (va : Nat) (bs : List Byte) : State :=
  (linesOf va bs.length).foldl (fun s p => match s.outsideLeaf root secure true p.1 with
    | .ok l => s.writePart l p.1 ((bs.drop (p.1 - va)).take p.2)
    | .error _ => s) s

/-! ### The physical window (log entry 9) -/

/-- Whether a range of a tier's physical space lies in table regions. -/
def State.inTables (s : State) (tier a n : Nat) : Bool :=
  0 < n && (List.range ((a + n - 1) / 65536 - a / 65536 + 1)).all fun k => s.regionHas none tier (a / 65536 + k) 61

/-- Whether a range of a tier's physical space is closed to a port's session: it has no secure rights, and the range meets a
secure region (R360, R362). -/
def State.hidden (s : State) (port tier a n : Nat) : Bool :=
  !s.secureSession port && s.regionMeets tier (a / 65536) ((a + n - 1) / 65536 - a / 65536 + 1) 62

/-- Where an address of the window with root 0 lies: bit 52 selects the tier. -/
def physOf (va : Nat) : Nat × Nat := (va / 2 ^ 52 % 2, va % 2 ^ 52)

/-! ### Flits and the memory of other members (R367, R370) -/

end Sys2Proof.Machine

namespace Sys2Proof

open Sys2Proof.Machine

/-- The CRC-64 of some bytes: the ECMA-182 polynomial, most significant bit first, from 0 (R367, log entry 111). -/
def crc64 (bs : List Byte) : Word :=
  bs.foldl (fun (c : Word) b => (List.range 8).foldl (fun (c : Word) _ =>
    if c.getLsbD 63 then (c <<< 1) ^^^ (0x42F0E1EBA9EA3693 : Word) else c <<< 1)
    (c ^^^ ((b.setWidth 64 : Word) <<< 56))) 0

/-- The bytes 0 to 71 of a flit, over which its CRC is taken, and its 80 bytes. -/
def Flit.covered (f : Flit) : List Byte := leBytes 8 f.head.toNat ++ (f.payload ++ List.replicate 64 0).take 64
def Flit.bytes (f : Flit) : List Byte := f.covered ++ leBytes 8 f.crc.toNat

/-- The fields of a flit's head. -/
def Flit.kind (f : Flit) : Nat := (f.head.extractLsb' 60 4).toNat
def Flit.dest (f : Flit) : Nat := (f.head.extractLsb' 44 16).toNat
def Flit.channel (f : Flit) : Nat := (f.head.extractLsb' 32 12).toNat
def Flit.sequence (f : Flit) : Nat := (f.head.extractLsb' 0 32).toNat

/-- A flit with its CRC. -/
def flitOf (kind dest chan seq : Nat) (payload : List Byte) (means : FlitUse) : Flit :=
  let f : Flit := { head := BitVec.ofNat 64 (kind * 2 ^ 60 + dest * 2 ^ 44 + chan * 2 ^ 32 + seq), payload := payload, crc := 0, means := means }
  { f with crc := crc64 f.covered }

end Sys2Proof

namespace Sys2Proof.Machine

/-- A flit sent by a link, if it is up; over one that is down it is lost (R368). -/
def State.sendFlit (s : State) (link : Nat) (f : Flit) : State :=
  if (vget { up := false } s.links link).up then s.tell (3 + link) (.flit f) else s

/-- The link by which the route table reaches another rank (R368). -/
def State.linkTo (s : State) (rank : Nat) : Option Nat := (s.routes.find? fun r => r.1 == rank).map (·.2.1)

/-- An access by the owner to the memory of another member of its pod: it goes out as a flit of kind 3, and the answer comes back as
one; a rank without a link that is up is refused (R370, log entry 110). -/
def State.toPeer (s : State) (port rank : Nat) (op : PeerOp) : State :=
  match s.linkTo rank with
  | some k =>
    if (vget { up := false } s.links k).up then s.sendFlit k (flitOf 3 rank 0 0 [] (.peer op)) else s.refuseTo port 0
  | none => s.refuseTo port 0

/-- The rank whose memory a window address names, the windows of the others lying above this package's own, at (rank + 1) × 2^53 (log
entry 110). -/
def rankOf (va : Nat) : Option Nat := if va < 2 ^ 53 then none else some (va / 2 ^ 53 - 1)

/-- NODE_WINDOW_WRITE: the owner writes global memory by virtual address, or page tables through the window of root 0;
completion is reported once the write has performed. A session without secure rights reaches nothing secure. A window over another
member's memory makes a peer access (R257, R317, R360, R370). -/
def execNodeWindowWrite (port : Nat) (root : Word) (va : Nat) (bytes : List Byte) (s : State) :
    Host.Outcome State Fault Refusal :=
  if 2 ≤ port then .fault .noSuchPart
  else .next (s.asOwner port fun s =>
    match rankOf va with
    | some r => s.toPeer port r (.write root (va % 2 ^ 53) bytes)
    | none =>
      if root = 0 then
        let (tier, a) := physOf va
        if !s.inTables tier a bytes.length || s.hidden port tier a bytes.length then s.refuseTo port 0x24
        else (s.writeRaw tier a bytes).reportDone port
      else match s.outsideFault root (s.secureSession port) true va bytes.length with
        | some e => s.refuseTo port e
        | none => (s.outsideWrite root (s.secureSession port) va bytes).reportDone port)

/-- NODE_WINDOW_READ: the owner reads global memory by virtual address, page tables through the window of root 0, or another member's
memory by a peer access (R360, R370). -/
def execNodeWindowRead (port : Nat) (root : Word) (va len : Nat) (s : State) : Host.Outcome State Fault Refusal :=
  if 2 ≤ port then .fault .noSuchPart
  else .next (s.asOwner port fun s =>
    match rankOf va with
    | some r => s.toPeer port r (.read root (va % 2 ^ 53) len)
    | none =>
      if root = 0 then
        let (tier, a) := physOf va
        if !s.inTables tier a len || s.hidden port tier a len then s.refuseTo port 0x24
        else s.tell port (.bytes (s.readRaw tier a len))
      else match s.outsideFault root (s.secureSession port) false va len with
        | some e => s.refuseTo port e
        | none => (s.tell port (.bytes (s.outsideRead root (s.secureSession port) va len))).nextFree)

/-! ### The decompressing aperture (R262) -/

/-- APERTURE_OPEN: the owner opens the aperture for a translation root (R262). -/
def execApertureOpen (port base : Nat) (root : Word) (s : State) : Host.Outcome State Fault Refusal :=
  if 2 ≤ port then .fault .noSuchPart
  else .next (s.asOwner port fun s => ({ s with aperture := some (base, root) }).doneTo port)

/-- Bytes of a page. -/
def Leaf.bytes (l : Leaf) : Nat := l.frames * 65536

/-- The FP32 value of element e of a page of INT4G or MX blocks, 0 past its last element; none where its block's trailer
is malformed (R82 to R84, R262). -/
def State.apertureElement (s : State) (l : Leaf) (e : Nat) : Option (BitVec 32) :=
  let u := e / 32
  let read := fun (va n : Nat) => (linesOf va n).flatMap fun p => s.readPart l p.1 p.2
  let pick := fun (r : Option (List Nat × Flags)) => r.map fun r => BitVec.ofNat 32 (r.1.getD (e % 32) 0)
  if l.fmt = 7 then
    let n := 16 * 2 ^ l.geom + 4
    let b := u / 2 ^ l.geom
    let block := read (l.va + b * n) n
    let nan := match fp16.unpack (leNat ((block.drop (16 * 2 ^ l.geom)).take 2)) with | .nan _ _ _ => true | _ => false
    if l.bytes < (b + 1) * n then some 0
    else (pick (decodeGroup 7 l.geom u [block] fp32)).map fun w => if nan then 0x7FC00000 else w
  else
    let r := u / 2 ^ l.geom
    let row := l.va + r * mxRowBytes l.fmt l.geom
    let b := u % 2 ^ l.geom
    let n := if l.fmt = 8 then 32 else 16
    if l.bytes < (r + 1) * mxRowBytes l.fmt l.geom then some 0
    else pick (decodeGroup l.fmt l.geom u [read (row + b * n) n, read (row + mxElemBytes l.fmt l.geom + b) 1] fp32)

/-- The word at an offset of the aperture that is a multiple of 4, or the code it is refused with (R262). -/
def State.apertureWord (s : State) (root : Word) (off : Nat) : Except Nat (BitVec 32) :=
  match (s.walk 0 root (off / 8)).1 with
  | .error e => .error e
  | .ok l =>
    match s.outsideDenied false { } l (off / 8) with
    | some e => .error e
    | none =>
      if !([7, 8, 9].contains l.fmt) then .error 0x22
      else match s.homeFault l (off / 8), s.apertureElement l ((off - 8 * l.va) / 4) with
        | some e, _ => .error e
        | none, none => .error 0x44
        | none, some w => .ok w

/-- A read of the aperture: the bytes of its words, or the first refusal. -/
def State.apertureRead (s : State) (root : Word) (off n : Nat) : Except Nat (List Byte) :=
  let words := (List.range ((off + n + 3) / 4 - off / 4)).map fun k => s.apertureWord root ((off / 4 + k) * 4)
  match words.findSome? fun w => match w with | .error e => some e | .ok _ => none with
  | some e => .error e
  | none =>
    .ok (((words.flatMap fun w => match w with | .ok v => leBytes 4 v.toNat | .error _ => []).drop (off % 4)).take n)

/-- An answer to a requester behind an MX link, as port 2; a refusal is told to the owner too (R262). -/
def State.peerRefused (s : State) (code : Nat) : State :=
  ((s.logIt 6 code 2 0).tell 2 (.refused code)).tellOwner (.warning 6 code)

/-- PEER_ACCESS: an access of a pod member's owner, or of a host: served by virtual address, decoded through the aperture,
or refused; never epoch-checked (R262, R311, R370). -/
def execPeerAccess (op : PeerOp) (s : State) : Host.Outcome State Fault Refusal :=
  if s.boot != .ready then .next s
  else
    match op with
    | .read root va len => .next (match s.outsideFault root false false va len with
        | some e => s.peerRefused e
        | none => (s.tell 2 (.bytes (s.outsideRead root false va len))).nextFree)
    | .write root va bytes => .next (match s.outsideFault root false true va bytes.length with
        | some e => s.peerRefused e
        | none => (s.outsideWrite root false va bytes).tell 2 .done)
    | .apertureRead addr len => .next (match s.aperture with
        | none => s.peerRefused 0
        | some (base, root) =>
          if addr < base || base + 2 ^ 55 < addr + len then s.peerRefused 0
          else match s.apertureRead root (addr - base) len with
            | .error e => s.peerRefused e
            | .ok bs => (s.tell 2 (.bytes bs)).nextFree)
    | .apertureWrite _ => .next (s.peerRefused 0x21)

/-! ### MX links (R367, R368) -/

/-- A link goes down: the event is reported and the service request set; lines held on it fail at their senders
(R307, R368, R378). -/
def State.linkFails (s : State) (k : Nat) : State :=
  if !(vget { } s.links k).up then s
  else ({ s with links := vset s.links k { up := false, retrain := none } }).reportFault 3 12 k k

/-- LINK_LOCK_LOSS: a link loses its reference lock and goes down (R368). -/
def execLinkLockLoss (link : Nat) (s : State) : Host.Outcome State Fault Refusal :=
  if 16 ≤ link then .fault .noSuchPart
  else if s.boot != .ready then .next s
  else .next (s.linkFails link)

/-- LINK_UP_COMMAND: the owner orders a link that is down up again; its retrain begins (R368). -/
def execLinkUpCommand (port link : Nat) (s : State) : Host.Outcome State Fault Refusal :=
  if 2 ≤ port || 16 ≤ link then .fault .noSuchPart
  else .next (s.asOwner port fun s =>
    if (vget { } s.links link).up then s.refuseTo port 0
    else ({ s with links := vset s.links link { up := false, retrain := some s.pcc } }).doneTo port)

/-- LINK_RETRAIN_COMPLETE: a retrain ends, and the link is up and locked (R368). Disabled where none was ordered (log
entry 7). -/
def execLinkRetrainComplete (link : Nat) (s : State) : Host.Outcome State Fault Refusal :=
  if 16 ≤ link then .fault .noSuchPart
  else
    let l := vget { } s.links link
    .next (if !l.up && l.retrain.isSome then { s with links := vset s.links link { up := true } } else s)

/-- The running launch of a pod with a channel on which this package receives from another, and the channel's entry
(R302, R367). -/
def State.podChannel (s : State) (chan : Nat) : Option (Nat × LinkEntry) :=
  s.launches.findSome? fun e =>
    if e.2.state.final || e.2.podN < 2 then none
    else
      let k : Task := { serial := e.1, role := 0, record := e.2.sub.record, variant := e.2.variant }
      ((s.channels k).find? fun c => c.1 == chan && (match c.2.ranks with
        | some (a, b) => a != e.2.podRank && b == e.2.podRank
        | none => false)).map fun c => (e.1, c.2)

/-- A padded-link line that comes from another package: it goes to its receive window, as the line of its sequence number
(R304, R367, log entry 59). -/
def State.lineComes (s : State) (f : Flit) : State :=
  match s.podChannel f.channel with
  | none => s
  | some (serial, e) =>
    let (id, s) := s.fresh
    { s with lines := s.lines ++ [{ seq := id, src := Config.tiles, serial := serial, chan := f.channel
                                    line := f.sequence % e.lines, bytes := (f.payload ++ List.replicate 64 0).take 64
                                    due := s.pcc, link := none }] }

/-- The answer of another member to the owner's access (R370). -/
def State.answered (s : State) : FlitUse → State
  | .done => s.tellOwner .done
  | .bytes bs => s.tellOwner (.bytes bs)
  | .refused code => s.tellOwner (.refused code)
  | _ => s

/-- MX_FLIT_RECEIVE: a flit whose CRC, taken over its bytes 0 to 71, is not the one it bears, or which FEC could not restore, takes its
link down. One for another rank goes on by that rank's route. For this package, a padded-link line goes to its receive window, and a
barrier message, a peer access and the answer to one are acted on; link management, which is for this link alone, has no further
effect, and a flit of a reserved kind is dropped (R304, R367 to R370, log entry 111). Disabled on a link that is down (log entry 7). -/
def execMxFlitReceive (link : Nat) (flit : Flit) (fecOk : Bool) (s : State) : Host.Outcome State Fault Refusal :=
  if 16 ≤ link then .fault .noSuchPart
  else if s.boot != .ready || !(vget { } s.links link).up then .next s
  else if !fecOk || crc64 flit.covered != flit.crc then .next (s.linkFails link)
  else match flit.kind, s.linkTo flit.dest with
    | 1, none => .next (s.lineComes flit)
    | 2, none => match flit.means with
      | .barrier serial level rank what => if 8 ≤ level then .next s else execBarrierMessage serial level what rank s
      | _ => .next s
    | 3, none => match flit.means with
      | .peer op => execPeerAccess op s
      | u => .next (s.answered u)
    | k, some out => .next (if 1 ≤ k && k ≤ 3 then s.sendFlit out flit else s)
    | _, none => .next s

end Sys2Proof.Machine
end

