-- ==== Sys2Proof/Machine/Dispatch.lean ====
section
/-! DEFINITION. One arm for each instruction: the call of its meaning. -/

namespace Sys2Proof.Machine

/-- The meaning of each instruction and step of the machine. -/
def exec (i : Instr) (s : State) : Host.Outcome State Fault Refusal :=
  match i with
  | .add f => Sys2Proof.Machine.execAdd f s
  | .sub f => Sys2Proof.Machine.execSub f s
  | .mul f => Sys2Proof.Machine.execMul f s
  | .mulhs f => Sys2Proof.Machine.execMulhs f s
  | .mulhu f => Sys2Proof.Machine.execMulhu f s
  | .div f => Sys2Proof.Machine.execDiv f s
  | .divu f => Sys2Proof.Machine.execDivu f s
  | .rem f => Sys2Proof.Machine.execRem f s
  | .remu f => Sys2Proof.Machine.execRemu f s
  | .and f => Sys2Proof.Machine.execAnd f s
  | .or f => Sys2Proof.Machine.execOr f s
  | .xor f => Sys2Proof.Machine.execXor f s
  | .andn f => Sys2Proof.Machine.execAndn f s
  | .shl f => Sys2Proof.Machine.execShl f s
  | .shr f => Sys2Proof.Machine.execShr f s
  | .sar f => Sys2Proof.Machine.execSar f s
  | .rol f => Sys2Proof.Machine.execRol f s
  | .min f => Sys2Proof.Machine.execMin f s
  | .max f => Sys2Proof.Machine.execMax f s
  | .minu f => Sys2Proof.Machine.execMinu f s
  | .maxu f => Sys2Proof.Machine.execMaxu f s
  | .clz f => Sys2Proof.Machine.execClz f s
  | .ctz f => Sys2Proof.Machine.execCtz f s
  | .popc f => Sys2Proof.Machine.execPopc f s
  | .bswap f => Sys2Proof.Machine.execBswap f s
  | .addi f => Sys2Proof.Machine.execAddi f s
  | .subi f => Sys2Proof.Machine.execSubi f s
  | .muli f => Sys2Proof.Machine.execMuli f s
  | .mulhsi f => Sys2Proof.Machine.execMulhsi f s
  | .mulhui f => Sys2Proof.Machine.execMulhui f s
  | .divi f => Sys2Proof.Machine.execDivi f s
  | .divui f => Sys2Proof.Machine.execDivui f s
  | .remi f => Sys2Proof.Machine.execRemi f s
  | .remui f => Sys2Proof.Machine.execRemui f s
  | .andi f => Sys2Proof.Machine.execAndi f s
  | .ori f => Sys2Proof.Machine.execOri f s
  | .xori f => Sys2Proof.Machine.execXori f s
  | .andni f => Sys2Proof.Machine.execAndni f s
  | .shli f => Sys2Proof.Machine.execShli f s
  | .shri f => Sys2Proof.Machine.execShri f s
  | .sari f => Sys2Proof.Machine.execSari f s
  | .roli f => Sys2Proof.Machine.execRoli f s
  | .mini f => Sys2Proof.Machine.execMini f s
  | .maxi f => Sys2Proof.Machine.execMaxi f s
  | .minui f => Sys2Proof.Machine.execMinui f s
  | .maxui f => Sys2Proof.Machine.execMaxui f s
  | .lih f => Sys2Proof.Machine.execLih f s
  | .cmpeq f => Sys2Proof.Machine.execCmpeq f s
  | .cmpne f => Sys2Proof.Machine.execCmpne f s
  | .cmplt f => Sys2Proof.Machine.execCmplt f s
  | .cmple f => Sys2Proof.Machine.execCmple f s
  | .cmpltu f => Sys2Proof.Machine.execCmpltu f s
  | .cmpleu f => Sys2Proof.Machine.execCmpleu f s
  | .cmpeqi f => Sys2Proof.Machine.execCmpeqi f s
  | .cmpnei f => Sys2Proof.Machine.execCmpnei f s
  | .cmplti f => Sys2Proof.Machine.execCmplti f s
  | .cmplei f => Sys2Proof.Machine.execCmplei f s
  | .cmpltui f => Sys2Proof.Machine.execCmpltui f s
  | .cmpleui f => Sys2Proof.Machine.execCmpleui f s
  | .pand f => Sys2Proof.Machine.execPand f s
  | .por f => Sys2Proof.Machine.execPor f s
  | .pxor f => Sys2Proof.Machine.execPxor f s
  | .pnot f => Sys2Proof.Machine.execPnot f s
  | .agset f => Sys2Proof.Machine.execAgset f s
  | .agget f => Sys2Proof.Machine.execAgget f s
  | .loop f => Sys2Proof.Machine.execLoop f s
  | .prep f => Sys2Proof.Machine.execPrep f s
  | .prepr f => Sys2Proof.Machine.execPrepr f s
  | .ld f => Sys2Proof.Machine.execLd f s
  | .st f => Sys2Proof.Machine.execSt f s
  | .stadd f => Sys2Proof.Machine.execStadd f s
  | .stand f => Sys2Proof.Machine.execStand f s
  | .stor f => Sys2Proof.Machine.execStor f s
  | .stxor f => Sys2Proof.Machine.execStxor f s
  | .stmin f => Sys2Proof.Machine.execStmin f s
  | .stmax f => Sys2Proof.Machine.execStmax f s
  | .stminu f => Sys2Proof.Machine.execStminu f s
  | .stmaxu f => Sys2Proof.Machine.execStmaxu f s
  | .stfadd f => Sys2Proof.Machine.execStfadd f s
  | .stfmin f => Sys2Proof.Machine.execStfmin f s
  | .stfmax f => Sys2Proof.Machine.execStfmax f s
  | .ldadd f => Sys2Proof.Machine.execLdadd f s
  | .ldand f => Sys2Proof.Machine.execLdand f s
  | .ldor f => Sys2Proof.Machine.execLdor f s
  | .ldxor f => Sys2Proof.Machine.execLdxor f s
  | .ldmin f => Sys2Proof.Machine.execLdmin f s
  | .ldmax f => Sys2Proof.Machine.execLdmax f s
  | .ldminu f => Sys2Proof.Machine.execLdminu f s
  | .ldmaxu f => Sys2Proof.Machine.execLdmaxu f s
  | .ldfadd f => Sys2Proof.Machine.execLdfadd f s
  | .ldfmin f => Sys2Proof.Machine.execLdfmin f s
  | .ldfmax f => Sys2Proof.Machine.execLdfmax f s
  | .swp f => Sys2Proof.Machine.execSwp f s
  | .cas f => Sys2Proof.Machine.execCas f s
  | .albegin g => Sys2Proof.Machine.execAlbegin g s
  | .waita f => Sys2Proof.Machine.execWaita f s
  | .mfsr f => Sys2Proof.Machine.execMfsr f s
  | .mtsr f => Sys2Proof.Machine.execMtsr f s
  | .mssr f => Sys2Proof.Machine.execMssr f s
  | .mcsr f => Sys2Proof.Machine.execMcsr f s
  | .mode gm er => Sys2Proof.Machine.execMode gm er s
  | .clkdiv eng n1 => Sys2Proof.Machine.execClkdiv eng n1 s
  | .fence sel => Sys2Proof.Machine.execFence sel s
  | .waits sel => Sys2Proof.Machine.execWaits sel s
  | .trap imm => Sys2Proof.Machine.execTrap imm s
  | .yieldchk pd mask => Sys2Proof.Machine.execYieldchk pd mask s
  | .vadd f => Sys2Proof.Machine.execVadd f s
  | .vsub f => Sys2Proof.Machine.execVsub f s
  | .vmul f => Sys2Proof.Machine.execVmul f s
  | .vfma f => Sys2Proof.Machine.execVfma f s
  | .vfms f => Sys2Proof.Machine.execVfms f s
  | .vfnma f => Sys2Proof.Machine.execVfnma f s
  | .vmin f => Sys2Proof.Machine.execVmin f s
  | .vmax f => Sys2Proof.Machine.execVmax f s
  | .vabs f => Sys2Proof.Machine.execVabs f s
  | .vneg f => Sys2Proof.Machine.execVneg f s
  | .vdiv f => Sys2Proof.Machine.execVdiv f s
  | .vsqrt f => Sys2Proof.Machine.execVsqrt f s
  | .vrcp f => Sys2Proof.Machine.execVrcp f s
  | .vrsq f => Sys2Proof.Machine.execVrsq f s
  | .vexp2 f => Sys2Proof.Machine.execVexp2 f s
  | .vlog2 f => Sys2Proof.Machine.execVlog2 f s
  | .viadd f => Sys2Proof.Machine.execViadd f s
  | .visub f => Sys2Proof.Machine.execVisub f s
  | .vimul f => Sys2Proof.Machine.execVimul f s
  | .vimin f => Sys2Proof.Machine.execVimin f s
  | .vimax f => Sys2Proof.Machine.execVimax f s
  | .viminu f => Sys2Proof.Machine.execViminu f s
  | .vimaxu f => Sys2Proof.Machine.execVimaxu f s
  | .vand f => Sys2Proof.Machine.execVand f s
  | .vor f => Sys2Proof.Machine.execVor f s
  | .vxor f => Sys2Proof.Machine.execVxor f s
  | .vshl f => Sys2Proof.Machine.execVshl f s
  | .vshr f => Sys2Proof.Machine.execVshr f s
  | .vsar f => Sys2Proof.Machine.execVsar f s
  | .viadds f => Sys2Proof.Machine.execViadds f s
  | .visubs f => Sys2Proof.Machine.execVisubs f s
  | .vadd128 f => Sys2Proof.Machine.execVadd128 f s
  | .vcmpeq f => Sys2Proof.Machine.execVcmpeq f s
  | .vcmpne f => Sys2Proof.Machine.execVcmpne f s
  | .vcmplt f => Sys2Proof.Machine.execVcmplt f s
  | .vcmple f => Sys2Proof.Machine.execVcmple f s
  | .vcmpun f => Sys2Proof.Machine.execVcmpun f s
  | .vicmplt f => Sys2Proof.Machine.execVicmplt f s
  | .vicmpltu f => Sys2Proof.Machine.execVicmpltu f s
  | .mand f => Sys2Proof.Machine.execMand f s
  | .mor f => Sys2Proof.Machine.execMor f s
  | .mxor f => Sys2Proof.Machine.execMxor f s
  | .mnot f => Sys2Proof.Machine.execMnot f s
  | .mpop f => Sys2Proof.Machine.execMpop f s
  | .mset f => Sys2Proof.Machine.execMset f s
  | .vsel f => Sys2Proof.Machine.execVsel f s
  | .vperm f => Sys2Proof.Machine.execVperm f s
  | .vbcst f => Sys2Proof.Machine.execVbcst f s
  | .vcompact f => Sys2Proof.Machine.execVcompact f s
  | .vexpand f => Sys2Proof.Machine.execVexpand f s
  | .vmovs f => Sys2Proof.Machine.execVmovs f s
  | .vrsum f => Sys2Proof.Machine.execVrsum f s
  | .vrmax f => Sys2Proof.Machine.execVrmax f s
  | .vrmin f => Sys2Proof.Machine.execVrmin f s
  | .vscan f => Sys2Proof.Machine.execVscan f s
  | .virsum f => Sys2Proof.Machine.execVirsum f s
  | .vcvt f => Sys2Proof.Machine.execVcvt f s
  | .vqnt f => Sys2Proof.Machine.execVqnt f s
  | .vld f => Sys2Proof.Machine.execVld f s
  | .vst f => Sys2Proof.Machine.execVst f s
  | .vgath f => Sys2Proof.Machine.execVgath f s
  | .vscat f => Sys2Proof.Machine.execVscat f s
  | .vstadd f => Sys2Proof.Machine.execVstadd f s
  | .vstmin f => Sys2Proof.Machine.execVstmin f s
  | .vstmax f => Sys2Proof.Machine.execVstmax f s
  | .vstfadd f => Sys2Proof.Machine.execVstfadd f s
  | .vstfmin f => Sys2Proof.Machine.execVstfmin f s
  | .vstfmax f => Sys2Proof.Machine.execVstfmax f s
  | .vldadd f => Sys2Proof.Machine.execVldadd f s
  | .vldmin f => Sys2Proof.Machine.execVldmin f s
  | .vldmax f => Sys2Proof.Machine.execVldmax f s
  | .vrng f => Sys2Proof.Machine.execVrng f s
  | .defer f => Sys2Proof.Machine.execDefer f s
  | .drain f => Sys2Proof.Machine.execDrain f s
  | .drainp f => Sys2Proof.Machine.execDrainp f s
  | .dadd f => Sys2Proof.Machine.execDadd f s
  | .dsub f => Sys2Proof.Machine.execDsub f s
  | .dmul f => Sys2Proof.Machine.execDmul f s
  | .ddiv f => Sys2Proof.Machine.execDdiv f s
  | .dqua f => Sys2Proof.Machine.execDqua f s
  | .dcmpeq f => Sys2Proof.Machine.execDcmpeq f s
  | .dcmplt f => Sys2Proof.Machine.execDcmplt f s
  | .dcmple f => Sys2Proof.Machine.execDcmple f s
  | .dcvtb f => Sys2Proof.Machine.execDcvtb f s
  | .dcvtd f => Sys2Proof.Machine.execDcvtd f s
  | .mgath f => Sys2Proof.Machine.execMgath f s
  | .mldw f => Sys2Proof.Machine.execMldw f s
  | .mma f => Sys2Proof.Machine.execMma f s
  | .mmad f => Sys2Proof.Machine.execMmad f s
  | .mrd f => Sys2Proof.Machine.execMrd f s
  | .mwr f => Sys2Proof.Machine.execMwr f s
  | .mzero f => Sys2Proof.Machine.execMzero f s
  | .mstat f => Sys2Proof.Machine.execMstat f s
  | .cloc f => Sys2Proof.Machine.execCloc f s
  | .cisl f => Sys2Proof.Machine.execCisl f s
  | .cgrd f => Sys2Proof.Machine.execCgrd f s
  | .cgwr f => Sys2Proof.Machine.execCgwr f s
  | .cfill f => Sys2Proof.Machine.execCfill f s
  | .cxpos f => Sys2Proof.Machine.execCxpos f s
  | .cdec f => Sys2Proof.Machine.execCdec f s
  | .cfeed f => Sys2Proof.Machine.execCfeed f s
  | .cgath f => Sys2Proof.Machine.execCgath f s
  | .act f => Sys2Proof.Machine.execAct f s
  | .rd f => Sys2Proof.Machine.execRd f s
  | .wr f => Sys2Proof.Machine.execWr f s
  | .pre b => Sys2Proof.Machine.execPre b s
  | .refpb b => Sys2Proof.Machine.execRefpb b s
  | .xunp4 f => Sys2Proof.Machine.execXunp4 f s
  | .xdrf f => Sys2Proof.Machine.execXdrf f s
  | .xpose f => Sys2Proof.Machine.execXpose f s
  | .xcvt f => Sys2Proof.Machine.execXcvt f s
  | .xmx f => Sys2Proof.Machine.execXmx f s
  | .bundleIssue t err => Sys2Proof.Machine.execBundleIssue t err s
  | .transferJump t xt xp xn => Sys2Proof.Machine.execTransferJump t xt xp xn s
  | .transferCall t xt xp xn => Sys2Proof.Machine.execTransferCall t xt xp xn s
  | .loopEnd t lend => Sys2Proof.Machine.execLoopEnd t lend s
  | .sync t slev => Sys2Proof.Machine.execSync t slev s
  | .syncArrival t => Sys2Proof.Machine.execSyncArrival t s
  | .yield t => Sys2Proof.Machine.execYield t s
  | .rplan t => Sys2Proof.Machine.execRplan t s
  | .lineArrival t what => Sys2Proof.Machine.execLineArrival t what s
  | .resultLanding t id => Sys2Proof.Machine.execResultLanding t id s
  | .vaultRdLanding t id err => Sys2Proof.Machine.execVaultRdLanding t id err s
  | .taskStop t => Sys2Proof.Machine.execTaskStop t s
  | .handlerEntry t => Sys2Proof.Machine.execHandlerEntry t s
  | .yieldIntervalExpiry t => Sys2Proof.Machine.execYieldIntervalExpiry t s
  | .replanIntervalExpiry t => Sys2Proof.Machine.execReplanIntervalExpiry t s
  | .waitaComplete t => Sys2Proof.Machine.execWaitaComplete t s
  | .waitsComplete t => Sys2Proof.Machine.execWaitsComplete t s
  | .fenceComplete t => Sys2Proof.Machine.execFenceComplete t s
  | .modeSwitch t => Sys2Proof.Machine.execModeSwitch t s
  | .tretResume t => Sys2Proof.Machine.execTretResume t s
  | .endExit t => Sys2Proof.Machine.execEndExit t s
  | .exitBarrierRelease serial island => Sys2Proof.Machine.execExitBarrierRelease serial island s
  | .islandBarrierRelease serial lev group => Sys2Proof.Machine.execIslandBarrierRelease serial lev group s
  | .lamplighterReleaseBase serial lev group => Sys2Proof.Machine.execLamplighterReleaseBase serial lev group s
  | .lamplighterPhaseSignal serial lev group island => Sys2Proof.Machine.execLamplighterPhaseSignal serial lev group island s
  | .memberLostTrap t => Sys2Proof.Machine.execMemberLostTrap t s
  | .drfRowDecode t => Sys2Proof.Machine.execDrfRowDecode t s
  | .decoderEntryEmit t => Sys2Proof.Machine.execDecoderEntryEmit t s
  | .decoderTrap t => Sys2Proof.Machine.execDecoderTrap t s
  | .mmadRequestStart t => Sys2Proof.Machine.execMmadRequestStart t s
  | .mmadEntryPop t => Sys2Proof.Machine.execMmadEntryPop t s
  | .mmadActivationRead t pos => Sys2Proof.Machine.execMmadActivationRead t pos s
  | .mmadFaultTrap t => Sys2Proof.Machine.execMmadFaultTrap t s
  | .translationWalk t id => Sys2Proof.Machine.execTranslationWalk t id s
  | .globalCopyUnitPerform t id unit => Sys2Proof.Machine.execGlobalCopyUnitPerform t id unit s
  | .cfeedUnitEntry t id => Sys2Proof.Machine.execCfeedUnitEntry t id s
  | .globalFaultTrap t id code => Sys2Proof.Machine.execGlobalFaultTrap t id code s
  | .atomicPerform t id => Sys2Proof.Machine.execAtomicPerform t id s
  | .vectorAtomicProcess t => Sys2Proof.Machine.execVectorAtomicProcess t s
  | .linkLineAccept t chan => Sys2Proof.Machine.execLinkLineAccept t chan s
  | .linkLineDelivery seq => Sys2Proof.Machine.execLinkLineDelivery seq s
  | .linkSyncIntervalExpiry t => Sys2Proof.Machine.execLinkSyncIntervalExpiry t s
  | .linkDeliveryFailure seq => Sys2Proof.Machine.execLinkDeliveryFailure seq s
  | .barrierMessage serial lev what rank => Sys2Proof.Machine.execBarrierMessage serial lev what rank s
  | .refreshDuePoint t bank => Sys2Proof.Machine.execRefreshDuePoint t bank s
  | .sequencerRefresh t bank => Sys2Proof.Machine.execSequencerRefresh t bank s
  | .vaultSensorRead t layer reading => Sys2Proof.Machine.execVaultSensorRead t layer reading s
  | .sensorFailureReport which => Sys2Proof.Machine.execSensorFailureReport which s
  | .classLeadExpiry t layer => Sys2Proof.Machine.execClassLeadExpiry t layer s
  | .computeSensorRead which reading => Sys2Proof.Machine.execComputeSensorRead which reading s
  | .submission port disp sub => Sys2Proof.Machine.execSubmission port disp sub s
  | .noticeDelivery t n => Sys2Proof.Machine.execNoticeDelivery t n s
  | .binding serial => Sys2Proof.Machine.execBinding serial s
  | .pageMigration entry frame tier => Sys2Proof.Machine.execPageMigration entry frame tier s
  | .gangStart serial island => Sys2Proof.Machine.execGangStart serial island s
  | .contextSave t => Sys2Proof.Machine.execContextSave t s
  | .checkpointPathEntry t => Sys2Proof.Machine.execCheckpointPathEntry t s
  | .resume serial island err => Sys2Proof.Machine.execResume serial island err s
  | .gangRestart port serial => Sys2Proof.Machine.execGangRestart port serial s
  | .holdEnd port serial => Sys2Proof.Machine.execHoldEnd port serial s
  | .cancel port serial => Sys2Proof.Machine.execCancel port serial s
  | .frameRelease port t => Sys2Proof.Machine.execFrameRelease port t s
  | .failedTileReleaseTimeout t => Sys2Proof.Machine.execFailedTileReleaseTimeout t s
  | .launchStatusRead port what => Sys2Proof.Machine.execLaunchStatusRead port what s
  | .statusAck port serial => Sys2Proof.Machine.execStatusAck port serial s
  | .statusRecordExpiry serial => Sys2Proof.Machine.execStatusRecordExpiry serial s
  | .imageLoad port handle img => Sys2Proof.Machine.execImageLoad port handle img s
  | .paramBlockPatch port handle bytes => Sys2Proof.Machine.execParamBlockPatch port handle bytes s
  | .timedTableWrite port disp index entry slot => Sys2Proof.Machine.execTimedTableWrite port disp index entry slot s
  | .timedEntryFire disp index => Sys2Proof.Machine.execTimedEntryFire disp index s
  | .sessionOpen port num replay => Sys2Proof.Machine.execSessionOpen port num replay s
  | .sessionClose port num => Sys2Proof.Machine.execSessionClose port num s
  | .wakePattern on record railOk => Sys2Proof.Machine.execWakePattern on record railOk s
  | .firmwarePush port fw found => Sys2Proof.Machine.execFirmwarePush port fw found s
  | .quoteRequest port nonce => Sys2Proof.Machine.execQuoteRequest port nonce s
  | .claim port key sig => Sys2Proof.Machine.execClaim port key sig s
  | .handover port key => Sys2Proof.Machine.execHandover port key s
  | .lanternMessage port message use => Sys2Proof.Machine.execLanternMessage port message use s
  | .tableCacheInvalidate port root lo hi => Sys2Proof.Machine.execTableCacheInvalidate port root lo hi s
  | .writerTagClear port lo hi => Sys2Proof.Machine.execWriterTagClear port lo hi s
  | .lamplighterWrite port word phases => Sys2Proof.Machine.execLamplighterWrite port word phases s
  | .keyLoad port slot wrapped => Sys2Proof.Machine.execKeyLoad port slot wrapped s
  | .keyErase port slot => Sys2Proof.Machine.execKeyErase port slot s
  | .regionWrite port stack index w0 w1 => Sys2Proof.Machine.execRegionWrite port stack index w0 w1 s
  | .worldAssign port which secure => Sys2Proof.Machine.execWorldAssign port which secure s
  | .routeWrite port routes parent hops => Sys2Proof.Machine.execRouteWrite port routes parent hops s
  | .operatingPointRequest port island point => Sys2Proof.Machine.execOperatingPointRequest port island point s
  | .voltageStepComplete island => Sys2Proof.Machine.execVoltageStepComplete island s
  | .serviceClear port bits => Sys2Proof.Machine.execServiceClear port bits s
  | .packageReset port => Sys2Proof.Machine.execPackageReset port s
  | .linkUpCommand port link => Sys2Proof.Machine.execLinkUpCommand port link s
  | .hostWindowOpen port base size node => Sys2Proof.Machine.execHostWindowOpen port base size node s
  | .nodeWindowWrite port root va bytes => Sys2Proof.Machine.execNodeWindowWrite port root va bytes s
  | .nodeWindowRead port root va len => Sys2Proof.Machine.execNodeWindowRead port root va len s
  | .apertureOpen port base root => Sys2Proof.Machine.execApertureOpen port base root s
  | .peerAccess op => Sys2Proof.Machine.execPeerAccess op s
  | .ptpMessage port sec ns => Sys2Proof.Machine.execPtpMessage port sec ns s
  | .mxFlitReceive link flit crcOk => Sys2Proof.Machine.execMxFlitReceive link flit crcOk s
  | .linkLockLoss link => Sys2Proof.Machine.execLinkLockLoss link s
  | .lanternLinkLoss port => Sys2Proof.Machine.execLanternLinkLoss port s
  | .secondTierDown unit => Sys2Proof.Machine.execSecondTierDown unit s
  | .remapCopyLoss t layer shadow => Sys2Proof.Machine.execRemapCopyLoss t layer shadow s
  | .vaultFailure t => Sys2Proof.Machine.execVaultFailure t s
  | .islandClockStretch island => Sys2Proof.Machine.execIslandClockStretch island s
  | .lanternLinkReturn port => Sys2Proof.Machine.execLanternLinkReturn port s
  | .linkRetrainComplete link => Sys2Proof.Machine.execLinkRetrainComplete link s
  | .arbitration => Sys2Proof.Machine.execArbitration s
  | .lightRemovalTimeout => Sys2Proof.Machine.execLightRemovalTimeout s
  | .handoverTimeout => Sys2Proof.Machine.execHandoverTimeout s
  | .ownerLinkLossTimeout => Sys2Proof.Machine.execOwnerLinkLossTimeout s
  | .sNop => Sys2Proof.Machine.execSNop s
  | .alend => Sys2Proof.Machine.execAlend s
  | .endTask => Sys2Proof.Machine.execEndTask s
  | .tret => Sys2Proof.Machine.execTret s
  | .vNop => Sys2Proof.Machine.execVNop s
  | .mNop => Sys2Proof.Machine.execMNop s
  | .cNop => Sys2Proof.Machine.execCNop s
  | .dNop => Sys2Proof.Machine.execDNop s
  | .prea => Sys2Proof.Machine.execPrea s
  | .xNop => Sys2Proof.Machine.execXNop s

end Sys2Proof.Machine
end

