-- ==== Sys2Proof/Machine/Events.lean ====
section
/-! DEFINITION. What the machine has due on a cycle (log entries 4, 5): the steps that a rule puts on a stated cycle, and
those that a rule only bounds, which the eager pacing takes as soon as they can be. -/

namespace Sys2Proof.Machine

/-- A list in the order of a key, equal keys as they stood. -/
def insertBy {α : Type} (key : α → Nat) (x : α) : List α → List α
  | [] => [x]
  | y :: r => if key x < key y then x :: y :: r else y :: insertBy key x r
def sortBy {α : Type} (key : α → Nat) (xs : List α) : List α := xs.foldl (fun acc x => insertBy key x acc) []

/-! ### Due events -/

/-- The notice that is decided on first for a tile. -/
def State.firstNotice (s : State) (t : Nat) : Notice :=
  match s.notices.find? fun e => e.1 == t with
  | some e => e.2.1
  | none => .pre

/-- A due event takes place. -/
def runDue (d : Due) (s : State) : Host.Outcome State Fault Refusal :=
  match d.kind with
  | .resultLanding => execResultLanding d.a d.b s
  | .vaultRdLanding => execVaultRdLanding d.a d.b .clean s
  | .taskStop => execTaskStop d.a s
  | .handlerEntry => execHandlerEntry d.a s
  | .yieldExpiry => execYieldIntervalExpiry d.a s
  | .replanExpiry => execReplanIntervalExpiry d.a s
  | .waitaComplete => execWaitaComplete d.a s
  | .waitsComplete => execWaitsComplete d.a s
  | .fenceComplete => execFenceComplete d.a s
  | .modeSwitch => execModeSwitch d.a s
  | .tretResume => execTretResume d.a s
  | .endExit => execEndExit d.a s
  | .exitRelease => execExitBarrierRelease d.a d.b s
  | .syncArrival => execSyncArrival d.a s
  | .islandRelease => execIslandBarrierRelease d.a d.b d.c s
  | .releaseBase => execLamplighterReleaseBase d.a d.b d.c s
  | .phaseSignal => execLamplighterPhaseSignal d.a d.b d.c d.d s
  | .memberLost => execMemberLostTrap d.a s
  | .lineArrival => execLineArrival d.a (if d.c = 0 then .line d.b else .entry (BitVec.ofNat 3 d.b)) s
  | .drfRow => execDrfRowDecode d.a s
  | .drfEmit => execDecoderEntryEmit d.a s
  | .decoderTrap => execDecoderTrap d.a s
  | .mmadStart => execMmadRequestStart d.a s
  | .mmadPop => execMmadEntryPop d.a s
  | .mmadFault => execMmadFaultTrap d.a s
  | .walk => execTranslationWalk d.a d.b s
  | .unit => execGlobalCopyUnitPerform d.a d.b d.c s
  | .feed => execCfeedUnitEntry d.a d.b s
  | .globalFault => execGlobalFaultTrap d.a d.b d.c s
  | .atomic => execAtomicPerform d.a d.b s
  | .vatomic => execVectorAtomicProcess d.a s
  | .linkAccept => execLinkLineAccept d.a d.b s
  | .linkDelivery => execLinkLineDelivery d.a s
  | .linkExpiry => execLinkSyncIntervalExpiry d.a s
  | .linkFailure => execLinkDeliveryFailure d.a s
  | .refreshDue => execRefreshDuePoint d.a d.b s
  | .classLead => execClassLeadExpiry d.a d.b s
  | .arbitration => execArbitration s
  | .binding => execBinding d.a s
  | .gangStart => execGangStart d.a d.b s
  | .contextSave => execContextSave d.a s
  | .checkpoint => execCheckpointPathEntry d.a s
  | .resume => execResume d.a d.b .clean s
  | .tileTimeout => execFailedTileReleaseTimeout d.a s
  | .statusExpiry => execStatusRecordExpiry d.a s
  | .timedFire => execTimedEntryFire d.a d.b s
  | .handoverTimeout => execHandoverTimeout s
  | .ownerLoss => execOwnerLinkLossTimeout s
  | .voltage => execVoltageStepComplete d.a s
  | .retrain => execLinkRetrainComplete d.a s
  | .barrierMessage => execBarrierMessage d.a d.b .arrival d.d s
  | .sensorFailure => execSensorFailureReport (if d.c = 0 then .layer d.a d.b else .compute d.a) s
  | .notice => execNoticeDelivery d.a (s.firstNotice d.a) s
  | .lightRemoval => execLightRemovalTimeout s

/-- A due event that may take place. -/
def dueIf (b : Bool) (k : DueKind) (a : Nat := 0) (b' : Nat := 0) (c : Nat := 0) (d : Nat := 0) : List Due :=
  if b then [{ kind := k, a := a, b := b', c := c, d := d }] else []

/-! ### Tiles -/

/-- What is due on a tile on stated cycles: limits, the ends of stalls, arrivals, handlers and stops (R31, R133 to R135,
R140, R148, R152 to R154, R291, R301, R306). -/
def State.tileStated (s : State) (t : Nat) : List Due :=
  let x := s.tile t
  let q := x.seq
  let run := q.phase == .running
  let isKind := fun (p : Stall → Bool) => run && p q.stall
  (match x.task with
    | none => []
    | some k =>
      dueIf (q.phase == .trapping && x.stopDrained) .taskStop t
        ++ dueIf (q.phase == .trapping && x.drained) .handlerEntry t
        ++ dueIf (q.counts && k.yieldMax < s.icc t - q.yieldAt) .yieldExpiry t
        ++ dueIf (q.counts && k.replanMax * 1750 < s.pcc - q.replanAt) .replanExpiry t
        ++ dueIf (q.counts && 65536 ≤ s.icc t - x.bar.linkAt) .linkExpiry t
        ++ dueIf (isKind fun a => match a with | .waita _ _ _ => true | _ => false) .waitaComplete t
        ++ dueIf (isKind fun a => match a with | .waits _ _ => true | _ => false) .waitsComplete t
        ++ dueIf (isKind fun a => match a with | .fence _ _ => true | _ => false) .fenceComplete t
        ++ dueIf (isKind fun a => match a with | .modeDrain _ _ => true | _ => false) .modeSwitch t
        ++ dueIf (isKind (· == .tretDrain)) .tretResume t
        ++ dueIf (isKind (· == .ending)) .endExit t
        ++ dueIf (!x.bar.lost.isEmpty) .memberLost t
        ++ dueIf (isKind fun a => match a with | .arriving _ => true | _ => false) .syncArrival t)

/-- Whether a fetch line asked for on a cycle is due by this one (R60, R122): as soon as the port can move it under the
eager pacing, else in time for its bound of 290 cycles. -/
def State.fetched (s : State) (t asked : Nat) : Bool :=
  if s.pacing == .eager then asked < s.icc t else asked + 250 ≤ s.icc t

/-- The fetch lines and target entries that arrive. -/
def State.tileFetches (s : State) (t : Nat) : List Due :=
  let q := (s.tile t).seq
  (q.window.flatMap fun e => dueIf (!e.here && s.fetched t e.asked) .lineArrival t e.addr 0)
    ++ (List.range 8).flatMap fun k => match (vget { } q.targets k).fill with
        | .filling asked => dueIf (s.fetched t asked) .lineArrival t k 1
        | _ => []

/-- Whether the denomination path and the decoder have to work now to end their requests by the published bounds, whose
parts that do not depend on the row have passed (R224, R244). -/
def Tile.mmadLate (x : Tile) (now : Nat) : Bool := match x.eng.mmad.reqs with
  | r :: _ => max r.issue x.eng.mmad.endedAt + 16 * x.divisor 1 ≤ now
  | [] => false
def Tile.drfLate (x : Tile) (now : Nat) : Bool := match x.eng.drf.reqs with
  | r :: _ => max r.issue x.eng.drf.endedAt + 8 * x.divisor 2 ≤ now
  | [] => false

/-- The part B of the bound on a global copy, by the home of a unit; the shortest before its page is known. The terms of
R268 for pages and units give the homes the time to serve it from then on. A host window has no bound but its 10 ms. -/
def GCopy.bound (g : GCopy) (t u : Nat) : Nat :=
  match (g.ranges u).head?.bind fun r => (g.leafAt r.1).map fun l => (l, r.1) with
  | some (l, va) =>
    if l.tier = 0 then if stackOf (l.phys va / Config.vaultBytes) = stackOf t then 1200 else 2000
    else if l.tier = 1 then 5000 else 2 ^ 64
  | none => 1200

/-- Due events in the order in which their homes take turns (R259). -/
def State.byTurn (s : State) (t : Nat) (h : Option Nat) (ds : List Due) : List (Nat × Due) :=
  ds.map fun d => (match h with | some h => s.turnAt h t | none => 0, d)

/-- What comes after every tile's turn on a cycle. -/
def afterTurns (ds : List Due) : List (Nat × Due) := ds.map fun d => (Config.tiles, d)

/-- The home of a vector atomic's next lane. -/
def State.laneHome (s : State) (t : Nat) (a : VAtomic) : Option Nat :=
  (a.lanes.head?.bind fun p => s.homeLine t p.2.1).bind fun l => homeOfLine s.tier2Home l.1 (2 * l.2)

/-- What a tile asks of its homes on a cycle: its copies' units, its atomics and its vector atomics, the next lane in the tile's
turn at its home and more lanes, at other homes, after all turns; under the other pacing only what a bound makes due, its own or
that of an atomic behind it. An atomic whose bound has come performs once those before it have. Walks come before what they serve
(R128, R130, R259, R268, R283, log entry 5). -/
def State.homeWork (s : State) (t : Nat) : List (Nat × Due) :=
  let e := (s.tile t).eng
  let now := s.icc t
  let eager := s.pacing == .eager
  let late := fun (at_ : Nat) => eager || at_ ≤ now
  (s.byTurn t none (e.acks.flatMap fun a => dueIf (eager && !a.failed) .unit t a.copy a.unit))
    ++ (e.copies.flatMap fun g =>
      match (List.range g.units).find? fun u => !g.past u with
      | some u => s.byTurn t (s.unitHomes g u).head? (dueIf (late (g.issue + g.bound t u)) .unit t g.id u)
      | none => [])
    ++ (e.atomics.flatMap fun a =>
        match a.leaf with
        | some l => s.byTurn t (s.homeOf l a.va)
            (dueIf (!a.stopped && (eager || s.atomicLate t a l || s.pressed t a.id 400)) .atomic t a.id)
        | none => s.byTurn t none (dueIf (!a.stopped && (eager || s.pressed t a.id 400)) .atomic t a.id))
    ++ (match e.vatomics with
        | a :: _ =>
          let due := dueIf ((late ((s.tile t).vaBegan a + 1000) && (eager || a.flight.isSome)) || s.pressed t a.id 400) .vatomic t
          s.byTurn t (s.laneHome t a) due
            ++ afterTurns (List.replicate (if s.pressed t a.id 0 then 1100 else 15) due).flatten
        | [] => [])
    ++ afterTurns (e.atomics.flatMap fun a =>
        dueIf (match a.leaf with | some l => !a.stopped && s.atomicLate t a l | none => false) .atomic t a.id)

/-- The walks that a tile's traffic waits for. -/
def State.walkWork (s : State) (t : Nat) : List Due :=
  let e := (s.tile t).eng
  let late := fun (at_ : Nat) => s.pacing == .eager || at_ ≤ s.icc t
  (e.copies.flatMap fun g => dueIf (g.walked < g.units && late (g.issue + 900)) .walk t g.id)
    ++ e.atomics.flatMap fun a => dueIf (!a.stopped && a.leaf.isNone
        && ((late (a.issue + 900) && (s.pacing == .eager || a.returns)) || s.pressed t a.id 400)) .walk t a.id

/-- Whether the idle refresh sequencer has to refresh a bank now: it has kept it for a quarter of its interval, so that it
catches up within one and from then on answers each due point at once (R176). -/
def State.refreshLate (s : State) (t b : Nat) : Bool :=
  let x := s.tile t
  let since := match if x.owns b then x.kept else x.saved.bind (·.vault) with | some e => e.1 | none => 0
  since + interval (vget { } x.vault.layers (b / 8)).app / 4 ≤ s.icc t

/-- What a tile's engines do next on a cycle where nothing times it, and what a rule times: a feed's units, the lines
that a link port takes, and the end of a host's 10 ms (R224, R244, R268, R273, R304, log entry 5). -/
def State.tileWork (s : State) (t : Nat) : List Due :=
  let x := s.tile t
  let e := x.eng
  let now := s.icc t
  let eager := s.pacing == .eager
  let n := fun (k : Nat) (d : List Due) => (List.replicate k d).flatten
  (if eager || x.mmadLate now then
      dueIf (!e.mmad.reqs.isEmpty && !e.mmad.started) .mmadStart t ++ n 65 (dueIf (!e.mmad.reqs.isEmpty) .mmadPop t)
    else [])
    ++ (if eager || x.drfLate now then
        n 80 (dueIf (!e.drf.reqs.isEmpty) .drfRow t ++ dueIf (!e.drf.reqs.isEmpty) .drfEmit t) else [])
    ++ (e.copies.flatMap fun g => dueIf (g.kind == .feed) .feed t g.id)
    ++ (e.copies.flatMap fun g => dueIf (x.working && g.fault.isNone && (g.unanswered s.pcc).isSome) .globalFault t g.id 0x26)
    ++ (e.acks.flatMap fun a => dueIf (!a.failed && a.pcc + hostTime ≤ s.pcc) .globalFault t a.copy 0x26)
    ++ (match x.bar.nextMark with
        | some m => dueIf true .linkAccept t m.chan
        | none => [])
    ++ (List.range 4).flatMap fun k => dueIf (eager && (vget { } x.vault.layers k).suspect) .sensorFailure t k

/-- The classes of a tile's layers whose leads end (R179). -/
def State.tileLeads (s : State) (t : Nat) : List Due :=
  (List.range 4).flatMap fun k =>
    dueIf ((vget { } (s.tile t).vault.layers k).leads.any fun e => e.1 ≤ s.lcc t (1 + k)) .classLead t k

/-- The end of a suspension's drain, and of the time for which frames are kept (R335, R343). -/
def State.tileRest (s : State) (t : Nat) : List Due :=
  let x := s.tile t
  dueIf (x.seq.phase == .suspending) .checkpoint t ++ dueIf (x.seq.phase == .suspending) .contextSave t
    ++ dueIf (s.framesExpire t) .tileTimeout t

/-! ### The package -/

/-- What is due of barriers, links and launches (R292, R293, R298, R299, R304, R307, R345, R369). -/
def State.launchDues (s : State) : List Due :=
  let eager := s.pacing == .eager
  (s.barriers.flatMap fun b => match s.launch b.serial with
    | none => []
    | some l =>
      if l.domain b.lev < 2 then dueIf b.last.isSome .islandRelease b.serial b.lev b.group
      else
        dueIf (b.last.isSome && b.learned.isNone && l.domain b.lev == 4 && s.treeCut l b.heard) .barrierMessage
            b.serial b.lev 0 l.podRank
          ++ dueIf (b.base.isNone && b.known l && (eager || (match b.baseBy l with | some c => c ≤ s.pcc | none => false)))
              .releaseBase b.serial b.lev b.group
          ++ (match b.base with
              | some t0 => b.toResume.flatMap fun i =>
                  let at_ := t0 + l.sigOffset (l.phaseOf i)
                  dueIf ((eager && at_ ≤ s.pcc) || at_ + 12 ≤ s.pcc) .phaseSignal b.serial b.lev b.group i
              | none => []))
    ++ (s.lines.flatMap fun e => if s.linkDown e.link then dueIf true .linkFailure e.seq
        else dueIf (eager || e.due ≤ s.pcc) .linkDelivery e.seq)
    ++ (s.launches.flatMap fun e =>
        let l := e.2
        let is := (l.tiles.map (· / 16)).dedup
        (is.flatMap fun i => dueIf (!l.ends.isEmpty) .exitRelease e.1 i)
          ++ (if !eager then [] else
            dueIf (l.state == .binding && l.tiles.all fun t => !(s.tile t).runs e.1) .binding e.1
            ++ (is.flatMap fun i => dueIf (l.state == .resuming && l.granted.contains i) .resume e.1 i)
            ++ is.flatMap fun i => dueIf (l.tiles.any fun t => t / 16 == i && (s.tile t).runs e.1
                && ((s.tile t).seq.phase == .starting || (s.tile t).seq.phase == .resuming)) .gangStart e.1 i)
          ++ dueIf (!l.acked && l.expired s.pcc) .statusExpiry e.1)
    ++ dueIf (eager && s.launches.any fun e => e.2.waits) .arbitration

/-- What is due of the package beside launches; entries that fire on one cycle by ascending index (R328, R329, R358, R365, R368, R378). -/
def State.packageDues (s : State) : List Due :=
  let eager := s.pacing == .eager
  ((sortBy (fun e => e.1 % 512) s.timed).flatMap fun e =>
      dueIf (s.entryDue (e.1 / 512) (e.1 % 512)) .timedFire (e.1 / 512) (e.1 % 512))
    ++ dueIf (match s.handover with | some h => h.2 ≤ s.pcc | none => false) .handoverTimeout
    ++ dueIf (match s.owner with | some o => !(vget { } s.ports o).up && !(vget { } s.ports o).lossTold | none => false) .ownerLoss
    ++ (s.isl.flatMap fun e =>
        dueIf (eager && (e.2.tgt != e.2.cur || e.2.step.isSome || e.2.hv)) .voltage e.1
          ++ dueIf (eager && e.2.suspect && !e.2.failed) .sensorFailure e.1 0 1)
    ++ ((List.range 16).flatMap fun k => dueIf (eager && (vget { } s.links k).retrain.isSome) .retrain k)
    ++ s.notices.flatMap fun e => dueIf (eager || e.2.2 + 349 ≤ s.pcc) .notice e.1

/-- Everything due on the cycle that begins, in the order in which it takes place: what stated cycles bring, then arrivals
and the engines' work, then the launches. -/
def State.dues (s : State) (ts : List Nat) : List Due :=
  if s.boot != .ready then dueIf (match s.boot with | .failed _ => true | _ => false) .lightRemoval
  else
    s.launchDues.filter (fun d => d.kind == .islandRelease || d.kind == .exitRelease || d.kind == .phaseSignal
        || d.kind == .linkFailure)
      ++ ts.flatMap s.tileStated ++ ts.flatMap s.tileFetches ++ ts.flatMap s.walkWork
      ++ (sortBy (·.1) (ts.flatMap s.homeWork)).map (·.2) ++ ts.flatMap s.tileWork
      ++ ts.flatMap s.tileRest ++ (s.tiles.map (·.1)).flatMap s.tileLeads
      ++ s.launchDues.filter (fun d => !(d.kind == .islandRelease || d.kind == .exitRelease || d.kind == .phaseSignal
        || d.kind == .linkFailure))
      ++ s.packageDues

end Sys2Proof.Machine
end

