-- ==== Sys2Proof/Machine/Tick.lean ====
section
/-! DEFINITION. From one reference cycle to the next: the writes that end a cycle, and what begins the one after it
(R8, R27, R28, R78, R79, R122, R124, R125, R141, R142, R152, R155, R156, R168, R172, R174, R175, R185, R193, R225, R276,
R279, R333, R335, R360, R379; log entry 4). -/

namespace Sys2Proof.Machine

/-! ### The end of an island cycle -/

/-- A write of staging takes place: its bytes, and the unit that it counts (R125, R276). A DEFER's own words are no
foreign words of its queue (R209). -/
def State.stageWrite (s : State) (src : Nat) (w : StWrite) : State :=
  let now := s.icc w.tile
  let who := [if src = w.tile then none else some src]
  let s := s.onTile w.tile fun x =>
    if 16 ≤ w.slot then ({ x with st := writeBytes x.st w.addr w.bytes } : Tile).markLines now w.addr w.bytes.length who
    else x.stageBy now w.addr w.bytes who
  match w.arrival with
  | some a => { s with counts := s.counts ++ [{ src := src, slot := w.slot, unit := 0, copy := none, word := a }] }
  | none => s

/-- What ends a tile's cycle in its own staging: the writes of its slots in slot order, with the RDs that land as slot D
(R28, R168, R193). -/
def State.ownWrites (s : State) (t : Nat) : State :=
  let now := s.icc t
  let s := (s.tile t).vault.reads.foldl (fun s e =>
    if e.cycle ≤ now && !e.written then s.onTile t (·.landRead t e) else s) s
  (sortBy (·.slot) ((s.tile t).seq.stWrites.filter fun w => w.cycle ≤ now && w.tile == t)).foldl (·.stageWrite t) s

/-- The writes that a tile's operations make in other tiles (R125). -/
def State.farWrites (s : State) (t : Nat) : State :=
  let now := s.icc t
  (sortBy (·.slot) ((s.tile t).seq.stWrites.filter fun w => w.cycle ≤ now && w.tile != t)).foldl (·.stageWrite t) s

/-- The lists of a tile without what has taken place by a cycle. -/
def Tile.cleared (x : Tile) (now : Nat) : Tile :=
  { x with
    seq := { x.seq with stWrites := x.seq.stWrites.filter fun w => now < w.cycle }
    vault := { x.vault with reads := x.vault.reads.filter fun e => now < e.cycle }
    eng := { x.eng with early := x.eng.early.filter fun e => e.glob || now + 1 < e.till } }

/-- One unit counted into its arrival word; the early-read checker notes that a global copy's counting has advanced the
generation. Of the copies that have been counted into the word since the last advance, that is the one whose unit makes it: the
manual does not say whether the others count as observed too (R275, R276, R278, log entry 103). -/
def State.countInto (s : State) (e : CountUnit) : State :=
  let a := e.word
  let st := (s.tile a.tile).st
  let target := readNat st a.addr 4
  let count := (readNat st (a.addr + 4) 4 + a.bytes) % 2 ^ 32
  let gen := readNat st (a.addr + 8) 4
  let hit := target != 0 && target ≤ count
  let s := { s with ordered := s.ordered.map fun (o : Ordered) =>
    if (e.copy == some o.copy) && e.unit == o.unit && o.gen.isNone then { o with gen := some ((gen + 1) % 2 ^ 32) } else o }
  let s := s.onTile a.tile fun x => x.stageBy (s.icc a.tile) (a.addr + 4)
    (leBytes 4 (if hit then count - target else count) ++ leBytes 4 (if hit then gen + 1 else gen))
    [if e.src = a.tile then none else some e.src]
  if !hit then s
  else s.onTile e.src fun x => { x with eng := { x.eng with early := x.eng.early.map fun l =>
    if l.glob && (e.copy == some l.copy) then { l with advanced := true } else l } }

/-- The units counted into words of some tiles, whose cycle ends, after every other write, by source tile, engine and unit
(R276). -/
def State.countAll (s : State) (ts : List Nat) : State :=
  let now := s.counts.filter fun e => ts.contains e.word.tile
  (sortBy (·.src) (sortBy (·.slot) now)).foldl State.countInto
    { s with counts := s.counts.filter fun e => !ts.contains e.word.tile }

/-- The trap of a refresh deficit, which no REFPB of its cycle has netted: at the bundle that issues on that cycle, at the
one that waits, at the first of the handler that the tile drains into, or at the last one of a task that waits at its exit
barrier; the sequencer keeps the banks from this cycle on (R175, R189, log entry 53). -/
def State.deficitFault (s : State) (t : Nat) : State :=
  let x := s.tile t
  let q := x.seq
  match x.vault.deficit with
  | [] => s
  | b :: _ =>
    let r := x.vault.deficitTrap b
    let s := if q.issuedAt == s.icc t && q.phase == .running then
        let s := s.left t
        let (a, n, i, rest) := s.standing t
        let r := match q.snap with | some v => v.vault.deficitTrap b | none => r
        if i = 0 then s.takeTrapAt t r q.last n q.lastNo false q.snap
        else if rest then s.takeTrapAt t r q.last n q.lastNo true q.snap
        else s.takeTrapAt t r a n i false q.snap
      else if q.phase == .ended then s.takeTrap t r q.last q.last q.lastNo false
      else s.trapNext t r
    s.onTile t Tile.stopBanks

/-- The lines that links deliver to some tiles on this cycle are written last, by source tile (R304). -/
def State.landLines (s : State) (ts : List Nat) : State :=
  let now := s.landings.filter fun e => ts.contains e.tile
  (sortBy (·.line.src) now).foldl State.landLine { s with landings := s.landings.filter fun e => !ts.contains e.tile }

/-- The island cycle of some tiles ends. -/
def State.endCycle (s : State) (ts : List Nat) : State :=
  let s := ts.foldl State.ownWrites s
  let s := (ts.foldl State.farWrites s).landLines ts
  let s := ts.foldl (fun s t => s.onTile t fun x => x.cleared (s.icc t)) s
  ts.foldl State.deficitFault (s.countAll ts)

/-! ### Time -/

/-- The islands on the next reference cycle: one that is stretched stays on its island cycle (R8, R185). -/
def State.advanceIslands (s : State) : State :=
  { s with isl := s.isl.map fun e =>
      (e.1, if e.2.due then { e.2 with due := false, stretch := true, lost := e.2.lost + 1 } else { e.2 with stretch := false }) }

/-- sr.ptp gains 4/7 ns a cycle; a slew adds or takes 1 ns every 17,500 cycles (R147, R360). -/
def State.advancePtp (s : State) : State :=
  let f := s.ptpFrac + 4
  let s := { s with ptpNs := s.ptpNs + f / 7, ptpFrac := f % 7 }
  if s.ptpSlew = 0 || s.pcc % 17500 ≠ 0 then s
  else if 0 < s.ptpSlew then { s with ptpNs := s.ptpNs + 1, ptpSlew := s.ptpSlew - 1 }
  else { s with ptpNs := s.ptpNs - 1, ptpSlew := s.ptpSlew + 1 }

/-- The service status: a cause that holds sets its bit, and a bit that it newly sets is not cleared on that cycle (R379). -/
def State.advanceService (s : State) : State :=
  let now := if s.boot = .ready then s.causes else 0
  { s with svc := s.svc ||| now, svcNew := now &&& ~~~s.svc }

/-! ### The start of an island cycle -/

/-- System-register writes of the cycle before take effect, with the flags that landed on it; with sr.mode.er clear nothing
is listed (R278). Then, at a bundle boundary,
divisors and target entries: a transfer of the bundle sees the entries as they were, and a suspension the divisors as they
will be (R30, R78, R122, R141, R142, R278, R334). -/
def Tile.takeEffect (x : Tile) : Tile :=
  let q := x.seq
  let y := q.srPend.foldl Sys.write x.sys
  let y := if q.srPend.isEmpty then y else { y with fpsr := y.fpsr ||| q.landedB, dfpsr := y.dfpsr ||| q.landedD }
  let go := (!q.inHand && q.after.isEmpty) || q.phase == .trapping
  let x := { x with
    sys := y
    eng := { x.eng with early := if y.er then x.eng.early else [] }
    seq := { q with srPend := [], landedB := 0, landedD := 0, landed := [] } }
  let x := if go || q.phase == .suspending then x.newDivisors else x
  if go then x.newEntries else x

/-- Bytes placed at an offset of a register's value, and the value of a flight changed. -/
def Tile.fill (x : Tile) (flight : Nat) (f : Write → Write) : Tile :=
  { x with seq := { x.seq with flights := x.seq.flights.map fun g =>
      if g.id = flight then { g with writes := g.writes.map f } else g } }

/-- The generations of arrival words that a read of staging reads (R277). -/
def State.readsGens (s : State) (r : StRead) : State :=
  (((s.ordered.map (·.word)).filter fun w => w.tile == r.tile).map (·.addr)).dedup.foldl (fun s a =>
    if r.addr ≤ a + 8 && a + 12 ≤ r.addr + r.len then s.seesGen r.tile a 12 (readNat (s.tile r.tile).st (a + 8) 4) else s) s

/-- A read of staging takes place for its user (R124, R168, R205, R236, R237, R265 to R267, R271). -/
def State.deliver (s : State) (t : Nat) (r : StRead) : State :=
  let s := s.readsGens r
  let bytes := readBytes (s.tile r.tile).st r.addr r.len
  let n := leNat bytes
  match r.use with
  | .scalar id reg sx =>
    s.onSeq t fun q => { q with flights := q.flights.map fun g =>
      if g.id = id then { g with writes := if reg = 0 then [] else [.s reg (loadedValue r.len sx n)] } else g }
  | .vector id reg off =>
    s.onTile t fun x => x.fill id fun w => match w with
      | .v k keep v => if k = reg then .v k keep (v ||| BitVec.ofNat 8192 (n * 2 ^ (8 * off))) else w
      | _ => w
  | .opRow id row =>
    s.onTile t fun x => x.fill id fun w => match w with
      | .opLatch v sc => .opLatch (v ||| BitVec.ofNat 16384 (n * 2 ^ (512 * row))) sc
      | _ => w
  | .opScale id row =>
    s.onTile t fun x => x.fill id fun w => match w with
      | .opLatch v sc => .opLatch v (sc ||| BitVec.ofNat 1024 (n * 2 ^ (32 * row)))
      | _ => w
  | .weight id off =>
    s.onTile t fun x => x.fill id fun w => match w with
      | .wLatch v => .wLatch (v ||| BitVec.ofNat 34816 (n * 2 ^ (8 * off)))
      | _ => w
  | .copyTo cycle tile addr arr =>
    s.onSeq t fun q => { q with stWrites := q.stWrites ++
      [{ cycle := cycle, tile := tile, slot := r.slot, addr := addr, bytes := bytes, issue := r.issue, arrival := arr
         isle := r.isle }] }
  | .xpose id part width tile addr cycle step arr =>
    let buf := look [] id (s.tile t).eng.xbufs ++ bytes
    if part < 15 then s.onTile t fun x => { x with eng := { x.eng with xbufs := insertAt id buf x.eng.xbufs } }
    else
      let out := transposed width buf
      let ws := (List.range 16).map fun k =>
        ({ cycle := cycle + k * step, tile := tile, slot := r.slot, addr := addr + 256 * k
           bytes := (out.drop (256 * k)).take 256, issue := r.issue, arrival := if k = 15 then arr else none } : StWrite)
      s.onTile t fun x => { x with eng := { x.eng with xbufs := dropAt id x.eng.xbufs }
                                   seq := { x.seq with stWrites := x.seq.stWrites ++ ws } }
  | .unit copy unit =>
    s.onTile t fun x => { x with eng := { x.eng with copies := x.eng.copies.map fun g =>
      if g.id = copy then { g with data := insertAt unit bytes g.data } else g } }
  | .column bank row col =>
    let a := columnAddr t bank row col
    { s with mem := writeBytes s.mem a bytes }.rawLines a 64

/-- The reads of staging of a cycle (R156). -/
def State.readStaging (s : State) (t : Nat) : State :=
  let now := s.icc t
  let rs := (s.tile t).seq.stReads.filter fun r => r.cycle ≤ now
  (rs.foldl (·.deliver t) s).onSeq t fun q => { q with stReads := q.stReads.filter fun r => now < r.cycle }

/-- Flights in the order of their issues and slots, each with the cycle by which it lands: its bound, and in guarded mode, where
results land in issue order, a cycle before a later result to its place that has to land sooner (R3, R27, R28, log entry 98). -/
def Tile.landBy (x : Tile) (fs : List Flight) : List (Flight × Nat) :=
  fs.foldr (fun f later =>
    (f, if !x.sys.gm then f.bound else later.foldl (fun by_ g =>
        if g.2 < by_ && g.1.dests.any f.dests.contains then max (f.issue + 1) (g.2 - 1) else by_) f.bound) :: later) []

/-- In guarded mode a result whose bound has passed waits for an earlier one to its place whose value is not there yet. It lands
once that one has, and stays whatever their slots, as results land in issue order (R28, log entry 98). -/
def Tile.overdue (x : Tile) (now : Nat) : Tile :=
  if !x.sys.gm then x
  else { x with seq := { x.seq with flights := x.seq.flights.map fun f => if f.bound < now then { f with rival := false } else f } }

/-- The results whose bound has come land, in issue and slot order. On which cycle of issue + 1 … issue + L a result lands is
left open; the model lands it on its bound, unless a RESULT_LANDING of the inbox lands it before (R27, R28, log entry 5). -/
def State.landDue (s : State) (t : Nat) : State :=
  let now := s.icc t
  let s := s.onTile t (·.overdue now)
  let fs := (s.tile t).landBy (sortBy (fun f => f.issue * 8 + f.slot) (s.tile t).seq.flights)
  (fs.filter fun e => e.2 ≤ now).foldl (fun s e =>
    if (s.tile t).mayLand e.1 now then s.landFlight t e.1 else s) s

/-- A bundle's post-operations act in turn, until one has to wait (R42, R44). -/
def State.runAfter (s : State) (t : Nat) : Nat → State
  | 0 => s
  | n + 1 =>
    match (s.tile t).seq.after with
    | [] => s
    | i :: _ =>
      match exec i s with
      | .next s' => if (s'.tile t).seq.after == (s.tile t).seq.after then s' else s'.runAfter t n
      | _ => s

/-- A tile whose drain at a yield or re-plan point ends by a fault goes on to the bundle that would issue next, which the
trap is taken at (R335). -/
def Tile.leaveDrain (x : Tile) : Tile :=
  let point := match x.task with | some k => k.point | none => 0
  if x.seq.phase == .suspending && point < 2 && !x.seq.after.isEmpty then
    { x with seq := { x.seq with phase := .running, stall := .none } }
  else x

/-- Whether a fault is to be raised on a tile now. One that is taking a trap to its handler raises it there, and one that is
stopped or suspended once it goes on again (R171). -/
def Tile.faultDue (x : Tile) (now : Nat) : Bool :=
  (x.seq.faults.any fun e => e.1 ≤ now) && x.seq.phase.live

/-- The faults found earlier that are due on a tile: the one of the lowest slot is taken, at the bundle that issues or waits. Of
the others the engines find theirs again at a restart (R171, R172, R225, R245, R279). -/
def State.raiseFaults (s : State) (t : Nat) : State :=
  let now := s.icc t
  if !(s.tile t).faultDue now then s
  else
    let s := (s.onTile t Tile.leaveDrain).runAfter t 4
    let due := (s.tile t).seq.faults.filter fun e => e.1 ≤ now
    let low := due.foldl (fun m e => min m e.2.slot) 15
    let s := s.raiseFound t fun r => r.slot == low
    s.onSeq t fun q => { q with faults := q.faults.filter fun e => now < e.1 || e.2.code < 0x20 || 0x50 ≤ e.2.code }

/-- A gang member's halt takes effect; one that drains for its handler is halted before the handler's first bundle (R152). -/
def State.halt (s : State) (t : Nat) : State :=
  match (s.tile t).seq.haltBy with
  | some u => if (s.tile t).seq.entering then s else (s.haltTile t u).onSeq t fun q => { q with haltBy := none }
  | none => s

/-- A sync wait is a suspension point on every cycle: a task with a notice of pre-emption or of a hold suspends (R335). -/
def State.suspendWait (s : State) (t : Nat) : State :=
  let x := s.tile t
  if x.seq.phase != .running || !x.sys.pre then s
  else match x.seq.stall with
    | .arriving _ => s.suspendAt t 2
    | .released _ => s.suspendAt t 3
    | _ => s

/-- The banks that reach a due point: they are counted before what issues or traps on the cycle, so that a REFPB of the cycle pulls
in from the count that the due point leaves, and a frame shows that count beside the due point's age (R174, R175, R189, log entry
54). -/
def State.refreshDues (s : State) (t : Nat) : State :=
  let x := s.tile t
  ((List.range 31).filter fun b => (x.owns b || x.keeps b) && s.isDue t b).foldl (fun s b =>
    match execRefreshDuePoint t b s with | .next s => s | _ => s) s

/-- The island cycle of a tile begins. -/
def State.beginCycle (s : State) (t : Nat) : State :=
  let s := (s.showNotices t).onTile t Tile.takeEffect
  let s := (((s.readStaging t).landDue t).settle t).settleDrain t
  ((s.suspendWait t).raiseFaults t).reactivate t

/-! ### The next reference cycle -/

/-- The tiles whose island cycle ends and begins: those of islands that are not stretched. -/
def State.moving (s : State) (p : Island → Bool) : List Nat := (s.tiles.map (·.1)).filter fun t => !p (s.island (t / 16))

/-- The idle refresh sequencer of a tile takes the channel, where the D slot has left it free on this cycle: for the first of its
banks that R163 admits (R159, R176). Under the other pacing it acts by itself once a bank is late. -/
def State.refreshBanks (s : State) (t : Nat) : State :=
  let x := s.tile t
  if !x.vault.keeper && x.saved.isNone then s
  else ((List.range 31).filter fun b =>
      let k := vget { } x.vault.banks b
      x.keeps b && (k.opened || 0 < k.owed) && (s.pacing == .eager || s.refreshLate t b)).foldl (fun s b =>
    match execSequencerRefresh t b s with | .next s => s | _ => s) s

/-- TICK: sr.pcc advances by 1. -/
def State.tick (s : State) : State :=
  let ms := s.moving (·.due)
  let s := ((ms.foldl State.refreshBanks s).endCycle ms).advanceIslands
  let s := { s with pcc := s.pcc + 1 }.advancePtp.advanceService
  let ts := s.moving (·.stretch)
  let s := (s.tiles.map (·.1)).foldl State.refreshDues s
  let s := ts.foldl State.beginCycle (ts.foldl State.halt s)
  let s := ((s.launches.map (·.1)).foldl State.concludes s).resets
  { s with agenda := s.dues ts, turn := if s.boot = .ready then ts.filter fun t => (s.tile t).task.isSome else [] }

end Sys2Proof.Machine
end

