-- ==== Sys2Proof/Machine/Issuing.lean ====
section
/-! DEFINITION. A tile's turn on a cycle: its post-operations, its issue, and the slots of that issue; and the placing of one
instruction where the machine issues next (R42, R45, R58; log entries 4, 11). -/

namespace Sys2Proof.Machine

/-- Whether an operation is TRAP, which is taken once the other slots of its bundle have issued (R149). -/
def isTrap : Instr → Bool
  | .trap _ => true
  | _ => false

/-- The operations that an issue sends out, one after another; the issue has checked them all (R58). -/
def runOps (t addr : Nat) : List (Nat × Nat × Instr) → State → Host.Outcome State Fault Refusal
  | [], s => .next s
  | (slot, index, i) :: r, s =>
    match exec i (s.focusOn t slot index addr true) with
    | .next s => runOps t addr r s
    | o => o

/-- The slots of an issue act, TRAP last. -/
def State.drainOut (s : State) : Host.Outcome State Fault Refusal :=
  let ops := s.out
  match runOps s.focus.tile s.focus.addr (ops.filter (!isTrap ·.2.2) ++ ops.filter (isTrap ·.2.2)) { s with out := [] } with
  | .next s => .next { s with focus := { } }
  | o => o

/-- The last bundle of a cancelled launch's task has made its last issue: nothing issues again (R344). -/
def Tile.ceased (x : Tile) : Tile := if x.seq.ceasing && !x.seq.inHand then x.closed else x

/-- What a tile does after an issue: its slots' operations have gone out; what holds it is set, and its post-operations
act. -/
def State.afterIssue (s : State) (t : Nat) : State :=
  (((s.onTile t Tile.ceased).closeBundle t).runAfter t 4).closeBundle t

/-- A tile's turn: post-operations that waited, then its issue, if it comes to one (R42 to R44). -/
def State.tileTurn (s : State) (t : Nat) : Host.Outcome State Fault Refusal :=
  let s := s.afterIssue t
  match exec (.bundleIssue t .clean) s with
  | .next s =>
    match s.drainOut with
    | .next s => .next (s.afterIssue t)
    | o => o
  | o => o

/-- Whether an instruction is an operation of a slot, which only a bundle brings. -/
def isSlotOp (i : Instr) : Bool := (slotFor i).isSome

/-- An event from outside takes place; the operations of an issue that it makes act at once. -/
def State.event (s : State) (i : Instr) : Host.Outcome State Fault Refusal :=
  if isSlotOp i then .next s
  else match exec i s with
    | .next s => s.drainOut
    | o => o

/-! ### One instruction placed -/

/-- The slots of an instruction word, the one that decodes it first (log entry 11). -/
def slotOfWord (nbits w : Nat) : Option Slot :=
  let ok := fun (sl : Slot) => match decodeWord sl (BitVec.ofNat 64 w) with | .ok _ => true | .error _ => false
  if nbits ≤ 32 then [Slot.x, .d].find? ok else [Slot.s, .v0, .m, .c0].find? ok

/-- The granules of a bundle with one word in a slot (R37, R39, R40). -/
def oneWordBundle (sl : Slot) (w : Nat) : List Word :=
  [BitVec.twoPow 64 (63 - sl.num), BitVec.ofNat 64 w]

/-- A function-entry line whose first bundle has one word, and whose second has none (R36). -/
def oneWordLine (sl : Slot) (w : Nat) : List Word :=
  BitVec.ofNat 64 (10 * 2 ^ 48 + 2 * 2 ^ 32 + 2 ^ 31) :: oneWordBundle sl w ++ [0]

/-- A sequencer that issues next at a code address, on this cycle. -/
def Seq.ready (q : Seq) (a now : Nat) : Seq :=
  { q with
    phase := .running, stall := .none, pc := a, next := a, inHand := false, issueNo := 0, hushed := false, calm := false
    after := [], closing := none, nextAt := now, checks := [], flights := q.flights.filter fun f => f.check.isNone
    window := [{ addr := lineOf a, asked := now, here := true }] }

/-- A task of a launch of one role, for a tile that has none. -/
def Task.sole : Task := { serial := 0, role := 0, record := List.replicate 17 0, variant := 0 }

/-- The state in which tile 0 issues a bundle of one word next (log entry 4). -/
def State.placeWord (s : State) (sl : Slot) (w : Nat) : State :=
  let now := s.icc 0
  let s := { s with
    boot := .ready, agenda := [], inbox := [], out := [], focus := { }, turn := [0]
    mem := writeBytes s.mem (codeAddr 0 0) ((oneWordLine sl w).flatMap fun (g : Word) => leBytes 8 g.toNat) }
  s.onTile 0 fun x => { x with task := some (x.task.getD Task.sole), seq := x.seq.ready 8 now }

/-! ### The inbox -/

/-- Whether the first event of the inbox comes now: its cycle has come, or the package has no power and nothing else can
(R349, log entry 4). -/
def State.eventDue (s : State) : Bool :=
  match s.inbox with
  | e :: _ => s.boot == .off || e.1 ≤ s.pcc
  | [] => false

/-- The first event of the inbox takes place. -/
def State.nextEvent (s : State) : Host.Outcome State Fault Refusal :=
  match s.inbox with
  | e :: r => { s with inbox := r }.event e.2
  | [] => .next s

/-- With nothing left to do on a cycle, the next one begins; without power nothing does (R349). -/
def State.nextCycle (s : State) : State := if s.boot = .off then s else s.tick

end Sys2Proof.Machine
end

