-- ==== Sys2Proof/Machine/Step.lean ====
section
/-! DEFINITION. The step of the machine, and the placing of one instruction where it issues next (log entries 4, 11). -/

namespace Sys2Proof.Machine

/-- One step: an event that the machine has due, an event from outside whose cycle has come, the turn of the next tile, or
the next reference cycle (log entry 4). -/
def step (s : State) : Host.Outcome State Fault Refusal :=
  match s.agenda with
  | d :: r => runDue d { s with agenda := r }
  | [] =>
    if s.eventDue then s.nextEvent
    else match s.turn with
      | t :: r => { s with turn := r }.tileTurn t
      | [] => .next s.nextCycle

/-- The state with one instruction word stored where tile 0 issues next, in the slot whose decoder reads it (log entries
4, 11). -/
def State.withFetchWord (s : State) (nbits w : Nat) : State := s.placeWord ((slotOfWord nbits w).getD .s) w

end Sys2Proof.Machine
end

