-- ==== Sys2Proof/Safety.lean ====
section
/-! DEFINITION. What a run is, and what counts as a safe one: the machine's own traps are next states; a fault or a
refusal is where the model itself stops. -/

namespace Sys2Proof.Machine

/-- One step leads from a state to another. -/
def Steps (s s' : State) : Prop := step s = .next s'

/-- A run of steps leads from a state to another. -/
inductive Reaches : State → State → Prop
  | refl (s : State) : Reaches s s
  | tail {s t u : State} : Reaches s t → Steps t u → Reaches s u

/-- A state at which the model goes on. -/
def GoesOn (s : State) : Prop := ∃ s', Steps s s'

/-- A state from which no run comes to a fault or a refusal. -/
def Safe (s : State) : Prop := ∀ s', Reaches s s' → GoesOn s'

/-! ### What statements say of an instruction -/

/-- The checks let the operation in hand go: its bundle's issue has made them for all its slots, or they find nothing
against it now (R58). -/
def Goes (i : Instr) (s : State) : Prop := s.focus.checked = true ∨ verdict s (s.ctx i) i = .go

/-- An operation of a slot completes with an effect wherever its checks let it go; the values it leaves open are used up
(log entry 3). -/
def IssuesAs (i : Instr) (eff : Ctx → State → State) : Prop :=
  ∀ s, Goes i s → exec i s = .next (eff (s.ctx i) s).nextFree

/-- An operation of a V or X slot completes with an effect, and takes its unit for its interval (R192). -/
def VectorIssuesAs (i : Instr) (eff : Ctx → State → State) : Prop :=
  IssuesAs i fun c s => (eff c s).takeVector c i

/-- An instruction completes in a state with a state of which something holds. -/
def Completes (i : Instr) (s : State) (p : State → Prop) : Prop := ∃ u, exec i s = .next u ∧ p u

/-- No register, no system register, no byte of staging and no byte of memory differs between two states. -/
structure SameStores (s u : State) : Prop where
  regs : ∀ t, (u.tile t).regs = (s.tile t).regs
  sys : ∀ t, (u.tile t).sys = (s.tile t).sys
  staging : ∀ t a, readByte (u.tile t).st a = readByte (s.tile t).st a
  mem : ∀ a, readByte u.mem a = readByte s.mem a
  mem2 : ∀ a, readByte u.mem2 a = readByte s.mem2 a
  hostMem : ∀ a, readByte u.hostMem a = readByte s.hostMem a

/-- Every memory in its canonical form: addresses strictly rising, no listed byte 0 (log entry 2). -/
def Canonical (s : State) : Prop :=
  s.mem.wf = true ∧ s.mem2.wf = true ∧ s.hostMem.wf = true ∧ ∀ t, (s.tile t).st.wf = true

/-- A port whose node owns the package and has a session on it while the package is up: what the owner's commands are carried
out for (R357, R359, R381). -/
def Owns (s : State) (port : Nat) : Prop := port < 2 ∧ s.boot = .ready ∧ s.heard port = true ∧ s.commander = some port

/-- A command of another node than the owner's is refused and both nodes are told, and one of a port without a session is
not heard; the log has a record of either (R357, R359, R380, R381; the numbers in it are log entry 112's). -/
def OwnersOnly (i : Instr) (port : Nat) : Prop :=
  ∀ s : State, port < 2 → s.boot = .ready →
    (s.heard port = false → exec i s = .next (s.logIt 5 3 port 0)) ∧
    (s.heard port = true → s.commander ≠ some port →
      exec i s = .next (((s.logIt 5 1 port 0).tell port (.refused 0)).tell (1 - port) (.warning 5 port)))

end Sys2Proof.Machine
end

