-- ==== Sys2Proof/Certificates/Slice0/Obligations.lean ====
section
/-! DEFINITION. What is to be proved of the model: for every instruction where it completes and with what state, the
encoding and its inverse, frames, and what every step keeps. Statements of values that the spec leaves open hold for every
value (log entry 3). -/

open Sys2Proof Sys2Proof.Machine

/-- The integer operations in register form (R109, R112): each completes wherever its checks let it go, with its result in flight to
s[d]; a divide takes the divider. -/
def Obligations.ScalarRegisterResults : Prop :=
  (∀ f, IssuesAs (.add f) fun c s => s.flightS c 1 f.d (s.readS c f.a + s.readS c f.b)) ∧
  (∀ f, IssuesAs (.sub f) fun c s => s.flightS c 1 f.d (s.readS c f.a - s.readS c f.b)) ∧
  (∀ f, IssuesAs (.mul f) fun c s => s.flightS c 3 f.d (s.readS c f.a * s.readS c f.b)) ∧
  (∀ f, IssuesAs (.mulhs f) fun c s => s.flightS c 3 f.d (BitVec.ofInt 64 ((s.readS c f.a).toInt * (s.readS c f.b).toInt / 2 ^ 64))) ∧
  (∀ f, IssuesAs (.mulhu f) fun c s => s.flightS c 3 f.d (BitVec.ofNat 64 ((s.readS c f.a).toNat * (s.readS c f.b).toNat / 2 ^ 64))) ∧
  (∀ f, IssuesAs (.div f) fun c s => (s.flightS c 34 f.d (if s.readS c f.b = 0 then -1 else BitVec.ofInt 64 ((s.readS c f.a).toInt.tdiv (s.readS c f.b).toInt))).takeDivider c) ∧
  (∀ f, IssuesAs (.divu f) fun c s => (s.flightS c 34 f.d (if s.readS c f.b = 0 then -1 else BitVec.ofNat 64 ((s.readS c f.a).toNat / (s.readS c f.b).toNat))).takeDivider c) ∧
  (∀ f, IssuesAs (.rem f) fun c s => (s.flightS c 34 f.d (if s.readS c f.b = 0 then s.readS c f.a else BitVec.ofInt 64 ((s.readS c f.a).toInt.tmod (s.readS c f.b).toInt))).takeDivider c) ∧
  (∀ f, IssuesAs (.remu f) fun c s => (s.flightS c 34 f.d (if s.readS c f.b = 0 then s.readS c f.a else BitVec.ofNat 64 ((s.readS c f.a).toNat % (s.readS c f.b).toNat))).takeDivider c) ∧
  (∀ f, IssuesAs (.and f) fun c s => s.flightS c 1 f.d (s.readS c f.a &&& s.readS c f.b)) ∧
  (∀ f, IssuesAs (.or f) fun c s => s.flightS c 1 f.d (s.readS c f.a ||| s.readS c f.b)) ∧
  (∀ f, IssuesAs (.xor f) fun c s => s.flightS c 1 f.d (s.readS c f.a ^^^ s.readS c f.b)) ∧
  (∀ f, IssuesAs (.andn f) fun c s => s.flightS c 1 f.d (s.readS c f.a &&& ~~~(s.readS c f.b))) ∧
  (∀ f, IssuesAs (.shl f) fun c s => s.flightS c 1 f.d ((s.readS c f.a) <<< ((s.readS c f.b).toNat % 64))) ∧
  (∀ f, IssuesAs (.shr f) fun c s => s.flightS c 1 f.d ((s.readS c f.a) >>> ((s.readS c f.b).toNat % 64))) ∧
  (∀ f, IssuesAs (.sar f) fun c s => s.flightS c 1 f.d ((s.readS c f.a).sshiftRight ((s.readS c f.b).toNat % 64))) ∧
  (∀ f, IssuesAs (.rol f) fun c s => s.flightS c 1 f.d ((s.readS c f.a).rotateLeft ((s.readS c f.b).toNat % 64))) ∧
  (∀ f, IssuesAs (.min f) fun c s => s.flightS c 1 f.d (if (s.readS c f.a).toInt < (s.readS c f.b).toInt then s.readS c f.a else s.readS c f.b)) ∧
  (∀ f, IssuesAs (.max f) fun c s => s.flightS c 1 f.d (if (s.readS c f.a).toInt < (s.readS c f.b).toInt then s.readS c f.b else s.readS c f.a)) ∧
  (∀ f, IssuesAs (.minu f) fun c s => s.flightS c 1 f.d (if (s.readS c f.a).toNat < (s.readS c f.b).toNat then s.readS c f.a else s.readS c f.b)) ∧
  (∀ f, IssuesAs (.maxu f) fun c s => s.flightS c 1 f.d (if (s.readS c f.a).toNat < (s.readS c f.b).toNat then s.readS c f.b else s.readS c f.a)) ∧
  (∀ f, IssuesAs (.clz f) fun c s => s.flightS c 1 f.d (clz64 (s.readS c f.a))) ∧
  (∀ f, IssuesAs (.ctz f) fun c s => s.flightS c 1 f.d (ctz64 (s.readS c f.a))) ∧
  (∀ f, IssuesAs (.popc f) fun c s => s.flightS c 1 f.d (popc64 (s.readS c f.a))) ∧
  (∀ f, IssuesAs (.bswap f) fun c s => s.flightS c 1 f.d (bswap64 (s.readS c f.a)))

/-- The integer operations in immediate form, and LIH (R112, R113). -/
def Obligations.ScalarImmediateResults : Prop :=
  (∀ f, IssuesAs (.addi f) fun c s => s.flightS c 1 f.d (s.readS c f.a + f.imm.signExtend 64)) ∧
  (∀ f, IssuesAs (.subi f) fun c s => s.flightS c 1 f.d (s.readS c f.a - f.imm.signExtend 64)) ∧
  (∀ f, IssuesAs (.muli f) fun c s => s.flightS c 3 f.d (s.readS c f.a * f.imm.signExtend 64)) ∧
  (∀ f, IssuesAs (.mulhsi f) fun c s => s.flightS c 3 f.d (BitVec.ofInt 64 ((s.readS c f.a).toInt * (f.imm.signExtend 64).toInt / 2 ^ 64))) ∧
  (∀ f, IssuesAs (.mulhui f) fun c s => s.flightS c 3 f.d (BitVec.ofNat 64 ((s.readS c f.a).toNat * (f.imm.signExtend 64).toNat / 2 ^ 64))) ∧
  (∀ f, IssuesAs (.divi f) fun c s => (s.flightS c 34 f.d (if f.imm.signExtend 64 = 0 then -1 else BitVec.ofInt 64 ((s.readS c f.a).toInt.tdiv (f.imm.signExtend 64).toInt))).takeDivider c) ∧
  (∀ f, IssuesAs (.divui f) fun c s => (s.flightS c 34 f.d (if f.imm.signExtend 64 = 0 then -1 else BitVec.ofNat 64 ((s.readS c f.a).toNat / (f.imm.signExtend 64).toNat))).takeDivider c) ∧
  (∀ f, IssuesAs (.remi f) fun c s => (s.flightS c 34 f.d (if f.imm.signExtend 64 = 0 then s.readS c f.a else BitVec.ofInt 64 ((s.readS c f.a).toInt.tmod (f.imm.signExtend 64).toInt))).takeDivider c) ∧
  (∀ f, IssuesAs (.remui f) fun c s => (s.flightS c 34 f.d (if f.imm.signExtend 64 = 0 then s.readS c f.a else BitVec.ofNat 64 ((s.readS c f.a).toNat % (f.imm.signExtend 64).toNat))).takeDivider c) ∧
  (∀ f, IssuesAs (.andi f) fun c s => s.flightS c 1 f.d (s.readS c f.a &&& f.imm.signExtend 64)) ∧
  (∀ f, IssuesAs (.ori f) fun c s => s.flightS c 1 f.d (s.readS c f.a ||| f.imm.signExtend 64)) ∧
  (∀ f, IssuesAs (.xori f) fun c s => s.flightS c 1 f.d (s.readS c f.a ^^^ f.imm.signExtend 64)) ∧
  (∀ f, IssuesAs (.andni f) fun c s => s.flightS c 1 f.d (s.readS c f.a &&& ~~~(f.imm.signExtend 64))) ∧
  (∀ f, IssuesAs (.shli f) fun c s => s.flightS c 1 f.d ((s.readS c f.a) <<< ((f.imm.signExtend 64).toNat % 64))) ∧
  (∀ f, IssuesAs (.shri f) fun c s => s.flightS c 1 f.d ((s.readS c f.a) >>> ((f.imm.signExtend 64).toNat % 64))) ∧
  (∀ f, IssuesAs (.sari f) fun c s => s.flightS c 1 f.d ((s.readS c f.a).sshiftRight ((f.imm.signExtend 64).toNat % 64))) ∧
  (∀ f, IssuesAs (.roli f) fun c s => s.flightS c 1 f.d ((s.readS c f.a).rotateLeft ((f.imm.signExtend 64).toNat % 64))) ∧
  (∀ f, IssuesAs (.mini f) fun c s => s.flightS c 1 f.d (if (s.readS c f.a).toInt < (f.imm.signExtend 64).toInt then s.readS c f.a else f.imm.signExtend 64)) ∧
  (∀ f, IssuesAs (.maxi f) fun c s => s.flightS c 1 f.d (if (s.readS c f.a).toInt < (f.imm.signExtend 64).toInt then f.imm.signExtend 64 else s.readS c f.a)) ∧
  (∀ f, IssuesAs (.minui f) fun c s => s.flightS c 1 f.d (if (s.readS c f.a).toNat < (f.imm.signExtend 64).toNat then s.readS c f.a else f.imm.signExtend 64)) ∧
  (∀ f, IssuesAs (.maxui f) fun c s => s.flightS c 1 f.d (if (s.readS c f.a).toNat < (f.imm.signExtend 64).toNat then f.imm.signExtend 64 else s.readS c f.a)) ∧
  (∀ f, IssuesAs (.lih f) fun c s => s.flightS c 1 f.d (f.imm.extractLsb' 0 24 ++ (s.readS c f.a).extractLsb' 0 40))

/-- The compares and the predicate operations (R114). -/
def Obligations.CompareResults : Prop :=
  (∀ f, IssuesAs (.cmpeq f) fun c s => s.flightP c 1 f.pd (s.readS c f.a == s.readS c f.b)) ∧
  (∀ f, IssuesAs (.cmpne f) fun c s => s.flightP c 1 f.pd (s.readS c f.a != s.readS c f.b)) ∧
  (∀ f, IssuesAs (.cmplt f) fun c s => s.flightP c 1 f.pd (decide ((s.readS c f.a).toInt < (s.readS c f.b).toInt))) ∧
  (∀ f, IssuesAs (.cmple f) fun c s => s.flightP c 1 f.pd (decide ((s.readS c f.a).toInt ≤ (s.readS c f.b).toInt))) ∧
  (∀ f, IssuesAs (.cmpltu f) fun c s => s.flightP c 1 f.pd (decide ((s.readS c f.a).toNat < (s.readS c f.b).toNat))) ∧
  (∀ f, IssuesAs (.cmpleu f) fun c s => s.flightP c 1 f.pd (decide ((s.readS c f.a).toNat ≤ (s.readS c f.b).toNat))) ∧
  (∀ f, IssuesAs (.cmpeqi f) fun c s => s.flightP c 1 f.pd (s.readS c f.a == f.imm.signExtend 64)) ∧
  (∀ f, IssuesAs (.cmpnei f) fun c s => s.flightP c 1 f.pd (s.readS c f.a != f.imm.signExtend 64)) ∧
  (∀ f, IssuesAs (.cmplti f) fun c s => s.flightP c 1 f.pd (decide ((s.readS c f.a).toInt < (f.imm.signExtend 64).toInt))) ∧
  (∀ f, IssuesAs (.cmplei f) fun c s => s.flightP c 1 f.pd (decide ((s.readS c f.a).toInt ≤ (f.imm.signExtend 64).toInt))) ∧
  (∀ f, IssuesAs (.cmpltui f) fun c s => s.flightP c 1 f.pd (decide ((s.readS c f.a).toNat < (f.imm.signExtend 64).toNat))) ∧
  (∀ f, IssuesAs (.cmpleui f) fun c s => s.flightP c 1 f.pd (decide ((s.readS c f.a).toNat ≤ (f.imm.signExtend 64).toNat))) ∧
  (∀ f, IssuesAs (.pand f) fun c s => s.flightP c 1 f.pd (s.readP c f.pa && s.readP c f.pb)) ∧
  (∀ f, IssuesAs (.por f) fun c s => s.flightP c 1 f.pd (s.readP c f.pa || s.readP c f.pb)) ∧
  (∀ f, IssuesAs (.pxor f) fun c s => s.flightP c 1 f.pd (xor (s.readP c f.pa) (s.readP c f.pb))) ∧
  (∀ f, IssuesAs (.pnot f) fun c s => s.flightP c 1 f.pd (!(s.readP c f.pa)))

/-- Generators, loops and branch preparation (R116, R118, R122). That the loop buffer begins a capture at the outermost level is R121's;
that it does so at the LOOP is the model's reading. -/
def Obligations.GeneratorLoopAndBranchResults : Prop :=
  (∀ f, IssuesAs (.agset f) fun c s =>
    s.flight c ((s.tile c.t).divisor 0) [.ag f.g.toNat f.f.toNat (s.readS c f.a + f.imm.signExtend 64)]) ∧
  (∀ f, IssuesAs (.agget f) fun c s => s.flightS c 1 f.a ((s.gen c f.g).1.field f.f.toNat)) ∧
  (∀ f, IssuesAs (.loop f) fun c s =>
    (s.onSeq c.t fun q =>
      let level : Loop :=
        { active := true, lc := BitVec.ofNat 32 (s.readS c f.a + f.imm.setWidth 64).toNat, l := 0, body := q.next }
      let q' := { q with loops := vset q.loops f.k.toNat level }
      if f.k.toNat = 0 || (q'.loops.toList.take f.k.toNat).all fun l => !l.active then
        { q' with captured := some (q.next, q.next), capture := true } else q').singleShot c) ∧
  (∀ f, IssuesAs (.prep f) fun c s => s.prepare c f.t (BitVec.ofNat 64 c.addr + f.imm.signExtend 64 * 8)) ∧
  (∀ f, IssuesAs (.prepr f) fun c s => s.prepare c f.t (s.readS c f.a + f.imm.signExtend 64 * 8))

/-- LD and ST: the access of staging on its cycle (R124, R125), or one more access of an open line region (R131). -/
def Obligations.StagingAccessResults : Prop :=
  (∀ f s, Goes (.ld f) s → (s.tile s.focus.tile).eng.region = none →
    let c := s.ctx (.ld f)
    let a := (s.gen c f.g).2.toNat
    let far := (s.gen c f.g).1.space = 1
    let h := hopCount c.t (islandTarget c.t a).1
    let from' := if far then islandTarget c.t a else (c.t, a)
    let cycle := if far then c.now + 6 + h else c.now + 1
    exec (.ld f) s = .next
      ((s.flightTo c (if f.d = 0 then [] else [.s f.d.toNat]) cycle (if far then c.now + 12 + 2 * h else c.now + 4)).onSeq c.t
        fun q => { q with stReads := q.stReads ++
          [{ cycle := cycle, tile := from'.1, slot := c.slot, addr := from'.2, len := Machine.sizeOf f.size
             use := .scalar s.nextId f.d.toNat f.sx, issue := c.now }] }).nextFree) ∧
  (∀ f s, Goes (.st f) s → (s.tile s.focus.tile).eng.region = none →
    let c := s.ctx (.st f)
    let a := (s.gen c f.g).2.toNat
    let far := (s.gen c f.g).1.space = 1
    let h := hopCount c.t (islandTarget c.t a).1
    let to' := if far then islandTarget c.t a else (c.t, a)
    exec (.st f) s = .next
      (s.onSeq c.t fun q => { q with stWrites := q.stWrites ++
          [{ cycle := if far then c.now + 6 + h else c.now + 1, tile := to'.1, slot := c.slot, addr := to'.2
             bytes := leBytes (Machine.sizeOf f.size) (s.readS c f.d).toNat, issue := c.now, isle := far }] }).nextFree) ∧
  (∀ f s line acc, Goes (.ld f) s → (s.tile s.focus.tile).eng.region = some (line, acc) →
    let c := s.ctx (.ld f)
    exec (.ld f) s = .next
      ((s.flightTo c (if f.d = 0 then [] else [.s f.d.toNat]) never never).onTile c.t fun x => { x with eng := { x.eng with
        region := some (line, acc ++ [{ store := false, off := (s.gen c f.g).2.toNat % 128, size := Machine.sizeOf f.size
                                        reg := f.d.toNat, sx := f.sx, data := 0, flight := some s.nextId }]) } }).nextFree) ∧
  (∀ f s line acc, Goes (.st f) s → (s.tile s.focus.tile).eng.region = some (line, acc) →
    let c := s.ctx (.st f)
    exec (.st f) s = .next
      (s.onTile c.t fun x => { x with eng := { x.eng with
        region := some (line, acc ++ [{ store := true, off := (s.gen c f.g).2.toNat % 128, size := Machine.sizeOf f.size
                                        reg := 0, sx := false, data := s.readS c f.d }]) } }).nextFree) ∧
  (∀ t (r : StRead) id reg sx (s : State), r.use = .scalar id reg sx → let n := leNat (readBytes (s.tile r.tile).st r.addr r.len)
    ((s.deliver t r).tile t).seq.flights = ((s.tile t).seq.flights.map fun g => if g.id = id then
      { g with writes := if reg = 0 then [] else [.s reg (loadedValue r.len sx n)] } else g) ∧
    SameStores s (s.deliver t r)) ∧
  (∀ size ∈ [1, 2, 4, 8], ∀ n, n < 2 ^ (8 * size) →
    loadedValue size false n = BitVec.ofNat 64 n ∧ loadedValue size true n = (BitVec.ofNat (8 * size) n).signExtend 64)

/-- The scalar atomics (R126 to R128): each leaves the tile with its address and operands. -/
def Obligations.ScalarAtomicResults : Prop :=
  (∀ f, IssuesAs (.stadd f) fun c s => s.atomic c f .add false) ∧
  (∀ f, IssuesAs (.stand f) fun c s => s.atomic c f .and false) ∧
  (∀ f, IssuesAs (.stor f) fun c s => s.atomic c f .or false) ∧
  (∀ f, IssuesAs (.stxor f) fun c s => s.atomic c f .xor false) ∧
  (∀ f, IssuesAs (.stmin f) fun c s => s.atomic c f .min false) ∧
  (∀ f, IssuesAs (.stmax f) fun c s => s.atomic c f .max false) ∧
  (∀ f, IssuesAs (.stminu f) fun c s => s.atomic c f .minu false) ∧
  (∀ f, IssuesAs (.stmaxu f) fun c s => s.atomic c f .maxu false) ∧
  (∀ f, IssuesAs (.stfadd f) fun c s => s.atomic c f .fadd false) ∧
  (∀ f, IssuesAs (.stfmin f) fun c s => s.atomic c f .fmin false) ∧
  (∀ f, IssuesAs (.stfmax f) fun c s => s.atomic c f .fmax false) ∧
  (∀ f, IssuesAs (.ldadd f) fun c s => s.atomic c f .add true) ∧
  (∀ f, IssuesAs (.ldand f) fun c s => s.atomic c f .and true) ∧
  (∀ f, IssuesAs (.ldor f) fun c s => s.atomic c f .or true) ∧
  (∀ f, IssuesAs (.ldxor f) fun c s => s.atomic c f .xor true) ∧
  (∀ f, IssuesAs (.ldmin f) fun c s => s.atomic c f .min true) ∧
  (∀ f, IssuesAs (.ldmax f) fun c s => s.atomic c f .max true) ∧
  (∀ f, IssuesAs (.ldminu f) fun c s => s.atomic c f .minu true) ∧
  (∀ f, IssuesAs (.ldmaxu f) fun c s => s.atomic c f .maxu true) ∧
  (∀ f, IssuesAs (.ldfadd f) fun c s => s.atomic c f .fadd true) ∧
  (∀ f, IssuesAs (.ldfmin f) fun c s => s.atomic c f .fmin true) ∧
  (∀ f, IssuesAs (.ldfmax f) fun c s => s.atomic c f .fmax true) ∧
  (∀ f, IssuesAs (.swp f) fun c s => s.atomic c f .swp true) ∧
  (∀ f, IssuesAs (.cas f) fun c s => s.atomic c f .cas true) ∧
  (∀ (c : Ctx) (s : State) (f : SM) (op : AOp) (ret : Bool),
    ((s.atomic c f op ret).tile c.t).eng.atomics = (s.tile c.t).eng.atomics ++
      [{ id := s.nextId, va := (s.gen c f.g).2.toNat, issue := c.now, flight := if ret then some s.nextId else none
         kind := .scalar op (Machine.sizeOf f.size) (s.readS c f.b) (s.readS c f.d) (if ret then some f.d.toNat else none) }])

/-- Atomic line regions (R131). -/
def Obligations.LineRegionResults : Prop :=
  (∀ g, IssuesAs (.albegin g) fun c s =>
    (s.onTile c.t fun x => { x with eng := { x.eng with region := some ((s.gen c g).2.toNat, []) } }).singleShot c) ∧
  (∀ s, Goes .alend s → ∃ u, exec .alend s = .next u ∧ (u.tile s.focus.tile).eng.region = none ∧
    ∀ line acc, (s.tile s.focus.tile).eng.region = some (line, acc) →
      (u.tile s.focus.tile).eng.atomics = (s.tile s.focus.tile).eng.atomics ++
        (if acc.isEmpty then [] else
          [{ id := s.nextId, va := line, kind := .line acc, issue := s.icc s.focus.tile, flight := acc.findSome? (·.flight) }]))

/-- System registers, MODE, CLKDIV and YIELDCHK (R136, R140 to R146): their effects at issue, and what the writes that they ask for do (R2, R77,
R78) and the divisors (R30, R334). -/
def Obligations.SystemRegisterResults : Prop :=
  (∀ f, IssuesAs (.mfsr f) fun c s => s.flightS c 1 f.d (s.sysRead c.t f.sys.toNat)) ∧
  (∀ f, IssuesAs (.mtsr f) fun c s =>
    (s.onSeq c.t fun q => { q with srPend := q.srPend ++ [{ sys := f.sys.toNat, how := 0, x := s.readS c f.d }] }).singleShot c) ∧
  (∀ f, IssuesAs (.mssr f) fun c s =>
    (s.onSeq c.t fun q => { q with srPend := q.srPend ++ [{ sys := f.sys.toNat, how := 1, x := s.readS c f.d }] }).singleShot c) ∧
  (∀ f, IssuesAs (.mcsr f) fun c s =>
    (s.onSeq c.t fun q => { q with srPend := q.srPend ++ [{ sys := f.sys.toNat, how := 2, x := s.readS c f.d }] }).singleShot c) ∧
  (∀ gm er, IssuesAs (.mode gm er) fun c s =>
    (s.onSeq c.t fun q => { q with closing := some (.modeDrain gm er) }).singleShot c) ∧
  (∀ e n, IssuesAs (.clkdiv e n) fun c s =>
    (s.onSeq c.t fun q => { q with divPend := q.divPend ++ [(e.toNat, n.toNat + 1)] }).singleShot c) ∧
  (∀ pd mask, IssuesAs (.yieldchk pd mask) fun c s =>
    (s.flightP c 1 pd ((mask.getLsbD 2 && (s.tile c.t).sys.pre) || (mask.getLsbD 1 && (s.tile c.t).sys.thr)
      || (mask.getLsbD 0 && (s.tile c.t).sys.rcls))).singleShot c) ∧
  (∀ (y : Sys) how (x : Word), how < 3 →
    let put := fun (old : Word) => if how = 0 then x else if how = 1 then old ||| x else old &&& ~~~x
    let at' := fun n => y.write { sys := n, how := how, x := x }
    modeWord (at' 0) = (modeWord y &&& 5) ||| (put (modeWord y) &&& 2) ∧ { at' 0 with er := y.er } = y ∧
    (at' 1).fpsr.setWidth 64 = put (y.fpsr.setWidth 64) &&& 0x3F ∧ { at' 1 with fpsr := y.fpsr } = y ∧
    (at' 2).ftrapen.setWidth 64 = put (y.ftrapen.setWidth 64) &&& 0x1F ∧ { at' 2 with ftrapen := y.ftrapen } = y ∧
    (at' 3).dfpsr.setWidth 64 = put (y.dfpsr.setWidth 64) &&& 0x1F ∧ { at' 3 with dfpsr := y.dfpsr } = y ∧
    (at' 4).dtrapen.setWidth 64 = put (y.dtrapen.setWidth 64) &&& 0x1F ∧ { at' 4 with dtrapen := y.dtrapen } = y ∧
    ((put (y.drm.setWidth 64) &&& 7).toNat < 5 → (at' 5).drm.setWidth 64 = put (y.drm.setWidth 64) &&& 7 ∧ { at' 5 with drm := y.drm } = y) ∧
    (5 ≤ (put (y.drm.setWidth 64) &&& 7).toNat → at' 5 = y) ∧
    (∀ svc, eventWord (at' 6) svc = eventWord y svc &&& ~~~(x &&& 0x10)) ∧ { at' 6 with sfail := y.sfail } = y ∧
    tvecWord (at' 7) = put (tvecWord y) &&& 0x00000FFF003FFFF9 ∧
    { at' 7 with trec := y.trec, handler := y.handler, en := y.en } = y ∧
    ∀ n, 8 ≤ n → at' n = y) ∧
  (∀ (x : Tile) (w : SrWrite), x.seq.srPend = [w] → (x.seq.inHand = true ∨ x.seq.divPend = []) → x.seq.phase = .running →
    let y := x.sys.write w
    x.takeEffect.sys = { y with fpsr := y.fpsr ||| x.seq.landedB, dfpsr := y.dfpsr ||| x.seq.landedD } ∧
    x.takeEffect.seq.srPend = [] ∧ x.takeEffect.regs = x.regs ∧ x.takeEffect.st = x.st) ∧
  (∀ (x : Tile) e n, e < 4 → x.seq.divPend = [(e, n)] →
    let y := x.newDivisors
    vget 0 y.sys.div e = max n (vget 1 x.sys.divFloor e) ∧ vget 0 y.sys.divReq e = n ∧ y.seq.divPend = [] ∧
    (∀ j, j ≠ e → vget 0 y.sys.div j = vget 0 x.sys.div j ∧ vget 0 y.sys.divReq j = vget 0 x.sys.divReq j) ∧
    { y.sys with div := x.sys.div, divReq := x.sys.divReq } = x.sys ∧ y.regs = x.regs ∧ y.st = x.st ∧
    (x.seq.inHand = false → x.seq.after = [] → x.seq.srPend = [] → x.takeEffect.sys = y.sys))

/-- Waits, FENCE, END, TRET, TRAP and S_NOP (R111, R133 to R135, R148, R149, R154). -/
def Obligations.WaitAndControlResults : Prop :=
  (IssuesAs .sNop fun c s => s.singleShot c) ∧
  (∀ f, IssuesAs (.waita f) fun c s =>
    (s.onSeq c.t fun q => { q with stall := .waita f.d.toNat (s.gen c f.g).2.toNat ((s.readS c f.b).extractLsb' 0 32) }).singleShot c) ∧
  (∀ k, IssuesAs (.waits k) fun c s => (s.onSeq c.t fun q => { q with stall := .waits k.toNat s.nextId }).singleShot c) ∧
  (∀ k, IssuesAs (.fence k) fun c s => (s.onSeq c.t fun q => { q with stall := .fence k.toNat s.nextId }).singleShot c) ∧
  (IssuesAs .endTask fun c s => (s.onSeq c.t fun q => { q with closing := some .ending }).singleShot c) ∧
  (IssuesAs .tret fun c s => (s.onSeq c.t fun q => { q with closing := some .tretDrain }).singleShot c) ∧
  (∀ k, IssuesAs (.trap k) fun c s => (s.singleShot c).trapIssued c.t { code := 0x80, slot := 0, aux := k.toNat })

/-- Binary floating-point arithmetic (R195, R196). -/
def Obligations.VectorFloatResults : Prop :=
  (∀ f, VectorIssuesAs (.vadd f) fun c s => s.fp2 c (.vadd f) f fun g fl rm a b => g.addFp fl rm a b) ∧
  (∀ f, VectorIssuesAs (.vsub f) fun c s => s.fp2 c (.vsub f) f fun g fl rm a b => g.addFp fl rm a b.neg) ∧
  (∀ f, VectorIssuesAs (.vmul f) fun c s => s.fp2 c (.vmul f) f fun g fl rm a b => g.mulFp fl rm a b) ∧
  (∀ f, VectorIssuesAs (.vdiv f) fun c s => s.fp2 c (.vdiv f) f fun g fl rm a b => g.divFp fl rm a b) ∧
  (∀ f, VectorIssuesAs (.vfma f) fun c s => s.fp3 c (.vfma f) f fun g fl rm a b e => g.fmaFp fl rm a b e) ∧
  (∀ f, VectorIssuesAs (.vfms f) fun c s => s.fp3 c (.vfms f) f fun g fl rm a b e => g.fmaFp fl rm a b e.neg) ∧
  (∀ f, VectorIssuesAs (.vfnma f) fun c s => s.fp3 c (.vfnma f) f fun g fl rm a b e => g.fmaFp fl rm a.neg b e) ∧
  (∀ f, VectorIssuesAs (.vsqrt f) fun c s => s.fp1 c (.vsqrt f) f fun g fl rm a => g.sqrtFp fl rm a) ∧
  (∀ f, VectorIssuesAs (.vrcp f) fun c s => s.fp1 c (.vrcp f) f fun g fl rm a => g.rcpFp fl rm a) ∧
  (∀ f, VectorIssuesAs (.vrsq f) fun c s => s.fp1 c (.vrsq f) f fun g fl rm a => g.rsqFp fl rm a) ∧
  (∀ f, VectorIssuesAs (.vexp2 f) fun c s => s.fp1 c (.vexp2 f) f fun g fl rm a => g.exp2Fp fl rm a) ∧
  (∀ f, VectorIssuesAs (.vlog2 f) fun c s => s.fp1 c (.vlog2 f) f fun g fl rm a => g.log2Fp fl rm a) ∧
  (∀ f, VectorIssuesAs (.vmin f) fun c s => s.mapArith c (.vmin f) f false fun a b _ => (fmtOfTy f.ty).extreme (s.flushes c) false a b) ∧
  (∀ f, VectorIssuesAs (.vmax f) fun c s => s.mapArith c (.vmax f) f false fun a b _ => (fmtOfTy f.ty).extreme (s.flushes c) true a b) ∧
  (∀ f, VectorIssuesAs (.vabs f) fun c s => s.mapBits c (.vabs f) f fun k a _ => a % 2 ^ (k - 1)) ∧
  (∀ f, VectorIssuesAs (.vneg f) fun c s => s.mapBits c (.vneg f) f fun k a _ => a ^^^ 2 ^ (k - 1))

/-- Integer and bit arithmetic of the V slots (R197, R198). -/
def Obligations.VectorIntegerResults : Prop :=
  (∀ f, VectorIssuesAs (.viadd f) fun c s => s.mapBits c (.viadd f) f fun k a b => (a + b) % 2 ^ k) ∧
  (∀ f, VectorIssuesAs (.visub f) fun c s => s.mapBits c (.visub f) f fun k a b => (a + (2 ^ k - b)) % 2 ^ k) ∧
  (∀ f, VectorIssuesAs (.vimul f) fun c s => s.mapBits c (.vimul f) f fun k a b => a * b % 2 ^ k) ∧
  (∀ f, VectorIssuesAs (.vimin f) fun c s => s.mapBits c (.vimin f) f fun k a b => if sext k a < sext k b then a else b) ∧
  (∀ f, VectorIssuesAs (.vimax f) fun c s => s.mapBits c (.vimax f) f fun k a b => if sext k a < sext k b then b else a) ∧
  (∀ f, VectorIssuesAs (.viminu f) fun c s => s.mapBits c (.viminu f) f fun _ a b => min a b) ∧
  (∀ f, VectorIssuesAs (.vimaxu f) fun c s => s.mapBits c (.vimaxu f) f fun _ a b => max a b) ∧
  (∀ f, VectorIssuesAs (.vand f) fun c s => s.mapBits c (.vand f) f fun _ a b => a &&& b) ∧
  (∀ f, VectorIssuesAs (.vor f) fun c s => s.mapBits c (.vor f) f fun _ a b => a ||| b) ∧
  (∀ f, VectorIssuesAs (.vxor f) fun c s => s.mapBits c (.vxor f) f fun _ a b => a ^^^ b) ∧
  (∀ f, VectorIssuesAs (.vshl f) fun c s => s.mapBits c (.vshl f) f fun k a b => a * 2 ^ (b % k) % 2 ^ k) ∧
  (∀ f, VectorIssuesAs (.vshr f) fun c s => s.mapBits c (.vshr f) f fun k a b => a / 2 ^ (b % k)) ∧
  (∀ f, VectorIssuesAs (.vsar f) fun c s => s.mapBits c (.vsar f) f fun k a b => wrap k (sext k a / 2 ^ (b % k))) ∧
  (∀ f, VectorIssuesAs (.viadds f) fun c s => s.mapBits c (.viadds f) f fun k a b => wrap k (clampS k (sext k a + sext k b))) ∧
  (∀ f, VectorIssuesAs (.visubs f) fun c s => s.mapBits c (.visubs f) f fun k a b => wrap k (clampS k (sext k a - sext k b))) ∧
  (∀ f, VectorIssuesAs (.vadd128 f) fun c s => 
    s.moved c (.vadd128 f) f.d.toNat 128 (packMask ((List.range 64).map fun j => (s.active c f.m f.me).getLsbD (2 * j)))
      ((List.range 64).map fun j => (elem (s.readV c f.a.toNat) 128 j + elem (s.readV c f.b.toNat) 128 j) % 2 ^ 128))

/-- Compares and mask operations (R199, R200). -/
def Obligations.VectorCompareAndMaskResults : Prop :=
  (∀ f, VectorIssuesAs (.vcmpeq f) fun c s => s.fpCompare c (.vcmpeq f) f .eq) ∧
  (∀ f, VectorIssuesAs (.vcmpne f) fun c s => s.fpCompare c (.vcmpne f) f .ne) ∧
  (∀ f, VectorIssuesAs (.vcmplt f) fun c s => s.fpCompare c (.vcmplt f) f .lt) ∧
  (∀ f, VectorIssuesAs (.vcmple f) fun c s => s.fpCompare c (.vcmple f) f .le) ∧
  (∀ f, VectorIssuesAs (.vcmpun f) fun c s => s.fpCompare c (.vcmpun f) f .un) ∧
  (∀ f, VectorIssuesAs (.vicmplt f) fun c s => s.compare c (.vicmplt f) f false false fun k a b => (decide (sext k a < sext k b), 0)) ∧
  (∀ f, VectorIssuesAs (.vicmpltu f) fun c s => s.compare c (.vicmpltu f) f false false fun _ a b => (decide (a < b), 0)) ∧
  (∀ f, VectorIssuesAs (.mand f) fun c s => s.flightV c (.mand f) [.m f.md.toNat (s.readM c f.ma &&& s.readM c f.mb)]) ∧
  (∀ f, VectorIssuesAs (.mor f) fun c s => s.flightV c (.mor f) [.m f.md.toNat (s.readM c f.ma ||| s.readM c f.mb)]) ∧
  (∀ f, VectorIssuesAs (.mxor f) fun c s => s.flightV c (.mxor f) [.m f.md.toNat (s.readM c f.ma ^^^ s.readM c f.mb)]) ∧
  (∀ f, VectorIssuesAs (.mnot f) fun c s => s.flightV c (.mnot f) [.m f.md.toNat (~~~(s.readM c f.ma))]) ∧
  (∀ f, VectorIssuesAs (.mpop f) fun c s => if f.d = 0 then s else
    s.flightV c (.mpop f) [.s f.d.toNat (BitVec.ofNat 64 ((List.range (tyCount f.ty)).countP fun j => (s.readM c f.ma).getLsbD j))]) ∧
  (∀ f, VectorIssuesAs (.mset f) fun c s => s.flightV c (.mset f) [.m f.md.toNat (BitVec.ofNat 1024 (2 ^ min (s.readS c f.d).toNat (tyCount f.ty) - 1))])

/-- Select, permute, broadcast, compact, expand, move, and VRNG (R201, R208). -/
def Obligations.VectorMoveResults : Prop :=
  (∀ f, VectorIssuesAs (.vsel f) fun c s => s.moved c (.vsel f) f.d.toNat (8 * tyWidth f.ty) (BitVec.allOnes 1024)
    ((List.range (tyCount f.ty)).map fun j => if (s.readM c f.m).getLsbD j then elem (s.readV c f.a.toNat) (8 * tyWidth f.ty) j else elem (s.readV c f.b.toNat) (8 * tyWidth f.ty) j)) ∧
  (∀ f, VectorIssuesAs (.vperm f) fun c s => s.moved c (.vperm f) f.d.toNat (8 * tyWidth f.ty) (s.active c f.m f.me)
    ((List.range (tyCount f.ty)).map fun j => elem (s.readV c f.a.toNat) (8 * tyWidth f.ty)
      ((if j < 512 then elem (s.readV c f.b.toNat) 16 j else elem (s.readV c (f.b.toNat + 1)) 16 (j - 512)) % tyCount f.ty))) ∧
  (∀ f, VectorIssuesAs (.vbcst f) fun c s => s.moved c (.vbcst f) f.d.toNat (8 * tyWidth f.ty) (s.active c f.m f.me)
    (List.replicate (tyCount f.ty) (s.readS c (f.a.extractLsb' 0 5)).toNat)) ∧
  (∀ f, VectorIssuesAs (.vcompact f) fun c s => s.flightV c (.vcompact f) [.v f.d.toNat 0 (packReg (8 * tyWidth f.ty)
    (((List.range (tyCount f.ty)).filter fun j => (s.readM c f.m).getLsbD j).map fun j => elem (s.readV c f.a.toNat) (8 * tyWidth f.ty) j))]) ∧
  (∀ f, VectorIssuesAs (.vexpand f) fun c s => s.moved c (.vexpand f) f.d.toNat (8 * tyWidth f.ty) (s.readM c f.m)
    ((List.range (tyCount f.ty)).map fun j => elem (s.readV c f.a.toNat) (8 * tyWidth f.ty) ((List.range j).countP fun l => (s.readM c f.m).getLsbD l))) ∧
  (∀ f, VectorIssuesAs (.vmovs f) fun c s => s.moved c (.vmovs f) f.d.toNat (8 * tyWidth f.ty)
    (BitVec.twoPow 1024 ((s.readS c (f.b.extractLsb' 0 5)).toNat % tyCount f.ty))
    (List.replicate (tyCount f.ty) (s.readS c (f.a.extractLsb' 0 5)).toNat)) ∧
  (∀ f, VectorIssuesAs (.vrng f) fun c s => s.moved c (.vrng f) f.d.toNat 32 (s.active c f.m f.me) ((List.range 64).flatMap fun j =>
    let w := fun k => elem (s.readV c f.a.toNat) 32 (4 * j + k)
    let r := philox 10 (w 0, w 1, w 2, w 3) (elem (s.readV c f.b.toNat) 32 (4 * j), elem (s.readV c f.b.toNat) 32 (4 * j + 1))
    [r.1, r.2.1, r.2.2.1, r.2.2.2]))

/-- Reductions and conversions of the V slots (R202 to R204). -/
def Obligations.ReductionAndConversionResults : Prop :=
  (∀ f, VectorIssuesAs (.vrsum f) fun c s => s.reduce c (.vrsum f) f (fun _ => 0) (s.treeSum c f)) ∧
  (∀ f, VectorIssuesAs (.vrmax f) fun c s => s.reduce c (.vrmax f) f (fun g => g.inf true) ((fmtOfTy f.ty).extreme (s.flushes c) true)) ∧
  (∀ f, VectorIssuesAs (.vrmin f) fun c s => s.reduce c (.vrmin f) f (fun g => g.inf false) ((fmtOfTy f.ty).extreme (s.flushes c) false)) ∧
  (∀ f, VectorIssuesAs (.vscan f) fun c s => s.scan c (.vscan f) f (s.treeSum c f)) ∧
  (∀ f, VectorIssuesAs (.virsum f) fun c s => s.flightV c (.virsum f) [.v f.d.toNat 0 (packReg (8 * tyWidth f.ty)
    [(List.range (tyCount f.ty)).foldl (fun t j => if (s.active c f.m f.me).getLsbD j
      then t + elem (s.readV c f.a.toNat) (8 * tyWidth f.ty) j else t) 0])]) ∧
  (∀ f, VectorIssuesAs (.vcvt f) fun c s => s.convertReg c (.vcvt f) f.d.toNat f.a.toNat f.src.toNat f.dst.toNat (Rm.ofBits f.rm) f.sat (s.active c f.m f.me)) ∧
  (∀ f, VectorIssuesAs (.vqnt f) fun c s => 
    let k := codeBits f.src.toNat
    let bs := (List.range (8192 / k / 32)).map fun j => quantBlock ((fmtOf f.src.toNat).getD fp32) (s.flushes c)
      (Rm.ofBits f.rm) ((List.range 32).map fun l => elem (s.readV c f.a.toNat) k (32 * j + l))
    s.flightArith c 12 [.v f.d.toNat 0 (BitVec.ofNat 8192 (leNat (bs.flatMap (·.1))))] (bs.flatMap (·.2)) false)

/-- Staging accesses of the V slots, and the vector atomics (R205 to R207). -/
def Obligations.VectorStagingResults : Prop :=
  (∀ f, VectorIssuesAs (.vld f) fun c s => 
    let n := f.n.toNat + 1
    let d := (s.tile c.t).divisor 2
    let ws := (List.range n).map fun k => Write.v (f.d.toNat + k)
      (keepOf (8 * tyWidth f.ty) (tyCount f.ty) (s.active c f.m f.me)) 0
    s.fresh.2.onTile c.t fun x =>
      let x := x.launchFlight { id := s.nextId, slot := c.slot, issue := c.now, ready := c.now + 2 * d, bound := c.now + 9 * d
                                dests := ws.map Write.loc, writes := ws }
      { x with seq := { x.seq with stReads := x.seq.stReads ++ (List.range n).map fun k =>
        { cycle := c.now + 2 * d, tile := c.t, slot := c.slot, addr := (s.gen c f.g).2.toNat + 1024 * k, len := 1024
          use := .vector s.nextId (f.d.toNat + k) 0, issue := c.now } } }) ∧
  (∀ f, VectorIssuesAs (.vst f) fun c s => 
    let w := tyWidth f.ty
    s.stageLater c c.slot (c.now + 7 * (s.tile c.t).divisor 2) (joinRuns ((List.range (f.n.toNat + 1)).flatMap fun k =>
      ((List.range (tyCount f.ty)).filter fun j => (s.active c f.m f.me).getLsbD j).map fun j =>
        ((s.gen c f.g).2.toNat + 1024 * k + w * j, leBytes w (elem (s.readV c (f.d.toNat + k)) (8 * w) j))))) ∧
  (∀ f, VectorIssuesAs (.vgath f) fun c s => 
    let d := (s.tile c.t).divisor 2
    s.fresh.2.onTile c.t fun x =>
      let x := x.launchFlight { id := s.nextId, slot := c.slot, issue := c.now, ready := c.now + 2 * d, bound := c.now + 12 * d
                                dests := [.v f.d.toNat]
                                writes := [.v f.d.toNat (keepOf (8 * tyWidth f.ty) (tyCount f.ty) (s.active c f.m f.me)) 0] }
      { x with seq := { x.seq with stReads := x.seq.stReads ++ (s.lanes c f).map fun e =>
        { cycle := c.now + 2 * d, tile := c.t, slot := c.slot, addr := e.2, len := tyWidth f.ty
          use := .vector s.nextId f.d.toNat (e.1 * tyWidth f.ty), issue := c.now } } }) ∧
  (∀ f, VectorIssuesAs (.vscat f) fun c s => s.stageLater c c.slot (c.now + 9 * (s.tile c.t).divisor 2)
    ((s.lanes c f).map fun e => (e.2, leBytes (tyWidth f.ty) (elem (s.readV c f.d.toNat) (8 * tyWidth f.ty) e.1)))) ∧
  (∀ f, VectorIssuesAs (.vstadd f) fun c s => s.vectorAtomic c f .add false) ∧
  (∀ f, VectorIssuesAs (.vstmin f) fun c s => s.vectorAtomic c f .min false) ∧
  (∀ f, VectorIssuesAs (.vstmax f) fun c s => s.vectorAtomic c f .max false) ∧
  (∀ f, VectorIssuesAs (.vstfadd f) fun c s => s.vectorAtomic c f .fadd false) ∧
  (∀ f, VectorIssuesAs (.vstfmin f) fun c s => s.vectorAtomic c f .fmin false) ∧
  (∀ f, VectorIssuesAs (.vstfmax f) fun c s => s.vectorAtomic c f .fmax false) ∧
  (∀ f, VectorIssuesAs (.vldadd f) fun c s => s.vectorAtomic c f .add true) ∧
  (∀ f, VectorIssuesAs (.vldmin f) fun c s => s.vectorAtomic c f .min true) ∧
  (∀ f, VectorIssuesAs (.vldmax f) fun c s => s.vectorAtomic c f .max true) ∧
  (∀ (c : Ctx) (s : State) (f : VM) (op : AOp) (ret : Bool),
    ((s.vectorAtomic c f op ret).tile c.t).eng.vatomics = (s.tile c.t).eng.vatomics ++
      [{ id := s.nextId, slot := c.slot, op := op, size := tyWidth f.ty
         lanes := (s.lanes c f).map fun e => (e.1, e.2, BitVec.ofNat 64 (elem (s.readV c f.d.toNat) (8 * tyWidth f.ty) e.1))
         total := (s.lanes c f).length, flight := if ret then some s.nextId else none, d := f.d.toNat, issue := c.now }]) ∧
  (∀ t (r : StRead) id reg off (s : State), r.use = .vector id reg off → let n := leNat (readBytes (s.tile r.tile).st r.addr r.len)
    ((s.deliver t r).tile t).seq.flights = ((s.tile t).seq.flights.map fun g => if g.id = id then
      { g with writes := g.writes.map fun w => match w with
        | .v k keep v => if k = reg then .v k keep (v ||| BitVec.ofNat 8192 (n * 2 ^ (8 * off))) else w
        | _ => w } else g) ∧
    SameStores s (s.deliver t r)) ∧
  (∀ (v : VReg) n off i, n < 2 ^ 8192 →
    (v ||| BitVec.ofNat 8192 (n * 2 ^ (8 * off))).getLsbD i = (v.getLsbD i || (decide (i < 8192 ∧ 8 * off ≤ i) && n.testBit (i - 8 * off))))

/-- Decimal arithmetic (R213 to R215). -/
def Obligations.DecimalResults : Prop :=
  (∀ f, VectorIssuesAs (.dadd f) fun c s => s.decimal c (.dadd f) f fun rm a b => Dec.add rm a b) ∧
  (∀ f, VectorIssuesAs (.dsub f) fun c s => s.decimal c (.dsub f) f fun rm a b => Dec.add rm a b.neg) ∧
  (∀ f, VectorIssuesAs (.dmul f) fun c s => s.decimal c (.dmul f) f fun rm a b => Dec.mul rm a b) ∧
  (∀ f, VectorIssuesAs (.ddiv f) fun c s => s.decimal c (.ddiv f) f fun rm a b => Dec.div rm a b) ∧
  (∀ f, VectorIssuesAs (.dqua f) fun c s => s.decimal c (.dqua f) f fun rm a b => Dec.quantize rm a b) ∧
  (∀ f, VectorIssuesAs (.dcmpeq f) fun c s => s.compare c (.dcmpeq f) f true true fun _ a b => decTest .eq a b) ∧
  (∀ f, VectorIssuesAs (.dcmplt f) fun c s => s.compare c (.dcmplt f) f true true fun _ a b => decTest .lt a b) ∧
  (∀ f, VectorIssuesAs (.dcmple f) fun c s => s.compare c (.dcmple f) f true true fun _ a b => decTest .le a b) ∧
  (∀ f, VectorIssuesAs (.dcvtb f) fun c s => 
    let g := (fmtOf f.dst.toNat).getD fp64
    let act := s.active c f.m f.me
    let rs := (List.range 128).map fun j => if act.getLsbD j then ofDecimal g (Rm.ofBits f.rm) (elem (s.readV c f.a.toNat) 64 j) else (0, 0)
    s.flightArith c 48 [.v f.d.toNat (keepOf g.width 128 act) (packReg g.width (rs.map (·.1)))] (rs.map (·.2)) false) ∧
  (∀ f, VectorIssuesAs (.dcvtd f) fun c s => 
    let g := (fmtOf f.src.toNat).getD fp64
    let act := s.active c f.m f.me
    let rs := (List.range 128).map fun j =>
      if act.getLsbD j then toDecimal g (Rm.ofDrm (s.tile c.t).sys.drm) (elem (s.readV c f.a.toNat) g.width j) else (0, 0)
    s.flightArith c 48 [.v f.d.toNat (keepOf 64 128 act) (packReg 64 (rs.map (·.1)))] (rs.map (·.2)) true)

/-- Deferral queues (R209 to R212); the words of a region and what a pop may give are free values (log entry 3). -/
def Obligations.DeferralResults : Prop :=
  (∀ f, VectorIssuesAs (.defer f) fun c s => s.defer c f) ∧
  (∀ f, VectorIssuesAs (.drain f) fun c s => s.drain c (.drain f) f 256 []) ∧
  (∀ f, VectorIssuesAs (.drainp f) fun c s =>
    let k := min (vget { } (s.tile c.t).eng.dq f.q.toNat).entries.length 256
    s.drain c (.drainp f) f k [.m f.m.toNat (BitVec.ofNat 1024 (2 ^ k - 1))]) ∧
  (∀ (c : Ctx) (s : State) (f : VD) (k : Task), (s.tile c.t).task = some k →
    (vget { } ((s.defer c f).tile c.t).eng.dq f.q.toNat).entries = (vget { } (s.tile c.t).eng.dq f.q.toNat).entries ++
      ((List.range 256).filter fun j => (s.readM c f.m).getLsbD j).map fun j =>
        (c.now, (vdRegs f).map fun r => BitVec.ofNat 32 (elem (s.readV c r) 32 j))) ∧
  (∀ (c : Ctx) (s : State) (i : Instr) (f : VD) (k : Nat) (ws : List Write),
    (vget { } ((s.drain c i f k ws).tile c.t).eng.dq f.q.toNat).entries =
      (vget { } (s.tile c.t).eng.dq f.q.toNat).entries.drop k)

/-- The NOPs of the slots but S (R45). -/
def Obligations.NopResults : Prop :=
  (IssuesAs .vNop fun c s => s.onSeq c.t fun q => { q with latches := vset q.latches c.slot { } }) ∧
  (IssuesAs .xNop fun c s => s.onSeq c.t fun q => { q with latches := vset q.latches 7 { } }) ∧
  (IssuesAs .mNop fun c s => s.onSeq c.t fun q => { q with latches := vset q.latches 3 { } }) ∧
  (IssuesAs .cNop fun c s => s.onSeq c.t fun q => { q with latches := vset q.latches c.slot { } }) ∧
  (IssuesAs .dNop fun c s => s.onSeq c.t fun q => { q with latches := vset q.latches 6 { } })

/-- Matrix instructions (R231 to R249). -/
def Obligations.MatrixResults : Prop :=
  (∀ f, IssuesAs (.mgath f) fun c s =>
    let d := (s.tile c.t).divisor 1
    let x := s.readV c f.x.toNat
    let sc := packElems 32 ((List.range 32).map fun i => if elem x 16 (32 + i) = 0xFFFF then 0x7F7F7F7F else 0)
    (s.fresh.2.onTile c.t fun y =>
      let y := y.launchFlight
        { id := s.nextId, slot := 3, issue := c.now, ready := c.now + 2 * d, bound := c.now + 3 * d
          dests := [.opLatch], writes := [.opLatch 0 (BitVec.ofNat 1024 sc)] }
      let rs := y.seq.stReads ++ gatherReads c (c.now + 2 * d) s.nextId (s.gen c f.g).2.toNat x
      { y with seq := { y.seq with stReads := rs } }).takeMatrix c 0 1) ∧
  (∀ f, IssuesAs (.mldw f) fun c s =>
    let d := (s.tile c.t).divisor 1
    let a := (s.gen c f.g).2.toNat
    let n := weightBytes f.fmt.toNat
    let part := fun (k off len : Nat) => if len = 0 then [] else
      [({ cycle := c.now + k * d, tile := c.t, slot := 3, addr := a + off, len := len
          use := .weight s.nextId off, issue := c.now } : StRead)]
    (s.fresh.2.fresh.2.onTile c.t fun y =>
      let y := (y.launchFlight
        { id := s.nextId, slot := 3, issue := c.now, ready := c.now + (if 4096 < n then 3 else 2) * d
          bound := c.now + 4 * d, dests := [.wLatch], writes := [.wLatch 0] }).launchFlight
        { id := s.nextId + 1, slot := 3, issue := c.now, ready := c.now + d, bound := c.now + d
          dests := [.wTag], writes := [.wTag f.fmt] }
      let rs := y.seq.stReads ++ part 2 0 (min n 4096) ++ part 3 4096 (n - 4096)
      { y with seq := { y.seq with stReads := rs } }).takeMatrix c 1 2) ∧
  (∀ f, IssuesAs (.mma f) fun c s =>
    let x := s.tile c.t
    let hid := x.pending c.now .opLatch
    let r := denseProduct f.fmt.toNat (if hid then BitVec.ofNat 16384 (s.undef 2100000) else x.regs.opLatch)
      (if hid then BitVec.ofNat 1024 (s.undef 2200000) else x.regs.opScales) (s.weights c) (s.accRead c f.acc)
    (s.flightM c 40 [.acc f.acc.toNat (BitVec.ofNat 65536 (packElems 32 r.1))] r.2).takeMatrix c 2 32) ∧
  (∀ f, IssuesAs (.mmad f) fun c s =>
    s.fresh.2.onTile c.t fun x => { x with eng := { x.eng with mmad := { x.eng.mmad with reqs := x.eng.mmad.reqs ++
      [{ id := s.nextId, acc := f.acc.toNat, row := c.index, q := f.q.toNat, base := (s.gen c f.g).2.toNat
         lim := min (s.gen c f.g).1.limit.toNat 0x100000, issue := c.now }] } } }) ∧
  (∀ f, IssuesAs (.mrd f) fun c s =>
    let k := mrBits f.fmt.toNat
    let rs := (accElems (s.accRead c f.acc)).map (mrdElem f.fmt.toNat (Rm.ofBits f.rm))
    (s.flightM c 20 ((List.range (mrCount f.fmt)).map fun r =>
      Write.v (f.v.toNat + r) 0 (packReg k (((rs.drop (8192 / k * r)).take (8192 / k)).map (·.1))))
      (anyFlags (rs.map (·.2)))).takeMatrix c 3 4) ∧
  (∀ f, IssuesAs (.mwr f) fun c s =>
    let k := mrBits f.fmt.toNat
    let rs := ((List.range (mrCount f.fmt)).flatMap fun r => elems (s.readV c (f.v.toNat + r)) k (8192 / k)).map
      (mwrElem f.fmt.toNat)
    (s.flightM c 8 [.acc f.acc.toNat (BitVec.ofNat 65536 (packElems 32 (rs.map (·.1))))]
      (anyFlags (rs.map (·.2)))).takeMatrix c 3 4) ∧
  (∀ f, IssuesAs (.mzero f) fun c s => (s.flightM c 2 [.acc f.acc.toNat 0] 0).takeMatrix c 4 1) ∧
  (∀ f, IssuesAs (.mstat f) fun c s =>
    if f.pd = 0 then s else s.flightM c 1 [.p f.pd.toNat ((s.tile c.t).mstat f.cond.toNat)] 0) ∧
  (∀ t (r : StRead) id k (s : State), let n := leNat (readBytes (s.tile r.tile).st r.addr r.len)
    let filled := fun (f : Write → Write) => (s.tile t).seq.flights.map fun g => if g.id = id then { g with writes := g.writes.map f } else g
    (r.use = .opRow id k → ((s.deliver t r).tile t).seq.flights = filled fun w => match w with
      | .opLatch v sc => .opLatch (v ||| BitVec.ofNat 16384 (n * 2 ^ (512 * k))) sc
      | _ => w) ∧
    (r.use = .opScale id k → ((s.deliver t r).tile t).seq.flights = filled fun w => match w with
      | .opLatch v sc => .opLatch v (sc ||| BitVec.ofNat 1024 (n * 2 ^ (32 * k)))
      | _ => w) ∧
    (r.use = .weight id k → ((s.deliver t r).tile t).seq.flights = filled fun w => match w with
      | .wLatch v => .wLatch (v ||| BitVec.ofNat 34816 (n * 2 ^ (8 * k)))
      | _ => w) ∧
    (r.use = .opRow id k ∨ r.use = .opScale id k ∨ r.use = .weight id k → SameStores s (s.deliver t r)))

/-- Copies (R265 to R274). A CFEED from staging reads each unit as it enters its FIFO, and a unit of the other global copies when it performs:
what those steps do is GlobalUnitSteps'. That CDEC, and CGATH from space 2, hold their engine for one cycle of the copy clock, for which
R265 and R267 have no row, is read from the other global copies (log entry 27). -/
def Obligations.CopyResults : Prop :=
  (∀ f, IssuesAs (.cloc f) fun c s => s.copyLocal c f) ∧
  (∀ f, IssuesAs (.cisl f) fun c s => s.copyIsland c f) ∧
  (∀ f, IssuesAs (.cfill f) fun c s => s.copyFill c f) ∧
  (∀ f, IssuesAs (.cxpos f) fun c s => s.copyTranspose c f) ∧
  (∀ f, IssuesAs (.cgrd f) fun c s => s.copyGlobal c f .grd 64 1) ∧
  (∀ f, IssuesAs (.cgwr f) fun c s => s.copyGlobal c f .gwr 64 (beats (copyUnits f))) ∧
  (∀ f, IssuesAs (.cdec f) fun c s => s.copyGlobal c f .dec (32 * copyWidth f.fmt.toNat) 1) ∧
  (∀ f, IssuesAs (.cfeed f) fun c s => s.copyGlobal c f .feed 64 1) ∧
  (∀ f, IssuesAs (.cgath f) fun c s =>
    if (s.gen c f.ga).1.space = 2 then s.copyGlobal c f .gath 64 1 else s.copyGather c f) ∧
  (∀ (c : Ctx) (s : State) (f : CW),
    ((s.copyLocal c f).tile c.t).seq.stReads = (s.tile c.t).seq.stReads ++ ((List.range (copyUnits f)).map fun u =>
      { cycle := c.now + (2 + u / 4) * (s.tile c.t).divisor 3, tile := c.t, slot := c.slot
        addr := (s.gen c f.ga).2.toNat + 64 * u, len := 64, issue := c.now
        use := .copyTo (c.now + (5 + u / 4) * (s.tile c.t).divisor 3) c.t ((s.gen c f.gd).2.toNat + 64 * u) (s.arrivalOf c f 64) }) ∧
    ((s.copyLocal c f).tile c.t).seq.stWrites = (s.tile c.t).seq.stWrites) ∧
  (∀ (c : Ctx) (s : State) (f : CW), let p := islandTarget c.t (s.gen c f.gd).2.toNat; let h := hopCount c.t p.1
    ((s.copyIsland c f).tile c.t).seq.stReads = (s.tile c.t).seq.stReads ++ ((List.range (copyUnits f)).map fun u =>
      { cycle := c.now + (2 + u) * (s.tile c.t).divisor 3, tile := c.t, slot := c.slot
        addr := (s.gen c f.ga).2.toNat + 64 * u, len := 64, issue := c.now, isle := true
        use := .copyTo (c.now + (9 + 2 * h + u) * (s.tile c.t).divisor 3) p.1 (p.2 + 64 * u) (s.arrivalOf c f 64) }) ∧
    ((s.copyIsland c f).tile c.t).seq.stWrites = (s.tile c.t).seq.stWrites) ∧
  (∀ (c : Ctx) (s : State) (f : CW), let data := fun u => decide ((s.gen c f.gw).2.toNat ≤ (s.gen c f.ga).2.toNat + 64 * u ∧
      (s.gen c f.ga).2.toNat + 64 * u < (s.gen c f.gw).2.toNat + ((s.gen c f.gw).1.limit.toNat - (s.gen c f.gw).1.base.toNat))
    ((s.copyFill c f).tile c.t).seq.stReads = (s.tile c.t).seq.stReads ++ (((List.range (copyUnits f)).filter data).map fun u =>
      { cycle := c.now + (2 + u / 4) * (s.tile c.t).divisor 3, tile := c.t, slot := c.slot
        addr := (s.gen c f.ga).2.toNat + 64 * u, len := 64, issue := c.now
        use := .copyTo (c.now + (5 + u / 4) * (s.tile c.t).divisor 3) c.t ((s.gen c f.gd).2.toNat + 64 * u) none }) ∧
    ((s.copyFill c f).tile c.t).seq.stWrites = (s.tile c.t).seq.stWrites ++ (((List.range (copyUnits f)).filter fun u => !data u).map fun u =>
      { cycle := c.now + (5 + u / 4) * (s.tile c.t).divisor 3, tile := c.t, slot := c.slot, addr := (s.gen c f.gd).2.toNat + 64 * u
        bytes := List.replicate 64 f.fill, issue := c.now })) ∧
  (∀ (c : Ctx) (s : State) (f : CW),
    ((s.copyTranspose c f).tile c.t).seq.stReads = (s.tile c.t).seq.stReads ++ ((List.range (copyUnits f)).flatMap fun t => (List.range 16).map fun k =>
      { cycle := c.now + (2 + 32 * t + k) * (s.tile c.t).divisor 3, tile := c.t, slot := c.slot
        addr := (s.gen c f.ga).2.toNat + 4096 * t + 256 * k, len := 256, issue := c.now
        use := .xpose (s.nextId + t) k (copyWidth f.fmt.toNat) c.t ((s.gen c f.gd).2.toNat + 4096 * t)
          (c.now + (18 + 32 * t) * (s.tile c.t).divisor 3) ((s.tile c.t).divisor 3) (s.arrivalOf c f 4096) }) ∧
    ((s.copyTranspose c f).tile c.t).seq.stWrites = (s.tile c.t).seq.stWrites) ∧
  (∀ (c : Ctx) (s : State) (f : CW), let hs := (List.range (copyUnits f)).map fun u => (u, readNat (s.tile c.t).st ((s.gen c f.gw).2.toNat + 2 * u) 2)
    ((s.copyGather c f).tile c.t).seq.stReads = (s.tile c.t).seq.stReads ++ ((hs.filter fun e => e.2 != 0xFFFF).map fun e =>
      { cycle := c.now + (2 + e.1 / 4) * (s.tile c.t).divisor 3, tile := c.t, slot := c.slot
        addr := (s.gen c f.ga).2.toNat + 64 * e.2, len := 64, issue := c.now
        use := .copyTo (c.now + (5 + e.1 / 4) * (s.tile c.t).divisor 3) c.t ((s.gen c f.gd).2.toNat + 64 * e.1) none }) ∧
    ((s.copyGather c f).tile c.t).seq.stWrites = (s.tile c.t).seq.stWrites ++ ((hs.filter fun e => e.2 == 0xFFFF).map fun e =>
      { cycle := c.now + (5 + e.1 / 4) * (s.tile c.t).divisor 3, tile := c.t, slot := c.slot, addr := (s.gen c f.gd).2.toNat + 64 * e.1
        bytes := List.replicate 64 0, issue := c.now })) ∧
  (∀ (c : Ctx) (s : State) (f : CW) (k : GKind) (b n : Nat), let u := s.copyGlobal c f k b n
    (∃ g, (u.tile c.t).eng.copies = (s.tile c.t).eng.copies ++ [g] ∧ g.id = s.nextId ∧
      g.slot = c.slot ∧ g.kind = k ∧ g.src = (s.gen c f.ga).2.toNat ∧ g.srcSpace = (s.gen c f.ga).1.space.toNat ∧
      g.dst = (s.gen c f.gd).2.toNat ∧ g.units = copyUnits f ∧ g.fifo = f.df.toNat ∧ g.width = copyWidth f.fmt.toNat ∧
      g.step = (s.tile c.t).divisor 3 ∧ g.issue = c.now ∧ g.done = [] ∧ g.leaves = [] ∧
      (k = .gath → g.idx = (List.range (copyUnits f)).map fun u => readNat (s.tile c.t).st ((s.gen c f.gw).2.toNat + 2 * u) 2)) ∧
    (k ≠ .gwr → (u.tile c.t).seq.stReads = (s.tile c.t).seq.stReads) ∧
    (k = .gwr → (u.tile c.t).seq.stReads = (s.tile c.t).seq.stReads ++ (List.range (copyUnits f)).map fun u =>
      { cycle := c.now + (2 + u / 4) * (s.tile c.t).divisor 3, tile := c.t, slot := c.slot
        addr := (s.gen c f.ga).2.toNat + 64 * u, len := 64, issue := c.now, use := .unit s.nextId u })) ∧
  (∀ (c : Ctx) (s : State) (f : CW), (c.slot = 4 ∨ c.slot = 5) →
    let free := fun (u : State) => vget 0 (u.tile c.t).seq.cFree (c.slot - 4)
    let after := fun n => c.now + n * (s.tile c.t).divisor 3
    free (s.copyLocal c f) = after ((copyUnits f + 3) / 4) ∧ free (s.copyFill c f) = after ((copyUnits f + 3) / 4) ∧
      free (s.copyGather c f) = after ((copyUnits f + 3) / 4) ∧ free (s.copyIsland c f) = after (copyUnits f) ∧
      free (s.copyTranspose c f) = after (32 * copyUnits f) ∧ ∀ k b n, free (s.copyGlobal c f k b n) = after n) ∧
  (∀ t (r : StRead) (s : State), let bs := readBytes (s.tile r.tile).st r.addr r.len
    (∀ cycle tile addr arr, r.use = .copyTo cycle tile addr arr → ((s.deliver t r).tile t).seq.stWrites =
      (s.tile t).seq.stWrites ++
        [{ cycle := cycle, tile := tile, slot := r.slot, addr := addr, bytes := bs, issue := r.issue, arrival := arr, isle := r.isle }]) ∧
    (∀ copy unit, r.use = .unit copy unit → ((s.deliver t r).tile t).eng.copies = (s.tile t).eng.copies.map fun g =>
      if g.id = copy then { g with data := insertAt unit bs g.data } else g) ∧
    (∀ id part width tile addr cycle step arr, part < 15 → r.use = .xpose id part width tile addr cycle step arr →
      look [] id ((s.deliver t r).tile t).eng.xbufs = look [] id (s.tile t).eng.xbufs ++ bs) ∧
    (∀ id width tile addr cycle step arr, r.use = .xpose id 15 width tile addr cycle step arr →
      ((s.deliver t r).tile t).seq.stWrites = (s.tile t).seq.stWrites ++ (List.range 16).map fun k =>
        { cycle := cycle + k * step, tile := tile, slot := r.slot, addr := addr + 256 * k, issue := r.issue
          bytes := ((transposed width (look [] id (s.tile t).eng.xbufs ++ bs)).drop (256 * k)).take 256
          arrival := if k = 15 then arr else none })) ∧
  (∀ w ∈ [1, 2, 4, 8], ∀ (bs : List Byte), bs.length = 4096 → ∀ i j b, i < 64 → j < 64 / w → b < w →
    (transposed w bs)[64 * w * j + w * i + b]? = bs[64 * i + w * j + b]?)

/-- The D slot's commands (R167 to R170). That an RD captures its column at its issue is the model's reading (log entry 56). -/
def Obligations.VaultResults : Prop :=
  (∀ f, IssuesAs (.act f) fun c s => s.onVault c.t fun v =>
    (v.onBank f.bank.toNat fun k => { k with opened := true, row := f.row, act := c.now }).pushActivation c.now f.bank.toNat) ∧
  (∀ f, IssuesAs (.rd f) fun c s => s.readColumn c f) ∧
  (∀ f, IssuesAs (.wr f) fun c s => s.writeColumn c f) ∧
  (∀ (c : Ctx) (s : State) (f : DC),
    let b := f.bank.toNat
    let row := (vget { } (s.tile c.t).vault.banks b).row.toNat
    let at' := columnAddr c.t b row (columnOf f c.index)
    ((s.readColumn c f).tile c.t).vault.reads = (s.tile c.t).vault.reads ++
      [{ id := s.nextId, cycle := c.now + 28, bank := b, row := row, col := columnOf f c.index
         addr := (s.gen c f.g).2.toNat, bytes := s.columnBytes at' }]) ∧
  (∀ (c : Ctx) (s : State) (f : DC),
    let b := f.bank.toNat
    let row := (vget { } (s.tile c.t).vault.banks b).row.toNat
    ((s.writeColumn c f).tile c.t).seq.stReads = (s.tile c.t).seq.stReads ++
      [{ cycle := c.now + 2, tile := c.t, slot := 6, addr := (s.gen c f.g).2.toNat, len := 64
         use := .column b row (columnOf f c.index), issue := c.now }]) ∧
  (∀ b, IssuesAs (.pre b) fun c s => s.onVault c.t fun v =>
    if (vget { } v.banks b.toNat).opened then v.onBank b.toNat fun k => { k with opened := false, pre := c.now } else v) ∧
  (IssuesAs .prea fun c s => s.onVault c.t fun v =>
    ((List.range 31).filter (s.tile c.t).owns).foldl (fun v b => v.close c.now b) v) ∧
  (∀ b, IssuesAs (.refpb b) fun c s => s.onVault c.t fun v => v.refresh c.now b.toNat) ∧
  (∀ (v : Vault) (now b : Nat), b < 32 →
    let k := vget { } (v.refresh now b).banks b
    k.rptr = (vget { } v.banks b).rptr + 1 ∧ k.owed = (vget { } v.banks b).owed - 1 ∧ k.ref = now ∧
      vget (0, 0) (v.refresh now b).chan.acts 0 = ((now : Int), b)) ∧
  (∀ t (r : StRead) b row col (s : State), r.use = .column b row col → let u := s.deliver t r
    u.mem = writeBytes s.mem (columnAddr t b row col) (readBytes (s.tile r.tile).st r.addr r.len) ∧
    u.mem2 = s.mem2 ∧ u.hostMem = s.hostMem ∧ u.tiles = s.tiles)

/-- The X slot (R216 to R221). -/
def Obligations.TransformResults : Prop :=
  (∀ f, VectorIssuesAs (.xunp4 f) fun c s =>
    let rs := (List.range 512).map fun e =>
      int4gElem (leBytes 1024 (s.readV c f.a.toNat).toNat) (32 * 2 ^ (f.low.toNat / 64)) (s.flushes c) e
    s.flightArith c 12 [.v f.d.toNat 0 (packReg 32 ((rs.take 256).map (·.1))),
      .v (f.d.toNat + 1) 0 (packReg 32 ((rs.drop 256).map (·.1)))] (rs.map (·.2)) false) ∧
  (∀ f, VectorIssuesAs (.xpose f) fun c s =>
    let k := 8 * tyWidth (f.low.extractLsb' 5 3)
    let n := tyCount (f.low.extractLsb' 5 3)
    s.flightV c (.xpose f) [.v f.d.toNat 0 (packReg k ((List.range n).map fun e =>
      elem (s.readV c f.a.toNat) k (e % 16 * (n / 16) + e / 16)))]) ∧
  (∀ f, VectorIssuesAs (.xcvt f) fun c s =>
    let src := f.low.toNat / 16
    let dst := f.low.toNat % 16
    let rs := (List.range (min (8192 / codeBits src) (8192 / codeBits dst))).map fun j =>
      convert src dst (s.flushes c) .rne false (elem (s.readV c f.a.toNat) (codeBits src) j)
    let w := [Write.v f.d.toNat 0 (packReg (codeBits dst) (rs.map (·.1)))]
    if (fmtOf src).isSome || (fmtOf dst).isSome then s.flightArith c 8 w (rs.map (·.2)) false
    else s.flightV c (.xcvt f) w) ∧
  (∀ f, VectorIssuesAs (.xmx f) fun c s =>
    let bs := (List.range 8).map fun b => mxEncode fp32 (if f.low.getLsbD 7 then e2m1 else e4m3) (if f.low.getLsbD 7 then 2 else 8)
      (s.flushes c) ((List.range 32).map fun j => elem (s.readV c f.a.toNat) 32 (32 * b + j))
    let rs := bs.flatMap (·.2)
    let k := if f.low.getLsbD 7 then 4 else 8
    s.flightArith c 12 [.v f.d.toNat 0 (BitVec.ofNat 8192
      (packElems k (rs.map (·.1)) + packElems 8 (bs.map (·.1)) * 2 ^ (256 * k)))] (rs.map (·.2)) false) ∧
  (∀ f, VectorIssuesAs (.xdrf f) fun c s =>
    s.fresh.2.onTile c.t fun x => { x with eng := { x.eng with drf := { x.eng.drf with reqs := x.eng.drf.reqs ++
      [{ id := s.nextId, f := f.f.toNat, q := f.q.toNat, ratio := f.ratio.toNat + 1, issue := c.now }] } } })

/-- A bundle's issue (R42, R43, R45, R58), under the divisors and target entries that the bundles before it have set (R141): all its operations go out together; a suppressed bundle's do not. -/
def Obligations.BundleIssueSteps : Prop :=
  (∀ t s, t < Config.tiles → s.mayIssue t = true → (s.tile t).seq.checks = [] → (s.tile t).seq.inHand = false →
    let b := s.onTile t fun x => x.newDivisors.newEntries
    (b.tile t).seq.holds (s.tile t).seq.pc = true →
    let s' := b.beginBundle t
    let q := (s'.tile t).seq
    let h := s'.headAt t q.pc
    let ls := if s'.isEntry t q.pc then q.latches.map fun _ => { } else q.latches
    let ws := (h.words (s'.granulesAt t q.pc h)).1
    let ps := s'.planAll t ls ws
    s'.headFault t q.pc = none → headAdmits h q.loops = true → s'.planWaits t ls ws = false → s'.planSources t q.pc ps = false →
    s'.planDecode t q.pc ps = none → s'.kindFault t h ls = none → s'.planStalls t q.pc ps = false → s'.planFault t q.pc ps = none →
    Completes (.bundleIssue t .clean) s fun u =>
      u.out = ps.filterMap (fun p => p.op.map fun i => (p.slot.num, p.latch.index.toNat, i)) ∧
      u.focus = { tile := t, slot := 0, index := 0, addr := (s.tile t).seq.pc, checked := true } ∧
      (u.tile t).seq.latches = Vector.ofFn (fun k : Fin 8 => match ps[k.val]? with | some p => p.latch | none => { }) ∧
      (u.tile t).seq.issuedAt = s.icc t ∧ (u.tile t).seq.nextAt = s.icc t + (b.tile t).divisor 0 ∧
      (u.tile t).seq.last = (s.tile t).seq.pc ∧ (u.tile t).regs = (s.tile t).regs) ∧
  (∀ t s, t < Config.tiles → s.mayIssue t = true → (s.tile t).seq.checks = [] → (s.tile t).seq.inHand = false →
    let b := s.onTile t fun x => x.newDivisors.newEntries
    (b.tile t).seq.holds (s.tile t).seq.pc = true →
    let s' := b.beginBundle t
    let q := (s'.tile t).seq
    s'.headFault t q.pc = none → headAdmits (s'.headAt t q.pc) q.loops = false →
    Completes (.bundleIssue t .clean) s fun u =>
      u.out = s.out ∧ (u.tile t).seq.latches = (s.tile t).seq.latches ∧ (u.tile t).seq.issuedAt = s.icc t ∧
      (u.tile t).seq.after = if 0 < (s'.headAt t q.pc).reps.toNat then [] else [.loopEnd t 0])

/-- The transfer of a bundle (R44, R120, R122). Three points are the model's readings: that a taken call
writes s31 and leaves the loop nest even where its entry then traps (R44 and R120, log entry 85); that R132's trap 0x05 for an open region
carries slot 0xE, which R151 does not list for it (log entry 32); and that a transfer keeps its target while its entry fills (log entry
77). From when a late call's link counts is read from R123 and R44 (log entry 114). -/
def Obligations.TransferSteps : Prop :=
  (∀ (call : Bool) t xt xp xn s, t < Config.tiles →
    let i : Instr := if call then .transferCall t xt xp xn else .transferJump t xt xp xn
    let q := (s.tile t).seq
    let e := vget { } q.targets xt.toNat
    let linked := if call then s.linkCall t (s.returnAddr t q.last) else s
    let left := linked.onSeq t fun q =>
      { q with loops := q.loops.map fun _ => { }, capture := q.capture && q.loops.toList.all fun l => !l.active }
    let stands := [Instr.transferJump t xt 0 false]
    s.comesTo t i false = true →
    (s.transferWaits t xp = true → exec i s = .next (s.holdPred t xp).nextFree) ∧
    (s.transferWaits t xp = false → s.predRead t xp = xn →
      exec i s = .next (s.onSeq t fun q => { q with after := q.after.drop 1 }).nextFree) ∧
    (s.transferWaits t xp = false → s.predRead t xp = !xn → (s.tile t).eng.region = none →
      (e.fill = .filled → s.isMarked t e.addr.toNat = true →
        (q.after ≠ stands → exec i s =
          .next (left.onSeq t fun q => { q.jump e.addr.toNat true (s.icc t) with after := [] }).nextFree) ∧
        (q.after = stands → exec i s = .next (left.onSeq t fun q => { q with
          next := e.addr.toNat, after := []
          window := q.window.map fun w => if w.addr = lineOf e.addr.toNat ∨ w.addr = lineOf e.addr.toNat + 128 then
            { w with here := true } else w }).nextFree)) ∧
      (e.fill = .filled → s.isMarked t e.addr.toNat = false → exec i s = .next (left.flowTrap t 0x03).nextFree) ∧
      (e.fill = .empty → exec i s = .next (left.flowTrap t 0x07).nextFree) ∧
      (∀ n, e.fill = .filling n →
        (q.after ≠ stands → exec i s = .next (left.onSeq t fun q => { q.jump e.addr.toNat false (s.icc t) with
          next := q.next, after := stands }).nextFree) ∧
        (q.after = stands → exec i s = .next left.nextFree))) ∧
    (s.transferWaits t xp = false → s.predRead t xp = !xn → (s.tile t).eng.region ≠ none → exec i s =
      .next ((s.onTile t Tile.dropRegion).flowTrap t 0x05).nextFree)) ∧
  (∀ (q : Seq) a f now k, vget { active := true } (q.jump a f now).loops k = if k < 6 then { } else { active := true }) ∧
  (∀ t xp (s : State), ((s.tile t).seq.xpHeld = none → s.predRead t xp = s.readP (s.headCtx t) xp) ∧
    (∀ b, (s.tile t).seq.xpHeld = some b → s.predRead t xp = b ∧ ((s.holdPred t xp).tile t).seq.xpHeld = some b)) ∧
  (∀ t (xp : BitVec 3) gs f (s : State), (s.tile t).sys.gm = true → xp ≠ 0 → (s.tile t).seq.xpHeld = none →
    (s.tile t).seq.flights.filter (fun f => f.issue < (s.tile t).seq.issuedAt && f.dests.contains (.p xp.toNat)) = gs ++ [f] →
    ((s.holdPred t xp).tile t).seq.xpHeld = some (f.writes.any fun w => w == .p xp.toNat true)) ∧
  (∀ t ret (s : State), let u := s.linkCall t ret
    ((s.tile t).seq.issuedAt = s.icc t → ∃ f ∈ (u.tile t).seq.flights,
      f.writes = [.s 31 (BitVec.ofNat 64 ret)] ∧ f.issue = s.icc t ∧ f.bound = s.icc t + 1) ∧
    ((s.tile t).seq.issuedAt < s.icc t → (s.tile t).seq.flights = [] →
      vget 0 (u.tile t).regs.s 31 = BitVec.ofNat 64 ret ∧ (u.tile t).seq.flights = []) ∧
    (u.tile t).st = (s.tile t).st ∧ u.mem = s.mem)

/-- The end of a loop body (R119). -/
def Obligations.LoopEndSteps : Prop :=
  (∀ t lend s, t < Config.tiles → s.comesTo t (.loopEnd t lend) false = true →
    let q := (s.tile t).seq
    let r := loopAdvance lend [5, 4, 3, 2, 1, 0] q.loops
    (loopMisuse q.loops lend = true → exec (.loopEnd t lend) s = .next (s.flowTrap t 0x09)) ∧
    (loopMisuse q.loops lend = false → ∀ k a, r.2 = some (k, a) → Completes (.loopEnd t lend) s fun u =>
      (u.tile t).seq.pc = a ∧ (u.tile t).seq.loops = r.1 ∧ (u.tile t).seq.after = q.after.drop 1) ∧
    (loopMisuse q.loops lend = false → r.2 = none → ∀ a, s.successor t q.last = .ok a →
      Completes (.loopEnd t lend) s fun u =>
        (u.tile t).seq.pc = a ∧ (u.tile t).seq.loops = r.1 ∧ (u.tile t).seq.after = q.after.drop 1) ∧
    (loopMisuse q.loops lend = false → r.2 = none → ∀ e, s.successor t q.last = .error e → exec (.loopEnd t lend) s =
      .next ((s.onSeq t fun q => { q with loops := r.1 }).flowTrap t e))) ∧
  (∀ (loops : Vector Loop 6) (k : Fin 6),
    let l := vget { } loops k.val
    let r := loopAdvance (BitVec.twoPow 6 k.val) [5, 4, 3, 2, 1, 0] loops
    (l.l + 1 < l.lc → r.2 = some (k.val, l.body) ∧ (vget { } r.1 k.val).l = l.l + 1 ∧ (vget { } r.1 k.val).active = l.active) ∧
    (¬ l.l + 1 < l.lc → r.2 = none ∧ (vget { } r.1 k.val).l = 0 ∧ (vget { } r.1 k.val).active = false) ∧
    ∀ j, j ≠ k.val → vget { } r.1 j = vget { } loops j)

/-- Bundle kinds and the arrivals of lines (R60, R122, R132, R137 to R139, R291). That R132's trap 0x05 for a region open at a sync, yield-point
or re-plan-point bundle carries slot 0xE, which R151 does not list for it, is the model's reading (log entry 32). -/
def Obligations.BundleKindSteps : Prop :=
  (∀ t lev s, t < Config.tiles → s.comesTo t (.sync t lev) true = true → (s.tile t).eng.region = none →
    exec (.sync t lev) s = .next (s.onSeq t fun q => { q with stall := .arriving lev.toNat, after := q.after.drop 1 })) ∧
  (∀ t s, t < Config.tiles → s.comesTo t (.yield t) true = true → (s.tile t).eng.region = none →
    Completes (.yield t) s fun u => (u.tile t).seq.yieldAt = s.icc t ∧ (u.tile t).seq.after = (s.tile t).seq.after.drop 1 ∧
      ((s.tile t).sys.pre = true → (u.tile t).seq.phase = .suspending ∧ (u.tile t).seq.stall = .draining) ∧
      ((s.tile t).sys.pre = false → (u.tile t).seq.phase = (s.tile t).seq.phase ∧ (u.tile t).seq.stall = (s.tile t).seq.stall)) ∧
  (∀ t s, t < Config.tiles → s.comesTo t (.rplan t) true = true → (s.tile t).eng.region = none →
    ((s.tile t).sys.pre = true ∨ (s.tile t).sys.rcls = false) → Completes (.rplan t) s fun u =>
      (u.tile t).seq.replanAt = s.pcc ∧ (u.tile t).seq.yieldAt = s.icc t ∧ (u.tile t).seq.pc = (s.tile t).seq.pc ∧
      ((s.tile t).sys.pre = true → (u.tile t).seq.phase = .suspending)) ∧
  (∀ t v cls code e s, t < Config.tiles → s.comesTo t (.rplan t) true = true → (s.tile t).eng.region = none →
    (s.tile t).sys.pre = false → (s.tile t).sys.rcls = true → (s.tile t).task.bind s.variantOf = some v →
    schedFor v (effOf (s.tile t).vault (s.tile t).own).toNat = some (cls, code) →
    pointAt v (s.tile t).vault.sched.toNat (s.tile t).seq.last cls = some e →
    Completes (.rplan t) s fun u =>
      (u.tile t).seq.replanAt = s.pcc ∧ (u.tile t).seq.yieldAt = s.icc t ∧ (u.tile t).seq.pc = e.addr ∧
      (u.tile t).seq.after = [] ∧ (u.tile t).sys.rcls = false ∧ (u.tile t).vault.sched = BitVec.ofNat 2 cls ∧
      u.mem = writeBytes s.mem (codeAddr t 0) (code.flatMap fun w => leBytes 8 w.toNat) ∧
      (u.tile t).regs = (s.tile t).regs) ∧
  (∀ t s, t < Config.tiles → (s.tile t).eng.region ≠ none →
    (∀ lev, s.comesTo t (.sync t lev) true = true →
      exec (.sync t lev) s = .next ((s.onTile t Tile.dropRegion).flowTrap t 0x05)) ∧
    (s.comesTo t (.yield t) true = true → exec (.yield t) s = .next ((s.onTile t Tile.dropRegion).flowTrap t 0x05)) ∧
    (s.comesTo t (.rplan t) true = true → exec (.rplan t) s = .next ((s.onTile t Tile.dropRegion).flowTrap t 0x05))) ∧
  (∀ t lev k s, t < Config.tiles → (s.tile t).seq.stall = .arriving lev → (s.tile t).task = some k →
    (s.tile t).seq.phase = .running → (s.tile t).seq.issuedAt < s.icc t → s.arrivalReady t (k.scope lev) = true →
    lev ∉ (s.tile t).bar.lost → Completes (.syncArrival t) s fun u =>
      (u.tile t).seq.stall = .released lev ∧ (u.tile t).bar.arrived = some lev) ∧
  (∀ t a e s, t < Config.tiles → (s.tile t).seq.window.find? (fun e => e.addr == a && !e.here) = some e → e.asked < s.icc t →
    (s.homeFree t = true ∨ e.asked + 290 ≤ s.icc t) → Completes (.lineArrival t (.line a)) s fun u =>
      (u.tile t).seq.window = (s.tile t).seq.window.map (fun w => if w.addr = a then { w with here := true } else w) ∧
      (u.tile t).regs = (s.tile t).regs ∧ (u.tile t).st = (s.tile t).st ∧ u.mem = s.mem) ∧
  (∀ t k n s, t < Config.tiles → (vget { } (s.tile t).seq.targets (BitVec.toNat (k : BitVec 3))).fill = .filling n → n < s.icc t →
    (s.homeFree t = true ∨ n + 290 ≤ s.icc t) → Completes (.lineArrival t (.entry k)) s fun u => (vget { } (u.tile t).seq.targets k.toNat).fill = .filled)

/-- Landings (R27, R28, R156, R168, R172). -/
def Obligations.LandingSteps : Prop :=
  (∀ t id f s, t < Config.tiles → (s.tile t).seq.flights.find? (fun f => f.id == id) = some f →
    (s.tile t).mayLand f (s.icc t) = true → f.check = none → (s.tile t).seq.checks = [] →
    Completes (.resultLanding t id) s fun u =>
      let won := f.writes.filter fun w => (s.tile t).winner f w.loc (s.undef (8000000 + f.id))
      (u.tile t).regs = won.foldl Regs.apply (s.tile t).regs ∧
      (u.tile t).sys = { (s.tile t).sys with fpsr := (s.tile t).sys.fpsr ||| f.bflags, dfpsr := (s.tile t).sys.dfpsr ||| f.dflags } ∧
      (u.tile t).seq.flights = (s.tile t).seq.flights.filter (fun g => g.id != f.id) ∧
      (u.tile t).st = (s.tile t).st ∧ u.mem = s.mem ∧ u.mem2 = s.mem2 ∧ u.hostMem = s.hostMem ∧
      ∀ v, v ≠ t → u.tile v = s.tile v) ∧
  (∀ t id e s, t < Config.tiles → (s.tile t).vault.reads.find? (fun e => e.id == id) = some e → e.cycle = s.icc t →
    e.written = false → Completes (.vaultRdLanding t id .clean) s fun u =>
      (u.tile t).seq.stWrites = (s.tile t).seq.stWrites ++
        [{ cycle := e.cycle, tile := t, slot := 6, addr := e.addr, bytes := e.bytes, issue := e.cycle - 28 }] ∧
      (u.tile t).st = (s.tile t).st ∧ (u.tile t).regs = (s.tile t).regs ∧ u.mem = s.mem ∧
      (∀ r ∈ (u.tile t).vault.reads, r.id = e.id → r.written = true) ∧ ∀ v, v ≠ t → u.tile v = s.tile v) ∧
  (∀ t (w : StWrite) (s : State), (s.tile t).vault.reads = [] → (s.tile t).seq.stWrites = [w] → w.tile = t → w.slot < 16 →
    w.cycle ≤ s.icc t → w.arrival = none → ((s.ownWrites t).tile t).st = writeBytes (s.tile t).st w.addr w.bytes) ∧
  (∀ t id e s, t < Config.tiles → (s.tile t).vault.reads.find? (fun e => e.id == id) = some e → e.cycle = s.icc t →
    e.written = true → ∃ r : TrapReq, r.code = 0x70 ∧ r.slot = 6 ∧
      exec (.vaultRdLanding t id .bad) s = .next ((s.reportFault 7 1 0x70 t).trapNext t r)) ∧
  (∀ t id e s, t < Config.tiles → (s.tile t).vault.reads.find? (fun e => e.id == id) = some e → e.cycle = s.icc t →
    e.written = true → exec (.vaultRdLanding t id .corrected) s = .next (s.countCorrected t storeVault))

/-- The ends of waits (R133 to R135, R140, R148). That the exit barrier releases three cycles later is the model's choice (log entry 24). -/
def Obligations.StallEndSteps : Prop :=
  (∀ t d a old k s, t < Config.tiles → (s.tile t).seq.stall = .waita d a old → (s.tile t).task = some k →
    (s.tile t).seq.issuedAt < s.icc t →
    (genAt (s.tile t).st a ≠ old ∨ (s.tile t).sys.pre = true ∨ (s.tile t).sys.thr = true ∨ (s.tile t).sys.rcls = true ∨
      k.yieldMax - 256 ≤ s.icc t - (s.tile t).seq.yieldAt) →
    Completes (.waitaComplete t) s fun u => (u.tile t).seq.stall = .none ∧ (u.tile t).regs = (s.tile t).regs ∧
      (d % 32 ≠ 0 → ∃ g ∈ (u.tile t).seq.flights, g.writes = [.s (d % 32) ((genAt (s.tile t).st a).setWidth 64)] ∧
        g.issue < s.icc t ∧ g.bound = s.icc t + (s.tile t).divisor 0)) ∧
  (∀ t upto s, t < Config.tiles → (s.tile t).seq.issuedAt < s.icc t →
    ((s.tile t).seq.stall = .waits 0 upto → ((s.tile t).eng.mmad.reqs.all fun r => upto ≤ r.id) = true →
      Completes (.waitsComplete t) s fun u => (u.tile t).seq.stall = .none) ∧
    (∀ slot, (slot = 4 ∨ slot = 5) → (s.tile t).seq.stall = .waits (slot - 3) upto →
      ((s.tile t).eng.copies.all fun g => upto ≤ g.id || g.slot != slot || g.fault.isSome) = true →
      Completes (.waitsComplete t) s fun u => (u.tile t).seq.stall = .none) ∧
    ((s.tile t).seq.stall = .waits 3 upto → (s.tile t).eng.copiesDone upto (fun _ => true) = true →
      Completes (.waitsComplete t) s fun u => (u.tile t).seq.stall = .none) ∧
    ((s.tile t).seq.stall = .waits 4 upto → ((s.tile t).eng.df.toList.all (·.isEmpty) && (s.tile t).eng.drf.reqs.isEmpty) = true →
      Completes (.waitsComplete t) s fun u => (u.tile t).seq.stall = .none)) ∧
  (∀ t sel upto s, t < Config.tiles → (s.tile t).seq.stall = .fence sel upto → (s.tile t).fenced sel upto (s.icc t) = true →
    (s.tile t).seq.issuedAt < s.icc t →
    Completes (.fenceComplete t) s fun u => (u.tile t).seq.stall = .none ∧ (u.tile t).regs = (s.tile t).regs) ∧
  (∀ t gm er s, t < Config.tiles → (s.tile t).seq.stall = .modeDrain gm er → (s.tile t).drained = true →
    (s.tile t).seq.checks = [] → Completes (.modeSwitch t) s fun u =>
      (u.tile t).sys = { (s.tile t).sys with gm := gm, er := er } ∧ (u.tile t).seq.stall = .none ∧
      (u.tile t).regs = (s.tile t).regs) ∧
  (∀ t k s, t < Config.tiles → (s.tile t).task = some k → (s.tile t).seq.phase = .running → (s.tile t).seq.stall = .ending →
    (s.tile t).eng.region = none → (s.tile t).quiet (s.icc t) = true →
    exec (.endExit t) s = .next (((s.onSeq t fun q => { q with phase := .ended, stall := .exiting, nextAt := s.icc t + 3 }).roleEnded
      k.serial k.role).finish k.serial))

/-- Taking traps and returning from them (R150 to R154), and the traps that no issue raises (R31, R225, R245, R301, R306). That a MODE, an END or
a TRET still owed by the bundle that trapped is done after TRET's return is the model's reading of R154 (log entry 87); that a wait at a
sync bundle is taken up again is R294's, its place in the frame's issue field R150's. -/
def Obligations.TrapSteps : Prop :=
  (∀ t r s, t < Config.tiles → (s.tile t).seq.phase = .trapping → (s.tile t).seq.trap = some r → r.disp ≠ 1 →
    (s.tile t).stopDrained = true → ∃ s' : State, s'.mem = writeBytes s.mem (vaultAddr t 31 (if (s.tile t).sys.hnd then 4096 else 0))
        ((s.onTile t Tile.dropRegion).frameBytes t r) ∧
      (s'.tile t).seq.phase = (if r.disp = 2 then .halted else .stopped) ∧ (s'.tile t).vault.keeper = true ∧
      (s'.tile t).frames = true ∧ exec (.taskStop t) s = .next (s'.reportStop t r)) ∧
  (∀ t r s, t < Config.tiles → (s.tile t).seq.phase = .trapping → (s.tile t).seq.trap = some r → r.disp = 1 →
    (s.tile t).drained = true → (s.tile t).seq.haltBy = none → Completes (.handlerEntry t) s fun u =>
      u.mem = writeBytes s.mem (vaultAddr t 31 (if (s.tile t).sys.hnd then 4096 else 0)) (s.frameBytes t r) ∧
      (u.tile t).sys = { (s.tile t).sys with hnd := true } ∧ (u.tile t).seq.phase = .running ∧
      (u.tile t).seq.pc = (s.tile t).sys.handler.toNat * 8 ∧
      (u.tile t).seq.latches = (s.tile t).seq.latches.map (fun _ => { }) ∧
      (u.tile t).seq.loops = (s.tile t).seq.loops.map (fun _ => { }) ∧ (u.tile t).regs = (s.tile t).regs) ∧
  (∀ t r by' s, t < Config.tiles → (s.tile t).seq.phase = .trapping → (s.tile t).seq.trap = some r → r.disp = 1 →
    (s.tile t).drained = true → (s.tile t).seq.haltBy = some by' →
    exec (.handlerEntry t) s = .next ((s.enterHandler t r).haltTile t by')) ∧
  (∀ t s, t < Config.tiles → (s.tile t).seq.stall = .tretDrain → (s.tile t).seq.phase = .running →
    (s.tile t).drained = true → (s.tile t).seq.held = [] → Completes (.tretResume t) s fun u =>
      let base := vaultAddr t 31 0
      let rest := readNat s.mem base 8 / 2 ^ 33 % 2 = 1
      (u.tile t).sys.hnd = false ∧ (u.tile t).sys.gm = (readNat s.mem (base + 0x900) 8 % 2 == 1) ∧
      (u.tile t).seq.pc = (if rest then readNat s.mem (base + 8) 8 % 2 ^ 22 else readNat s.mem (base + 8) 8 / 2 ^ 32 % 2 ^ 22) ∧
      (u.tile t).seq.phase = .running ∧ (u.tile t).regs.s = (s.tile t).regs.s ∧ (u.tile t).regs.v = (s.tile t).regs.v ∧
      u.mem = s.mem ∧
      (s.frameWait t base = none → (s.tile t).seq.owed.headD none = none → (u.tile t).seq.stall = .none) ∧
      (s.frameWait t base = none → rest = False → ∀ st, (s.tile t).seq.owed.headD none = some st → (u.tile t).seq.stall = st) ∧
      (∀ a, s.frameWait t base = some (a, 1) → (u.tile t).seq.last = a ∧
        (u.tile t).seq.stall = .arriving (s.headAt t a).slev.toNat)) ∧
  (∀ t r rs s, t < Config.tiles → (s.tile t).seq.stall = .tretDrain → (s.tile t).seq.phase = .running →
    (s.tile t).drained = true → (s.tile t).seq.ceasing = false → (s.tile t).seq.held = r :: rs → Completes (.tretResume t) s fun u =>
      (u.tile t).sys.hnd = false ∧ (u.tile t).seq.phase = .trapping ∧ (u.tile t).seq.held = rs ∧
      (u.tile t).seq.trap.map (·.req.slot) = some r.slot) ∧
  (∀ t k s, t < Config.tiles → (s.tile t).task = some k → (s.tile t).seq.counts = true →
    (k.yieldMax < s.icc t - (s.tile t).seq.yieldAt →
      exec (.yieldIntervalExpiry t) s = .next (s.trapWaiting t (trapOf 0xE 0x0E))) ∧
    (k.replanMax * 1750 < s.pcc - (s.tile t).seq.replanAt →
      exec (.replanIntervalExpiry t) s = .next (s.trapWaiting t (trapOf 0xE 0x1E))) ∧
    ((s.receives k ≠ [] ∨ s.sends k ≠ []) → 65536 ≤ s.icc t - (s.tile t).bar.linkAt →
      exec (.linkSyncIntervalExpiry t) s = .next (s.trapWaiting t (trapOf 0xE 0x52)))) ∧
  (∀ t lev s, t < Config.tiles → (s.tile t).seq.stall = .released lev →
    lev ∈ (s.tile t).bar.lost → (s.tile t).seq.phase.live = true →
    exec (.memberLostTrap t) s = .next (s.trapWaiting t (trapOf 0xE 0x50))) ∧
  (∀ t lev k s, t < Config.tiles → (s.tile t).seq.stall = .arriving lev → (s.tile t).task = some k →
    (s.tile t).seq.phase = .running → (s.tile t).seq.issuedAt < s.icc t → s.arrivalReady t (k.scope lev) = true →
    lev ∈ (s.tile t).bar.lost → exec (.syncArrival t) s = .next (s.trapWaiting t (trapOf 0xE 0x50))) ∧
  (∀ t n r s, t < Config.tiles → (s.tile t).seq.faults = [(n, r)] → n ≤ s.icc t →
    let raised := (s.trapWaiting t r).onSeq t fun q => { q with faults := q.faults.erase (n, r) }
    (r.slot = 7 → r.code ∈ [0x42, 0x45, 0x46, 0x47, 0x48] → exec (.decoderTrap t) s = .next raised) ∧
    (r.slot = 3 → r.code = 0x4A → exec (.mmadFaultTrap t) s = .next raised))

/-- Barriers (R292, R293, R298, R299) and the exit barrier (R148; its three cycles are the model's choice, log entry 24). -/
def Obligations.BarrierSteps : Prop :=
  (∀ serial lev group l b a t s, lev < 8 → s.launch serial = some l →
    s.barriers.find? (fun b => b.isOf serial lev group) = some b → b.last = some a →
    l.tiles[(l.group lev group).headD 0]? = some t → l.domain lev < 2 →
    a + (if l.domain lev = 0 then 1 else 3) ≤ s.icc t →
    let s' := (l.group lev group).foldl (fun s r => s.releaseRole l serial lev r) s
    exec (.islandBarrierRelease serial lev group) s =
      .next (s'.barrierDone serial lev group)) ∧
  (∀ serial lev group l b s, lev < 8 → s.launch serial = some l →
    s.barriers.find? (fun b => b.isOf serial lev group) = some b → 2 ≤ l.domain lev → b.known l = true → b.base = none →
    let islands := (((l.group lev group).filter fun r => !l.ends.contains r).filterMap fun r => (l.tiles[r]?).map (· / 16)).dedup
    exec (.lamplighterReleaseBase serial lev group) s =
      .next (s.onBarrier serial lev group fun b => { b with base := some s.pcc, toResume := islands })) ∧
  (∀ serial lev group island l b t0 s, lev < 8 → island < Config.islands → s.launch serial = some l →
    s.barriers.find? (fun b => b.isOf serial lev group) = some b → b.base = some t0 → island ∈ b.toResume →
    (s.island island).stretch = false → t0 + l.sigOffset (l.phaseOf island) ≤ s.pcc →
    let s' := ((l.group lev group).filter fun r => match l.tiles[r]? with
        | some t => t / 16 == island | none => false).foldl (fun s r => s.releaseRole l serial lev r) s
    let left := b.toResume.filter (· != island)
    exec (.lamplighterPhaseSignal serial lev group island) s = .next (if left.isEmpty then s'.barrierDone serial lev group
      else s'.onBarrier serial lev group fun b => { b with toResume := left })) ∧
  (∀ serial lev group (s : State), let u := s.barrierDone serial lev group
    u.tiles = s.tiles ∧ u.launches = s.launches ∧ u.mem = s.mem ∧ u.mem2 = s.mem2 ∧ u.hostMem = s.hostMem) ∧
  (∀ (l : Launch) k, l.sigOffset k = (7 * l.spc * k + 1) / 2) ∧
  (∀ (l : Launch) serial lev role t (s : State), l.tiles[role]? = some t → (s.tile t).runs serial = true → (s.tile t).seq.phase = .running →
    (s.tile t).seq.stall = .released lev → (s.tile t).bar.arrived = some lev →
    let y := (s.releaseRole l serial lev role).tile t
    y.seq.stall = .none ∧ y.seq.nextAt = s.icc t ∧ y.bar.arrived = none ∧
      y.bar.epoch = (if 1 ≤ l.domain lev then (s.tile t).bar.epoch + 1 else (s.tile t).bar.epoch) ∧
      y.regs = (s.tile t).regs ∧ y.st = (s.tile t).st) ∧
  (∀ serial island l s, island < Config.islands → s.launch serial = some l →
    let gang := (List.range l.roles).filter fun r => match l.tiles[r]? with | some t => t / 16 == island | none => false
    let here := gang.filterMap fun r => l.tiles[r]?
    gang ≠ [] → (∀ r ∈ gang, r ∈ l.ends) → (∃ t ∈ here, (s.tile t).runs serial = true) →
    (∀ t ∈ here, (s.tile t).runs serial = true → (s.tile t).seq.nextAt ≤ s.icc t) →
    exec (.exitBarrierRelease serial island) s =
      .next ((here.foldl (fun s t => if (s.tile t).runs serial then s.releaseTile t else s) s).finish serial)) ∧
  (∀ t (s : State), ((s.releaseTile t).tile t).task = none ∧ ((s.releaseTile t).tile t).seq = { } ∧
    ((s.releaseTile t).tile t).vault.keeper = false)

/-- Padded links (R304, R305, R307) and the messages of pod barriers (R301, R369). The model's choices in it: that a line for another package
leaves the state, as one package is modelled (log entry 84), and one whose receiver has gone is dropped (log entry 119); that the loss of a
pod's member comes by BARRIER_MESSAGE and stands in the status record (log entries 93, 95); and how news of a tree that is cut comes, and
what is looked at here (log entry 118). -/
def Obligations.PaddedLinkSteps : Prop :=
  (∀ t chan m k l e s, t < Config.tiles → (s.tile t).bar.nextMark = some m → (s.tile t).task = some k →
    s.launch k.serial = some l → (s.channels k).find? (fun e => e.1 == chan) = some (chan, e) → m.chan = chan →
    (s.tile t).bar.portAt ≤ s.icc t → m.cycle < s.icc t →
    let s' := s.onTile t fun x => { x with bar := { x.bar with marks := x.bar.marks.erase m, portAt := s.icc t + 1 } }
    let r := l.route e t
    (s'.linkDown r.2 = true → exec (.linkLineAccept t chan) s = .next (s'.found t (trapOf 0xE 0x53))) ∧
    (s'.linkDown r.2 = false → Completes (.linkLineAccept t chan) s fun u =>
      u.lines = s.lines ++ [{ seq := s.nextId, src := t, serial := k.serial, chan := chan, line := m.line
                              bytes := readBytes (s.tile t).st m.addr 64, due := s.pcc + r.1, link := r.2
                              writers := m.by_.map fun w => w.getD t }] ∧
      (u.tile t).bar.marks = (s.tile t).bar.marks.erase m ∧ (u.tile t).st = (s.tile t).st)) ∧
  (∀ n e s, s.lines.find? (fun e => e.seq == n) = some e → s.linkDown e.link = false →
    (∀ f ∈ s.lines, f.seq < n → f.serial = e.serial → f.chan ≠ e.chan) →
    (e.link ≠ none → exec (.linkLineDelivery n) s = .next { s with lines := s.lines.filter fun f => f.seq != n }) ∧
    (e.link = none → s.lineTarget e = none →
      (s.lineWaits e = true → exec (.linkLineDelivery n) s = .next s) ∧
      (s.lineWaits e = false → exec (.linkLineDelivery n) s = .next { s with lines := s.lines.filter fun f => f.seq != n })) ∧
    (e.link = none → ∀ t base, s.lineTarget e = some (t, base) → exec (.linkLineDelivery n) s =
      .next { s with lines := s.lines.filter fun f => f.seq != n
                     landings := s.landings ++ [{ tile := t, addr := base + 64 * e.line, line := e }] })) ∧
  (∀ (e : Landing) ts (s : State), s.landings = [e] → e.tile ∈ ts → e.tile < Config.tiles →
    let u := s.landLines ts
    u.landings = [] ∧ (u.tile e.tile).st = writeBytes (s.tile e.tile).st e.addr e.line.bytes ∧
      (e.line.chan, e.line.line) ∈ (u.tile e.tile).bar.full ∧ (u.tile e.tile).regs = (s.tile e.tile).regs) ∧
  (∀ n e s, s.lines.find? (fun e => e.seq == n) = some e → s.linkDown e.link = true → e.src < Config.tiles →
    exec (.linkDeliveryFailure n) s =
      .next (({ s with lines := s.lines.filter fun f => f.seq != n } : State).found e.src (trapOf 0xE 0x53))) ∧
  (∀ serial lev rank l s, lev < 8 → s.launch serial = some l → l.domain lev = 4 → lev < l.levels →
    (s.parentUp l = false → exec (.barrierMessage serial lev .release rank) s = .next (s.cutOff l serial lev)) ∧
    (s.parentUp l = true → exec (.barrierMessage serial lev .release rank) s = .next (s.onBarrier serial lev 0 fun b =>
      if b.last.isSome then { b with learned := some s.pcc } else b)) ∧
    exec (.barrierMessage serial lev .cut rank) s = .next (s.cutOff l serial lev) ∧
    (rank ≠ l.podRank → Completes (.barrierMessage serial lev .arrival rank) s fun u =>
      u.tiles = s.tiles ∧ u.launches = s.launches ∧ u.mem = s.mem ∧ ∃ b ∈ u.barriers, b.isOf serial lev 0 = true ∧ rank ∈ b.heard) ∧
    (s.treeCut l (s.heardOf serial lev) = true →
      exec (.barrierMessage serial lev .arrival l.podRank) s = .next (s.cutOff l serial lev)) ∧
    (∀ role, rank ≠ l.podRank → exec (.barrierMessage serial lev (.lost role) rank) s = .next (s.podLost l serial lev rank role))) ∧
  (∀ (b : Barrier) (l : Launch) now, l.domain b.lev = 4 →
    ((l.root = true ∧ b.last ≠ none ∧ b.learned = none ∧ l.podN ≤ b.heard.length + 1) → b.learn l now = { b with learned := some now }) ∧
    ((l.root = false ∨ b.last = none ∨ b.learned ≠ none ∨ b.heard.length + 1 < l.podN) → b.learn l now = b)) ∧
  (∀ serial lev rank role l (s : State), s.launch serial = some l → ∃ m,
    (s.podLost l serial lev rank role).launch serial = some m ∧ (rank, role) ∈ m.lost ∧ m.state = l.state ∧ m.stops = l.stops) ∧
  (∀ serial role l (s : State), s.launch serial = some l → ∃ m,
    (s.roleLost serial role).launch serial = some m ∧ (l.podRank, role) ∈ m.lost ∧ m.state = l.state)

/-- The denomination decoder (R221 to R226) over rows in the form of R86 to R88. That an entry at the ratio raises 0x42 at once, whether or not
its queue has room, is the model's choice (log entry 107). -/
def Obligations.DecoderSteps : Prop :=
  (∀ t q r bs n s, t < Config.tiles → (s.tile t).drfReady = some (q, r, bs, n) →
    let r' := r.piece (bs.take n)
    let s' := s.onTile t fun x => { x with eng := { x.eng with
      df := vset x.eng.df q.f (bs.drop n), drf := { x.eng.drf with row := some r' } } }
    (r'.err = none ∨ r'.emit ≠ [] → exec (.drfRowDecode t) s = .next s') ∧
    (∀ e, r'.err = some e → r'.emit = [] → exec (.drfRowDecode t) s = .next (s'.found t { code := e, slot := 7 }))) ∧
  (∀ t k q qs r e rest s, t < Config.tiles → (s.tile t).working = true → (s.tile t).task = some k →
    (s.tile t).eng.drf.reqs = q :: qs → (s.tile t).eng.drf.row = some r → r.emit = e :: rest →
    (q.ratio * 256 ≤ r.charge → exec (.decoderEntryEmit t) s = .next (s.found t { code := 0x42, slot := 7 })) ∧
    (r.charge < q.ratio * 256 → 
      (vget [] (s.tile t).eng.q q.q).length + (s.tile t).eng.pops.count (s.icc t, q.q) < k.qOcc q.q → q.q < 4 →
      Completes (.decoderEntryEmit t) s fun u =>
        vget [] (u.tile t).eng.q q.q = vget [] (s.tile t).eng.q q.q ++ [e] ∧
        (∀ j, j ≠ q.q → vget [] (u.tile t).eng.q j = vget [] (s.tile t).eng.q j) ∧
        (r.stage = 5 → (u.tile t).eng.drf.reqs = qs ∧ (u.tile t).eng.drf.row = none) ∧
        (r.stage ≠ 5 → (u.tile t).eng.drf.reqs = q :: qs ∧
          (u.tile t).eng.drf.row = some { r with emit := rest, charge := r.charge + 1 }) ∧
        (u.tile t).regs = (s.tile t).regs ∧ (u.tile t).st = (s.tile t).st)) ∧
  (∀ (r : DrfRow) w, w % 2 ^ 11 = 0 → w / 2 ^ 11 % 2 = 0 → (r.header w).stage = 1 ∧ (r.header w).k = w / 2 ^ 18 + 1 ∧
    (r.header w).groups = w / 2 ^ 12 % 64 + 1) ∧
  (∀ (r : DrfRow) w, w % 2 ^ 11 ≠ 0 → (r.header w).err = some 0x45) ∧
  (∀ (r : DrfRow) p, (r.k ≤ p → (r.place p).err = some 0x47) ∧
    (p < r.k → r.seen.getLsbD p = true → (r.place p).err = some 0x48) ∧
    (p < r.k → r.seen.getLsbD p = false → (r.place p).emit = r.emit ++ [positionEntry p] ∧ (r.place p).left = r.left - 1))

/-- The denomination path (R240 to R246, R101). That the engine works on a copy of the request's row, and writes it at each group's boundary, is
the model's reading (log entry 35). -/
def Obligations.DenominationPathSteps : Prop :=
  (∀ t r rs s, t < Config.tiles → (s.tile t).working = true → (s.tile t).eng.mmad.started = false →
    (s.tile t).eng.mmad.reqs = r :: rs → (s.tile t).pending (s.icc t) (.acc r.acc) = false →
    Completes (.mmadRequestStart t) s fun u =>
      (u.tile t).eng.mmad = { (s.tile t).eng.mmad with
        started := true, chunk := [], ahead := [], sums := List.replicate 32 0
        row := AccTile.row (look 0 r.acc (s.tile t).regs.acc) r.row } ∧
      (u.tile t).regs = (s.tile t).regs ∧ (u.tile t).st = (s.tile t).st) ∧
  (∀ t r rs s, t < Config.tiles → (s.tile t).working = true → (s.tile t).eng.mmad.started = false →
    (s.tile t).eng.mmad.reqs = r :: rs → (s.tile t).pending (s.icc t) (.acc r.acc) = true →
    ((s.tile t).sys.gm = true → exec (.mmadRequestStart t) s = .next s) ∧
    ((s.tile t).sys.gm = false → Completes (.mmadRequestStart t) s fun u =>
      (u.tile t).eng.mmad.started = true ∧ (u.tile t).eng.mmad.reqs = r :: rs ∧ (u.tile t).regs = (s.tile t).regs)) ∧
  (∀ t r rs e rest s, t < Config.tiles → (s.tile t).working = true → (s.tile t).eng.mmad.started = true →
    (s.tile t).eng.mmad.reqs = r :: rs → vget [] (s.tile t).eng.q r.q = e :: rest →
    let s' := s.onTile t fun x => { x with eng := { x.eng with
      q := vset x.eng.q r.q rest, pops := (s.icc t, r.q) :: x.eng.pops.filter fun e => e.1 == s.icc t } }
    let p := (e.extractLsb' 0 14).toNat
    (e.extractLsb' 30 2 = 0 → r.lim < r.base + 64 * p + 64 →
      exec (.mmadEntryPop t) s = .next (s'.found t { code := 0x4A, slot := 3 })) ∧
    (e.extractLsb' 30 2 = 0 → r.base + 64 * p + 64 ≤ r.lim → (s.tile t).eng.mmad.chunk.length < 63 →
      exec (.mmadEntryPop t) s = .next (s'.onMmad t (·.position p))) ∧
    (e.extractLsb' 30 2 = 0 → r.base + 64 * p + 64 ≤ r.lim → 63 ≤ (s.tile t).eng.mmad.chunk.length →
      exec (.mmadEntryPop t) s = .next ((s'.onMmad t (·.position p)).onTile t (·.flush r))) ∧
    (e.extractLsb' 30 2 = 1 → exec (.mmadEntryPop t) s =
      .next (s'.onTile t fun x => (x.flush r).accumulate r (e.extractLsb' 0 16))) ∧
    (e.extractLsb' 30 2 = 2 → Completes (.mmadEntryPop t) s fun u =>
      (u.tile t).eng.mmad.reqs = rs ∧ (u.tile t).eng.mmad.started = false ∧
      (r.q < 4 → vget [] (u.tile t).eng.q r.q = rest) ∧ (∀ j, j ≠ r.q → vget [] (u.tile t).eng.q j = vget [] (s.tile t).eng.q j) ∧
      (u.tile t).regs = (s.tile t).regs ∧ (u.tile t).st = (s.tile t).st ∧ u.mem = s.mem)) ∧
  (∀ t pos r rs s, t < Config.tiles → (s.tile t).working = true → (s.tile t).eng.mmad.started = true →
    (s.tile t).eng.mmad.reqs = r :: rs → r.base + 64 * pos + 64 ≤ r.lim →
    Completes (.mmadActivationRead t pos) s fun u =>
      ((∀ e ∈ (s.tile t).eng.mmad.chunk, ¬ (e.1 = pos ∧ e.2 = none)) →
        (u.tile t).eng.mmad.ahead = (s.tile t).eng.mmad.ahead ++ [(pos, (s.tile t).activation r pos)] ∧
        (u.tile t).eng.mmad.chunk = (s.tile t).eng.mmad.chunk) ∧
      ((∃ e ∈ (s.tile t).eng.mmad.chunk, e.1 = pos ∧ e.2 = none) →
        (u.tile t).eng.mmad.ahead = (s.tile t).eng.mmad.ahead ∧
        (u.tile t).eng.mmad.chunk = (s.tile t).eng.mmad.chunk.map fun e =>
          if e.1 = pos ∧ e.2 = none then (pos, some ((s.tile t).activation r pos)) else e) ∧
      (u.tile t).eng.mmad.reqs = r :: rs ∧ (u.tile t).eng.mmad.sums = (s.tile t).eng.mmad.sums ∧
      (u.tile t).eng.q = (s.tile t).eng.q ∧ (u.tile t).regs = (s.tile t).regs ∧ (u.tile t).st = (s.tile t).st ∧
      u.mem = s.mem ∧ ∀ v, v ≠ t → u.tile v = s.tile v) ∧
  (∀ (x : Tile) (r : MmadReq) p b, b < 32 →
    ((x.activation r p).extractLsb' (16 * b) 16).toNat = readNat x.st (r.base + 64 * p + 2 * b) 2) ∧
  (∀ (m : Mmad) p, (∀ row, find p m.ahead = some row → (m.position p).chunk = m.chunk ++ [(p, some row)]) ∧
    (find p m.ahead = none → (m.position p).chunk = m.chunk ++ [(p, none)] ∧ (m.position p).ahead = m.ahead)) ∧
  (∀ (x : Tile) (r : MmadReq), let m := x.eng.mmad
    let sum := fun b => windowSum (termOf fp32 (m.sums.getD b 0).toNat :: m.chunk.map fun e =>
      termOf bf16 ((e.2.getD (x.activation r e.1)).extractLsb' (16 * b) 16).toNat)
    (m.chunk = [] → x.flush r = x) ∧
    (m.chunk ≠ [] → (x.flush r).eng.mmad.chunk = [] ∧ (x.flush r).eng.mmad.row = m.row ∧
      (∀ b, b < 32 → (x.flush r).eng.mmad.sums.getD b 0 = BitVec.ofNat 32 (sum b).1) ∧
      (x.flush r).sys = { x.sys with fpsr := x.sys.fpsr ||| anyFlags ((List.range 32).map fun b => (sum b).2) } ∧
      (x.flush r).regs = x.regs ∧ (x.flush r).st = x.st)) ∧
  (∀ (x : Tile) (r : MmadReq) v, r.row < 32 → let m := x.eng.mmad
    let prod := fun b => windowSum [(termOf fp32 (m.sums.getD b 0).toNat).mul (termOf bf16 v.toNat)]
    let new := fun b => windowSum [termOf fp32 (m.row.getD b 0).toNat, termOf fp32 (prod b).1]
    let y := x.accumulate r v
    let at' := fun (z : Tile) q c => (look 0 r.acc z.regs.acc).extractLsb' (32 * (64 * q + c)) 32
    (∀ b, b < 32 → at' y r.row b = BitVec.ofNat 32 (new b).1 ∧ y.eng.mmad.row.getD b 0 = BitVec.ofNat 32 (new b).1 ∧
      y.eng.mmad.sums.getD b 1 = 0) ∧
    (∀ q c, q < 32 → c < 64 → (q ≠ r.row ∨ 32 ≤ c) → at' y q c = at' x q c) ∧
    y.sys = { x.sys with fpsr := x.sys.fpsr ||| anyFlags ((List.range 32).map fun b => (prod b).2 ||| (new b).2) } ∧
    (∀ j, j ≠ r.acc → look 0 j y.regs.acc = look 0 j x.regs.acc) ∧
    y.regs.s = x.regs.s ∧ y.regs.p = x.regs.p ∧ y.regs.ag = x.regs.ag ∧ y.regs.v = x.regs.v ∧ y.regs.m = x.regs.m ∧ y.st = x.st)

/-- Global traffic (R252 to R257, R259, R267, R268, R273, R279, R280, R291), and the errors of a tile's own stores (R372). From when the 10 ms
of a host window's acknowledgement count is read from R268 (log entry 102), that an ack which has failed fails once is the model's (log
entry 117), and the errors 0x28, 0x71, 0x72 and 0x26 that no access of the model makes come from outside (log entry 62). -/
def Obligations.GlobalUnitSteps : Prop :=
  (∀ t id g s, t < Config.tiles → (s.tile t).eng.copies.find? (fun g => g.id == id) = some g → g.fault = none →
    (s.tile t).working = true → g.walked < g.units →
    (g.nextWalk = none → exec (.translationWalk t id) s = .next (s.setCopy t { g with walked := g.units })) ∧
    (∀ u va, g.nextWalk = some (u, va) →
      let r := s.translate t { writes := g.kind == .gwr, dec := g.kind == .dec, like := g.form } va
      (∀ e, r.1 = .error e → exec (.translationWalk t id) s = .next (r.2.failCopy t { g with walked := u } u e va)) ∧
      (∀ l, r.1 = .ok l → let g' := { g with leaves := g.leaves ++ [l], walked := u }
        (∀ e, r.2.homeFault l va = some e →
          exec (.translationWalk t id) s = .next (r.2.failCopy t { g with walked := u } u e va)) ∧
        (r.2.homeFault l va = none → ∀ e a, r.2.pageFault t { g with leaves := g.leaves ++ [l] } l u = some (e, a) →
          exec (.translationWalk t id) s = .next (r.2.failCopy t { g with walked := u } u e a)) ∧
        (r.2.homeFault l va = none → r.2.pageFault t { g with leaves := g.leaves ++ [l] } l u = none →
          let upto := match g'.nextWalk with | some n => n.1 | none => g.units
          exec (.translationWalk t id) s =
            .next (r.2.setCopy t { g' with walked := upto, sent := g.sent ++ [(upto, s.pcc)] }))))) ∧
  (∀ t id a s, t < Config.tiles → (s.tile t).eng.copies.find? (fun g => g.id == id) = none →
    (s.tile t).eng.atomics.find? (fun a => a.id == id) = some a → a.stopped = false → a.leaf = none →
    let r := s.translate t a.want a.va
    (∀ e, r.1 = .error e → exec (.translationWalk t id) s = .next (r.2.stopAtomic t a e)) ∧
    (∀ l, r.1 = .ok l → Completes (.translationWalk t id) s fun u =>
      (∀ b ∈ (u.tile t).eng.atomics, b.id = id → b.leaf = some l) ∧ u.mem = s.mem)) ∧
  (∀ t id n g s, t < Config.tiles → (s.tile t).eng.copies.find? (fun g => g.id == id) = some g →
    (∀ a ∈ (s.tile t).eng.acks, ¬ (a.copy = id ∧ a.unit = n ∧ a.failed = false)) →
    (s.tile t).working = true → g.fault = none → n < g.walked → g.past n = false → (s.tile t).lineWait g n = false →
    (g.kind = .gwr → find n g.data ≠ none) → (g.kind = .feed → g.srcSpace = 2) →
    (∀ h ∈ s.unitHomes g n, s.homeFree h = true) →
    (∀ e va, s.unitFault t g n = some (e, va) → exec (.globalCopyUnitPerform t id n) s = .next (s.failCopy t g n e va)) ∧
    (s.unitFault t g n = none → exec (.globalCopyUnitPerform t id n) s =
      .next ((s.unitHomes g n).foldl (fun s h => s.homeMoves h t 1) (s.performUnit t g n)).nextFree)) ∧
  (∀ t id n s, t < Config.tiles → (∃ a ∈ (s.tile t).eng.acks, a.copy = id ∧ a.unit = n ∧ a.failed = false) →
    Completes (.globalCopyUnitPerform t id n) s fun u =>
      (∀ a ∈ (u.tile t).eng.acks, ¬ (a.copy = id ∧ a.unit = n)) ∧ (u.tile t).regs = (s.tile t).regs ∧ u.mem = s.mem) ∧
  (∀ t n (g : GCopy) (s : State), g.kind = .grd → let r := s.readSpan t g (g.src + 64 * n) 64
    s.performUnit t g n = (r.2.landUnit t g (g.dst + 64 * n) r.1).unitDone t g n ∧
    ((r.2.landUnit t g (g.dst + 64 * n) r.1).tile t).seq.stWrites = (r.2.tile t).seq.stWrites ++
      [{ cycle := r.2.icc t, tile := t, slot := g.slot, addr := g.dst + 64 * n, bytes := r.1, issue := g.issue }]) ∧
  (∀ t n (g : GCopy) (l : Leaf) bs (s : State), g.kind = .gwr → g.leafAt (g.dst + 64 * n) = some l → find n g.data = some bs → l.ep = false →
    (s.performUnit t g n).mem = (s.writeLine l (g.dst + 64 * n) bs).mem ∧
    (s.performUnit t g n).mem2 = (s.writeLine l (g.dst + 64 * n) bs).mem2 ∧
    (s.performUnit t g n).hostMem = (s.writeLine l (g.dst + 64 * n) bs).hostMem) ∧
  (∀ t n (g : GCopy) (l : Leaf) bs (s : State), g.kind = .gwr → g.leafAt (g.dst + 64 * n) = some l → find n g.data = some bs → l.ep = true →
    let r := s.tagWrite (s.actor t) (l.phys (g.dst + 64 * n) / 64) (g.dst + 64 * n)
    let u := s.performUnit t g n
    u.tags = r.2.tags ∧
    (r.1 = true → u.mem = (s.writeLine l (g.dst + 64 * n) bs).mem ∧ u.mem2 = (s.writeLine l (g.dst + 64 * n) bs).mem2 ∧
      u.hostMem = (s.writeLine l (g.dst + 64 * n) bs).hostMem) ∧
    (r.1 = false → u.mem = s.mem ∧ u.mem2 = s.mem2 ∧ u.hostMem = s.hostMem)) ∧
  (∀ t id k g bs s, t < Config.tiles → (s.tile t).working = true → (s.tile t).task = some k →
    (s.tile t).eng.copies.find? (fun g => g.id == id) = some g → g.kind = .feed → g.fifo < 2 →
    (∀ h ∈ (s.tile t).eng.copies, h.id < g.id → h.kind = .feed → h.fifo ≠ g.fifo) →
    g.ticks (s.icc t) = true → vget 0 (s.tile t).eng.dfAt g.fifo ≤ s.icc t →
    (vget [] (s.tile t).eng.df g.fifo).length + 64 ≤ k.dfOcc g.fifo →
    (if g.srcSpace = 2 then find g.done.length g.data else some (readBytes (s.tile t).st (g.src + 64 * g.done.length) 64)) = some bs →
    Completes (.cfeedUnitEntry t id) s fun u =>
      vget [] (u.tile t).eng.df g.fifo = vget [] (s.tile t).eng.df g.fifo ++ bs ∧
      vget 0 (u.tile t).eng.dfAt g.fifo = s.icc t + g.step ∧ (u.tile t).st = (s.tile t).st ∧
      (u.tile t).regs = (s.tile t).regs ∧
      (∀ h ∈ (u.tile t).eng.copies, h.id = id → h.done = g.done ++ [g.done.length])) ∧
  (∀ t id code n r s, t < Config.tiles → (s.tile t).seq.faults = [(n, r)] → n ≤ s.icc t → isGlobalCode r.code = true →
    r.slot < 8 → r.code = code → exec (.globalFaultTrap t id code) s =
      .next ((s.trapWaiting t r).onSeq t fun q => { q with faults := q.faults.erase (n, r) })) ∧
  (∀ t id code s, t < Config.tiles → (s.tile t).seq.faults = [] →
    let late := (s.tile t).eng.acks.find? fun a => code == 0x26 && a.copy == id && !a.failed && a.pcc + 17500000 ≤ s.pcc
    (code ∈ [0x26, 0x28, 0x72] → late = none → exec (.globalFaultTrap t id code) s = .next (s.outsideFailure t id code)) ∧
    (code ∈ [0x26, 0x28, 0x72] → ∀ a, late = some a → exec (.globalFaultTrap t id code) s = .next (s.ackFails t code a)) ∧
    (code = 0x71 → (s.tile t).seq.phase.live = true → exec (.globalFaultTrap t id code) s =
      .next ((s.reportFault 7 1 0x71 t).trapNext t { code := 0x71, slot := id % 8 })) ∧
    (code = 0 → 3 ≤ id → id ≤ 10 → exec (.globalFaultTrap t id code) s = .next (s.countCorrected t id)))

/-- Atomics (R126 to R131) and vector atomics (R282). -/
def Obligations.AtomicSteps : Prop :=
  (∀ t id a l s, t < Config.tiles → (s.tile t).eng.atomics.find? (fun a => a.id == id) = some a → a.leaf = some l →
    a.stopped = false → s.behind t id a.va = false → (s.portFree (s.homeOf l a.va) = true ∨ s.atomicLate t a l = true ∨ s.pressed t id 0 = true) →
    (∀ e, s.homeFault l a.va = some e → exec (.atomicPerform t id) s = .next (s.stopAtomic t a e)) ∧
    (s.homeFault l a.va = none → exec (.atomicPerform t id) s =
      .next ((s.finishAtomic t a l).portMoves (s.homeOf l a.va) t 1).nextFree)) ∧
  (∀ who (l : Leaf) va size (op : AOp) (n e : Word) (s : State),
    let r := s.performAtomic who l va size op n e
    r.1 = leNat (s.readPart l va size) ∧
    r.2.mem = (s.writePart l va (leBytes size (op.apply (8 * size) r.1 (n.toNat % 2 ^ (8 * size)) (e.toNat % 2 ^ (8 * size))))).mem) ∧
  (∀ (s : State) t (a : Atomic) l op size n e d id, t < Config.tiles → a.kind = .scalar op size n e (some d) →
    a.flight = some id → d ≠ 0 → ∀ f ∈ ((s.finishAtomic t a l).tile t).seq.flights, f.id = id →
    f.writes = [.s d (BitVec.ofNat 64 (leNat (s.readPart l a.va size)))]) ∧
  (∀ (s : State) l line e (r : List LineAccess),
    s.performLine l line [] = ([], s) ∧
    (e.store = true → s.performLine l line (e :: r) = (s.writePart l (line + e.off) (leBytes e.size e.data.toNat)).performLine l line r) ∧
    (e.store = false → s.performLine l line (e :: r) =
      ((e, leNat (s.readPart l (line + e.off) e.size)) :: (s.performLine l line r).1, (s.performLine l line r).2))) ∧
  (∀ (s : State) t (a : Atomic) l acc, a.kind = .line acc →
    let r := (s.onTile t fun x => { x with eng := { x.eng with
      atomics := x.eng.atomics.filter fun b => b.id != a.id } }).performLine l a.va acc
    let u := s.finishAtomic t a l
    u.mem = r.2.mem ∧ u.mem2 = r.2.mem2 ∧ u.hostMem = r.2.hostMem ∧
    ((r.1.filterMap fun p => p.1.flight).Nodup → ∀ p ∈ r.1, ∀ id, p.1.flight = some id → ∀ f ∈ (u.tile t).seq.flights, f.id = id →
      f.writes = if p.1.reg = 0 then [] else [.s p.1.reg (loadedValue p.1.size p.1.sx p.2)])) ∧
  (∀ k m n e, AOp.apply .add k m n e = (m + n) % 2 ^ k ∧ AOp.apply .and k m n e = m &&& n ∧
    AOp.apply .or k m n e = m ||| n ∧ AOp.apply .xor k m n e = m ^^^ n ∧ AOp.apply .swp k m n e = n ∧
    AOp.apply .cas k m n e = (if m = e then n else m) ∧ AOp.apply .minu k m n e = min n m ∧
    AOp.apply .maxu k m n e = max n m) ∧
  (∀ k ∈ [32, 64], ∀ (m n : BitVec k) e, 
    AOp.apply .min k m.toNat n.toNat e = (if n.toInt < m.toInt then n else m).toNat ∧
    AOp.apply .max k m.toNat n.toNat e = (if m.toInt < n.toInt then n else m).toNat) ∧
  (∀ m n e, let nan := fun (f : Fmt) (x : Nat) => (f.unpack x).isNan
    let below := fun (f : Fmt) (x y : Nat) => Fp.below true (f.unpack x) (f.unpack y)
    ∀ p ∈ [(32, fp32), (64, fp64)], 
      AOp.apply .fadd p.1 m n e = (p.2.addFp false .rne (p.2.unpack m) (p.2.unpack n)).1 ∧
      (nan p.2 m = false → nan p.2 n = false →
        AOp.apply .fmin p.1 m n e = (if below p.2 n m then n else m) ∧ AOp.apply .fmax p.1 m n e = (if below p.2 m n then n else m)) ∧
      (nan p.2 m = false → nan p.2 n = true → AOp.apply .fmin p.1 m n e = m ∧ AOp.apply .fmax p.1 m n e = m) ∧
      (nan p.2 m = true → nan p.2 n = false → AOp.apply .fmin p.1 m n e = n ∧ AOp.apply .fmax p.1 m n e = n) ∧
      (nan p.2 m = true → nan p.2 n = true → ∀ x, p.2.firstNan [p.2.unpack m] = some x →
        AOp.apply .fadd p.1 m n e = x ∧ AOp.apply .fmin p.1 m n e = x ∧ AOp.apply .fmax p.1 m n e = x)) ∧
  (∀ t a as s, t < Config.tiles → (s.tile t).eng.vatomics = a :: as → a.stopped = false →
    (a.started = false → (s.tile t).working = true → a.lanes ≠ [] → exec (.vectorAtomicProcess t) s =
      .next (s.onVatomics t fun as => as.map fun b => if b.id = a.id then { b with started := true } else b)) ∧
    (∀ lane va n rest, a.started = true → a.lanes = (lane, va, n) :: rest → s.behind t a.id va = false →
      exec (.vectorAtomicProcess t) s = .next (s.sendLane t a lane va n rest)) ∧
    ((a.started = true ∨ (s.tile t).working = true) → a.lanes = [] →
      exec (.vectorAtomicProcess t) s = .next (s.finishVatomic t a)))

/-- The owner's tables (R361, R362), for the owner alone (R357, R381). The class numbers of the two log records, 5 3 and 5 1, and the refusal code
0 are the model's choices (log entry 112), and that a table-region write waits for what its old region holds as well as for what its new one
does is read from R361 (log entry 133). -/
def Obligations.OwnerTableSteps : Prop :=
  (∀ port root lo hi s, Owns s port → Completes (.tableCacheInvalidate port root lo hi) s fun u =>
    (∀ c, c ∈ u.caches ↔ c ∈ s.caches ∧ ¬ (c.2.1 = root ∧ c.2.2.va ≤ hi ∧ lo < c.2.2.va + 2 ^ levelShift c.2.2.level)) ∧
    u.tiles = s.tiles ∧ u.mem = s.mem) ∧
  (∀ port lo hi s, Owns s port → Completes (.writerTagClear port lo hi) s fun u =>
    (∀ e, e ∈ u.tags ↔ e ∈ s.tags ∧ ¬ (lo ≤ e.1 / 1024 ∧ e.1 / 1024 ≤ hi)) ∧ u.tiles = s.tiles ∧ u.mem = s.mem) ∧
  (∀ port word phases s, Owns s port →
    let ps := (phases ++ List.replicate 96 0).take 96
    ((∀ p ∈ ps, p.toNat ≤ bitsOf word 63 59) → exec (.lamplighterWrite port word phases) s =
      .next ((State.onWriting { s with lampWord := word &&& 0xFFF8000000000000, phases := ps } fun l =>
        { l with word := word &&& 0xFFF8000000000000, phases := ps }).doneTo port)) ∧
    ((∃ p ∈ ps, bitsOf word 63 59 < p.toNat) → exec (.lamplighterWrite port word phases) s = .next (s.refuseTo port 0))) ∧
  (∀ port slot s, Owns s port → slot < 4096 → Completes (.keyErase port slot) s fun u =>
    find slot u.keys = none ∧ ∀ k, k ≠ slot → find k u.keys = find k s.keys) ∧
  (∀ port slot wrapped key k s, Owns s port → slot < 4096 → (vget { } s.ports port).session = some key →
    Config.unwrapKey key wrapped = some k → (slot < 256 → s.rights = true) →
    exec (.keyLoad port slot wrapped) s = .next (({ s with keys := insertAt slot k s.keys } : State).doneTo port)) ∧
  (∀ port stack index w0 w1 s, Owns s port → stack < 4 → index < 64 →
    let old := look (0, 0) (stack * 64 + index) s.regions
    let touches := fun (f : Nat × Nat) => regionCovers w0 w1 f.1 f.2 = true ∨ regionCovers old.1 old.2 f.1 f.2 = true
    (bitsOf w0 60 59 < 2 → (∀ f ∈ s.inFlight, ¬ touches f) → exec (.regionWrite port stack index w0 w1) s = .next (({ s with
      regions := insertAt (stack * 64 + index) (w0 &&& 0xF800000FFFFFFFFF, w1 &&& 0xFFFFFFFFF) s.regions } : State).doneTo port)) ∧
    ((2 ≤ bitsOf w0 60 59 ∨ ∃ f ∈ s.inFlight, touches f) →
      exec (.regionWrite port stack index w0 w1) s = .next (s.refuseTo port 0))) ∧
  (∀ port routes parent hops s, Owns s port → exec (.routeWrite port routes parent hops) s =
    .next ((State.onWriting { s with routes := routes, parent := parent, hops := hops } fun l =>
      { l with routes := routes, parent := parent, hops := hops }).doneTo port)) ∧
  (∀ port g secure s, Owns s port →
    (g < Config.tiles → s.idle g = true → (s.tile g).saved = none → exec (.worldAssign port (.tile g) secure) s =
      .next ((s.onTile g fun x => { x with secure := secure }).doneTo port)) ∧
    ((Config.tiles ≤ g ∨ s.idle g = false ∨ (s.tile g).saved ≠ none) →
      exec (.worldAssign port (.tile g) secure) s = .next (s.refuseTo port 0))) ∧
  (∀ port p secure s, Owns s port → p < 2 → Completes (.worldAssign port (.port p) secure) s fun u =>
    (vget { } u.ports p).secure = secure ∧ u.tiles = s.tiles ∧ ∀ q, q ≠ p → vget { } u.ports q = vget { } s.ports q) ∧
  (∀ port bits s, Owns s port → Completes (.serviceClear port bits) s fun u =>
    u.svc = s.svc &&& ~~~(bits &&& ~~~s.svcNew) ∧ u.tiles = s.tiles ∧ u.log = s.log) ∧
  (∀ port root lo hi, OwnersOnly (.tableCacheInvalidate port root lo hi) port) ∧
  (∀ port lo hi, OwnersOnly (.writerTagClear port lo hi) port) ∧
  (∀ port word phases, OwnersOnly (.lamplighterWrite port word phases) port) ∧
  (∀ port slot, slot < 4096 → OwnersOnly (.keyErase port slot) port) ∧
  (∀ port slot wrapped, slot < 4096 → OwnersOnly (.keyLoad port slot wrapped) port) ∧
  (∀ port stack index w0 w1, stack < 4 → index < 64 → OwnersOnly (.regionWrite port stack index w0 w1) port) ∧
  (∀ port routes parent hops, OwnersOnly (.routeWrite port routes parent hops) port) ∧
  (∀ port which secure, OwnersOnly (.worldAssign port which secure) port) ∧
  (∀ port bits, OwnersOnly (.serviceClear port bits) port) ∧
  (∀ (s : State) source code place detail, ({ s.logIt source code place detail with log := s.log, overwritten := s.overwritten } : State) = s) ∧
  (∀ (s : State) port m, s.tell port m = { s with told := s.told ++ [(port, m)] })

/-- Attestation and ownership (R355 to R358), reset by the owner (R349). Of two claims on one cycle port 0's wins (log entry 47). That signatures
are Ed448 of RFC 8032 over a digest of 64 bytes, and that keys of sessions and the PUF's value are opaque, are the model's (log entry 8). -/
def Obligations.OwnershipSteps : Prop :=
  (∀ port key sig r sec s, port < 2 → s.boot = .ready → s.heard port = true → s.record = some r → r.keys.find? (fun k => k.1 == key) = some (key, sec) →
    ed448Valid key s.claimText sig = true →
    (s.owner = none → Completes (.claim port key sig) s fun u => u.owner = some port ∧ u.ownerSecure = sec ∧
      u.handover = none ∧ u.commander = s.commander ∧ u.rights = s.rights ∧ u.tiles = s.tiles) ∧
    (∀ o, s.owner = some o → s.handover = none → (vget { } s.ports o).lossTold = false → ¬ (o = 1 ∧ port = 0 ∧ ∃ b, s.ownerWas = some (s.pcc, none, b)) →
      exec (.claim port key sig) s = .next (s.refuseTo port 2)) ∧
    (∀ o c, s.owner = some o → o ≠ port → s.handover = some (key, c) → s.pcc < c →
      Completes (.claim port key sig) s fun u => u.owner = some port ∧ u.handover = none ∧ u.commander = s.commander)) ∧
  (∀ port key sig r s, port < 2 → s.boot = .ready → s.heard port = true → s.record = some r →
    r.keys.find? (fun k => k.1 == key) = none → exec (.claim port key sig) s = .next (s.refuseTo port 1)) ∧
  (∀ port key sig r s, port < 2 → s.boot = .ready → s.heard port = false → s.record = some r →
    exec (.claim port key sig) s = .next (s.logIt 5 3 port 0)) ∧
  (∀ port key s, Owns s port →
    exec (.handover port key) s = .next (({ s with handover := some (key, s.pcc + 1750000000) } : State).doneTo port)) ∧
  (∀ key c s, s.handover = some (key, c) →
    (c ≤ s.pcc → exec .handoverTimeout s = .next { s with handover := none }) ∧
    (s.pcc < c → exec .handoverTimeout s = .next s)) ∧
  (∀ o c s, s.owner = some o → o < 2 → (vget { } s.ports o).up = false → (vget { } s.ports o).lossTold = false →
    (vget { } s.ports o).lostAt = some c → c + 3500000000 ≤ s.pcc → Completes .ownerLinkLossTimeout s fun u =>
      (vget { } u.ports o).lossTold = true ∧ (1 - o, Told.warning 5 o) ∈ u.told ∧ u.owner = some o ∧ u.tiles = s.tiles) ∧
  (∀ port s, Owns s port → exec (.packageReset port) s = .next (State.resets
    { (s.launches.filter fun e => !e.2.state.final).foldl (fun s e => s.endLaunch e.1 .cancelled 0) s with resetting := true })) ∧
  (∀ s : State, s.resetting = true →
    ((∀ e ∈ s.launches, e.2.state.final = true) → s.resets.boot = .off ∧ s.resets.tiles = [] ∧ s.resets.mem = [] ∧
      s.resets.launches = [] ∧ s.resets.owner = none) ∧
    ((∃ e ∈ s.launches, e.2.state.final = false) → s.resets = s)) ∧
  (∀ port nonce r s, port < 2 → s.boot = .ready → s.record = some r → (vget { } s.ports port).up = true →
    Completes (.quoteRequest port nonce) s fun u =>
      (vget { } u.ports port).session = some (Config.sessionKey s.wakes port nonce) ∧ u.tiles = s.tiles ∧
      (port, Told.quote [leNat (s.quoteBytes port nonce),
        ed448Sign (identitySeed s.wakes r) (digestBytes (s.quoteBytes port nonce))]) ∈ u.told)

/-- Lantern ports (R359, R360) and the throttle command (R333, R334, R357). The class and code numbers 5 3 and 5 1 of the log, and the refusal code 0,
are the model's choices (log entry 112), and that a floor outside 1 to 8 is clamped (log entry 121). -/
def Obligations.LanternSteps : Prop :=
  (∀ port s, port < 2 → s.boot = .ready → (vget { } s.ports port).up = true → Completes (.lanternLinkLoss port) s fun u =>
    (vget { } u.ports port).up = false ∧ (vget { } u.ports port).lostAt = some s.pcc ∧ u.svc = s.svc ||| BitVec.twoPow 8 2 ∧
    u.owner = s.owner ∧ u.tiles = s.tiles) ∧
  (∀ port s, port < 2 → s.boot ≠ .off → Completes (.lanternLinkReturn port) s fun u =>
    (vget { } u.ports port).up = true ∧ (vget { } u.ports port).lostAt = none ∧ u.owner = s.owner ∧ u.tiles = s.tiles) ∧
  (∀ port message use s, port < 2 → s.boot = .ready →
    (s.heard port = false ∨ ∀ k, (vget { } s.ports port).session = some k → Config.gcmValid k message = false) →
    exec (.lanternMessage port message use) s = .next (s.logIt 5 3 port 0)) ∧
  (∀ port message k s, port < 2 → s.boot = .ready → s.heard port = true → (vget { } s.ports port).session = some k →
    Config.gcmValid k message = true →
    (s.commander = some port → exec (.lanternMessage port message .command) s = .next s) ∧
    (s.commander ≠ some port → exec (.lanternMessage port message .command) s =
      .next (((s.logIt 5 1 port 0).tell port (.refused 0)).tell (1 - port) (.warning 5 port))) ∧
    (∀ islands c m v k', (s.commander = some port → exec (.lanternMessage port message (.throttle islands c m v k')) s =
        .next ((s.throttleAll islands #v[c, m, v, k']).doneTo port)) ∧
      (s.commander ≠ some port → exec (.lanternMessage port message (.throttle islands c m v k')) s =
        .next (((s.logIt 5 1 port 0).tell port (.refused 0)).tell (1 - port) (.warning 5 port)))) ∧
    exec (.lanternMessage port message .service) s = .next (s.tell port (.words [s.svc.toNat])) ∧
    exec (.lanternMessage port message .log) s =
      .next (s.tell port (.bytes (leBytes 4 s.overwritten ++ s.log.flatMap LogRec.bytes))) ∧
    exec (.lanternMessage port message .other) s = .next s) ∧
  (∀ islands (floors : Vector (BitVec 4) 4) i (s : State), i < Config.islands → let u := s.throttleAll islands floors
    (i ∈ islands → (u.island i).throttle = (floors.map fun f => max 1 (min 8 f.toNat)) ∧ (u.island i).floors = (s.island i).floors ∧
      ∀ t, t / 16 = i → (s.tile t).noticed = true → (t, (u.island i).floorNotice, s.pcc) ∈ u.notices) ∧
    (i ∉ islands → u.island i = s.island i) ∧ u.tiles = s.tiles ∧ u.delivered = s.delivered) ∧
  (∀ port sec ns s, port < 2 → s.boot = .ready → s.owner = some port → ns < 1000000000 →
    let now : Nat := sec % 2 ^ 34 * 1000000000 + ns
    let off := (now : Int) - (s.ptpNs : Int)
    (1000 < off.natAbs → exec (.ptpMessage port sec ns) s = .next { s with ptpNs := now, ptpFrac := 0, ptpSlew := 0 }) ∧
    (off.natAbs ≤ 1000 → exec (.ptpMessage port sec ns) s = .next { s with ptpSlew := off })) ∧
  (∀ port base size node s, Owns s port → s.windows.length < 64 → 0 < size → base + size ≤ 2 ^ 36 →
    exec (.hostWindowOpen port base size node) s =
      .next (({ s with windows := s.windows ++ [(base, size, node)] } : State).doneTo port)) ∧
  (∀ port base size node s, Owns s port → 64 ≤ s.windows.length →
    exec (.hostWindowOpen port base size node) s = .next (s.refuseTo port 0))

/-- Power and boot (R349 to R354). The order in which a firmware image's failures are looked for, and the bytes that are signed, are the
model's choices (log entries 46, 94), as is that a signature is Ed448 of RFC 8032 over a digest of 64 bytes (log entry 8). -/
def Obligations.BootSteps : Prop :=
  (∀ on record s, wakingPort on < 2 → (s.boot = .off ∨ ∃ c, s.boot = .failed c) →
    let w := wakingPort on
    let good := ed448Valid Config.vendorKey (digestBytes (recordBytes record)) record.sig
    let same := ed448Public (identitySeed (s.wakes + 1) record) = record.identity
    (∀ o, Completes (.wakePattern on o false) s fun u => u.boot = .failed 0x81 ∧ (w, Told.boot 0x81) ∈ u.told) ∧
    Completes (.wakePattern on none true) s (fun u => u.boot = .failed 0x82 ∧ (w, Told.boot 0x82) ∈ u.told) ∧
    ((8 < record.keys.length ∨ good = false) →
      Completes (.wakePattern on (some record) true) s fun u => u.boot = .failed 0x82 ∧ (w, Told.boot 0x82) ∈ u.told) ∧
    (record.keys.length ≤ 8 → good = true → Config.recordVersion record.version = false →
      Completes (.wakePattern on (some record) true) s fun u => u.boot = .failed 0x83 ∧ (w, Told.boot 0x83) ∈ u.told) ∧
    (record.keys.length ≤ 8 → good = true → Config.recordVersion record.version = true →
      (¬ same → Completes (.wakePattern on (some record) true) s fun u =>
        u.boot = .failed 0x84 ∧ (w, Told.boot 0x84) ∈ u.told) ∧
      (same → Completes (.wakePattern on (some record) true) s fun u =>
          u.boot = .firmware ∧ u.waking = w ∧ u.record = some record ∧ u.tiles = [] ∧ u.mem = [] ∧ u.launches = [] ∧
          u.owner = none ∧ u.told = s.told ++ [(w, .boot 1), (w, .boot 2), (w, .boot 3)]))) ∧
  (∀ port (fw : Firmware) found s, port < 2 → s.boot = .firmware →
    ((vget { } s.ports port).up = false ∨ (port ≠ s.waking ∧ s.pushRefused = false)) → exec (.firmwarePush port fw found) s = .next s) ∧
  (∀ code (s : State), (s.waking, Told.boot code) ∈ (s.bootCode code).told ∧ (s.bootCode code).boot = s.boot ∧
    (s.log.length < 4096 → ∃ r, (s.bootCode code).log = s.log ++ [r] ∧ r.code = code ∧ r.pcc = s.pcc)) ∧
  (∀ port (fw : Firmware) found r s, port < 2 → s.boot = .firmware → s.record = some r →
    (vget { } s.ports port).up = true → (port = s.waking ∨ s.pushRefused = true) →
    let good := ed448Valid Config.vendorKey (digestBytes (firmwareBytes fw)) fw.sig
    (good = false → exec (.firmwarePush port fw found) s = .next { s.bootCode 0x85 with pushRefused := true }) ∧
    (good = true → fw.version < r.minFirmware → exec (.firmwarePush port fw found) s = .next { s.bootCode 0x86 with pushRefused := true }) ∧
    (good = true → r.minFirmware ≤ fw.version → 0x1000000 < fw.image.length →
      exec (.firmwarePush port fw found) s = .next { s.bootCode 0x87 with pushRefused := true }) ∧
    (good = true → r.minFirmware ≤ fw.version → fw.image.length ≤ 0x1000000 → Completes (.firmwarePush port fw found) s fun u =>
      u.boot = .ready ∧ u.firmware = some fw ∧ u.badVaults = found.vaults.filter (· < Config.tiles) ∧
      u.badTiles = found.tiles.filter (· < Config.tiles) ∧ u.capacity = min maxCapacity found.capacity ∧
      (∀ t ∈ found.vaults, t < Config.tiles → (u.tile t).vault.failed = true) ∧
      ∀ k, k < 16 → (vget { up := false } u.links k).up = !(found.links.filter (· < 16)).contains k)) ∧
  (∀ c s, s.boot = .failed c →
    ((∀ p ∈ s.ports.toList, p.up = false ∧ ∀ c, p.lostAt = some c → c + 1750000000 ≤ s.pcc) →
      exec .lightRemovalTimeout s = .next s.powerOff) ∧
    ((∃ p ∈ s.ports.toList, p.up = true) → exec .lightRemovalTimeout s = .next s))

/-- Accesses from outside (R262, R317, R360, R370) and MX links (R367, R368). The model's choices in it: that a session is secure where both its
node's rights and its port's world are (log entry 90); that root 0 is a window on physical addresses, bit 52 of which is the tier (log
entry 9); that accesses from outside go by the tables of stack 0 (log entry 67); that an arriving line belongs to the first running pod launch
with its channel, at its sequence number modulo the window's lines (log entry 59); where the windows of other members lie (log entry
110); and what of a flit the manual leaves open (log entry 111). -/
def Obligations.OutsideAccessSteps : Prop :=
  (∀ port root va bytes s, Owns s port → root ≠ 0 → va < 2 ^ 53 →
    (∀ e, s.outsideFault root (s.secureSession port) true va bytes.length = some e →
      exec (.nodeWindowWrite port root va bytes) s = .next (s.refuseTo port e)) ∧
    (s.outsideFault root (s.secureSession port) true va bytes.length = none →
      exec (.nodeWindowWrite port root va bytes) s =
        .next ((s.outsideWrite root (s.secureSession port) va bytes).reportDone port))) ∧
  (∀ port va bytes s, Owns s port → va < 2 ^ 53 → let a := physOf va
    (s.inTables a.1 a.2 bytes.length = true → s.hidden port a.1 a.2 bytes.length = false →
      exec (.nodeWindowWrite port 0 va bytes) s = .next ((s.writeRaw a.1 a.2 bytes).reportDone port)) ∧
    ((s.inTables a.1 a.2 bytes.length = false ∨ s.hidden port a.1 a.2 bytes.length = true) →
      exec (.nodeWindowWrite port 0 va bytes) s = .next (s.refuseTo port 0x24))) ∧
  (∀ port root va n s, Owns s port → root ≠ 0 → va < 2 ^ 53 →
    (∀ e, s.outsideFault root (s.secureSession port) false va n = some e →
      exec (.nodeWindowRead port root va n) s = .next (s.refuseTo port e)) ∧
    (s.outsideFault root (s.secureSession port) false va n = none → Completes (.nodeWindowRead port root va n) s fun u =>
      u.told = s.told ++ [(port, .bytes (s.outsideRead root (s.secureSession port) va n))] ∧ u.tiles = s.tiles ∧ u.mem = s.mem)) ∧
  (∀ port va n s, Owns s port → va < 2 ^ 53 → let a := physOf va
    (s.inTables a.1 a.2 n = true → s.hidden port a.1 a.2 n = false →
      exec (.nodeWindowRead port 0 va n) s = .next (s.tell port (.bytes (s.readRaw a.1 a.2 n)))) ∧
    ((s.inTables a.1 a.2 n = false ∨ s.hidden port a.1 a.2 n = true) →
      exec (.nodeWindowRead port 0 va n) s = .next (s.refuseTo port 0x24))) ∧
  (∀ port base root s, Owns s port →
    exec (.apertureOpen port base root) s = .next (({ s with aperture := some (base, root) } : State).doneTo port)) ∧
  (∀ root va n bytes s, s.boot = .ready →
    (s.outsideFault root false false va n = none → Completes (.peerAccess (.read root va n)) s fun u =>
      u.told = s.told ++ [(2, .bytes (s.outsideRead root false va n))] ∧ u.mem = s.mem) ∧
    (∀ e, s.outsideFault root false false va n = some e → exec (.peerAccess (.read root va n)) s = .next (s.peerRefused e)) ∧
    (s.outsideFault root false true va bytes.length = none → exec (.peerAccess (.write root va bytes)) s =
      .next ((s.outsideWrite root false va bytes).tell 2 .done)) ∧
    (∀ e, s.outsideFault root false true va bytes.length = some e →
      exec (.peerAccess (.write root va bytes)) s = .next (s.peerRefused e)) ∧
    (∀ base, s.aperture = some (base, root) → base ≤ va → va + n ≤ base + 2 ^ 55 →
      (∀ bs, s.apertureRead root (va - base) n = .ok bs → exec (.peerAccess (.apertureRead va n)) s =
        .next (s.tell 2 (.bytes bs)).nextFree) ∧
      (∀ e, s.apertureRead root (va - base) n = .error e →
        exec (.peerAccess (.apertureRead va n)) s = .next (s.peerRefused e))) ∧
    exec (.peerAccess (.apertureWrite va)) s = .next (s.peerRefused 0x21)) ∧
  (∀ link s, link < 16 → s.boot = .ready → (vget { } s.links link).up = true → Completes (.linkLockLoss link) s fun u =>
    (vget { } u.links link).up = false ∧ u.svc = s.svc ||| BitVec.twoPow 8 3 ∧ u.tiles = s.tiles) ∧
  (∀ port link s, Owns s port → link < 16 → (vget { } s.links link).up = false → Completes (.linkUpCommand port link) s fun u =>
    (vget { } u.links link).up = false ∧ (vget { } u.links link).retrain = some s.pcc ∧ u.tiles = s.tiles) ∧
  (∀ link c s, link < 16 → (vget { } s.links link).up = false → (vget { } s.links link).retrain = some c →
    Completes (.linkRetrainComplete link) s fun u => (vget { } u.links link).up = true ∧ u.tiles = s.tiles) ∧
  (∀ kind dest chan seq payload use, kind < 16 → dest < 65536 → chan < 4096 → seq < 2 ^ 32 →
    let f := flitOf kind dest chan seq payload use
    f.kind = kind ∧ f.dest = dest ∧ f.channel = chan ∧ f.sequence = seq ∧ f.bytes.length = 80 ∧
    f.bytes = leBytes 8 (kind * 2 ^ 60 + dest * 2 ^ 44 + chan * 2 ^ 32 + seq) ++ (payload ++ List.replicate 64 0).take 64
      ++ leBytes 8 (crc64 (f.bytes.take 72)).toNat) ∧
  (∀ link flit ok s, link < 16 → s.boot = .ready → (vget { } s.links link).up = true →
    (ok = false ∨ crc64 flit.covered ≠ flit.crc) → exec (.mxFlitReceive link flit ok) s = .next (s.linkFails link)) ∧
  (∀ link flit s, link < 16 → s.boot = .ready → (vget { } s.links link).up = true → crc64 flit.covered = flit.crc →
    (∀ out, s.linkTo flit.dest = some out →
      (1 ≤ flit.kind → flit.kind ≤ 3 → exec (.mxFlitReceive link flit true) s = .next (s.sendFlit out flit)) ∧
      ((flit.kind = 0 ∨ 4 ≤ flit.kind) → exec (.mxFlitReceive link flit true) s = .next s)) ∧
    (s.linkTo flit.dest = none →
      ((flit.kind = 0 ∨ 4 ≤ flit.kind) → exec (.mxFlitReceive link flit true) s = .next s) ∧
      (∀ op, flit.kind = 3 → flit.means = .peer op → exec (.mxFlitReceive link flit true) s = exec (.peerAccess op) s) ∧
      (∀ bs, flit.kind = 3 → flit.means = .bytes bs → exec (.mxFlitReceive link flit true) s = .next (s.tellOwner (.bytes bs))) ∧
      (∀ code, flit.kind = 3 → flit.means = .refused code →
        exec (.mxFlitReceive link flit true) s = .next (s.tellOwner (.refused code))) ∧
      (flit.kind = 3 → flit.means = .done → exec (.mxFlitReceive link flit true) s = .next (s.tellOwner .done)) ∧
      (∀ serial level rank what, flit.kind = 2 → flit.means = .barrier serial level rank what → level < 8 →
        exec (.mxFlitReceive link flit true) s = exec (.barrierMessage serial level what rank) s) ∧
      (∀ serial e, flit.kind = 1 → s.podChannel flit.channel = some (serial, e) →
        Completes (.mxFlitReceive link flit true) s fun u => u.tiles = s.tiles ∧ u.lines = s.lines ++
          [{ seq := s.nextId, src := Config.tiles, serial := serial, chan := flit.channel, line := flit.sequence % e.lines
             bytes := (flit.payload ++ List.replicate 64 0).take 64, due := s.pcc, link := none }]))) ∧
  (∀ out flit (s : State), ((vget { up := false } s.links out).up = true → s.sendFlit out flit = s.tell (3 + out) (.flit flit)) ∧
    ((vget { up := false } s.links out).up = false → s.sendFlit out flit = s)) ∧
  (∀ port root va bytes n s, Owns s port → 2 ^ 53 ≤ va → let rank := va / 2 ^ 53 - 1
    let sent := fun op => s.tell (3 + (s.linkTo rank).getD 0) (.flit (flitOf 3 rank 0 0 [] (.peer op)))
    ((∃ k, s.linkTo rank = some k ∧ (vget { up := false } s.links k).up = true) →
      exec (.nodeWindowWrite port root va bytes) s = .next (sent (.write root (va % 2 ^ 53) bytes)) ∧
      exec (.nodeWindowRead port root va n) s = .next (sent (.read root (va % 2 ^ 53) n))) ∧
    ((∀ k, s.linkTo rank = some k → (vget { up := false } s.links k).up = false) →
      exec (.nodeWindowWrite port root va bytes) s = .next (s.refuseTo port 0) ∧
      exec (.nodeWindowRead port root va n) s = .next (s.refuseTo port 0)))

/-- Refresh and sensors (R174 to R180). Readings are in quarter degrees, which is presumed (log entry 65): 308, 320, 348, 360 and 400 stand for 77,
80, 87, 90 and 100 °C, 8 and 16 for 2 and 4 °C. That a reading falls two classes at once is the model's choice (log entry 45). -/
def Obligations.VaultUpkeepSteps : Prop :=
  (∀ t b s, t < Config.tiles → b < 31 → s.isDue t b = true → ((s.tile t).owns b = true ∨ (s.tile t).keeps b = true) →
    Completes (.refreshDuePoint t b) s fun u =>
      (vget { } (u.tile t).vault.banks b).owed = (vget { } (s.tile t).vault.banks b).owed + 1 ∧
      (∀ c, c ≠ b → vget { } (u.tile t).vault.banks c = vget { } (s.tile t).vault.banks c) ∧
      (u.tile t).vault.deficit = (if (vget { } (s.tile t).vault.banks b).owed + 1 ≥ 9 ∧ (s.tile t).owns b = true ∧
        (s.tile t).vault.keeper = false then (s.tile t).vault.deficit ++ [b] else (s.tile t).vault.deficit) ∧
      (u.tile t).regs = (s.tile t).regs ∧ u.mem = s.mem) ∧
  (∀ t b s, t < Config.tiles → b < 31 → (s.tile t).keeps b = true → s.turnAhead t = false → (s.tile t).channelBusy (s.icc t) = false →
    (((vget { } (s.tile t).vault.banks b).opened = true ∧
      ∀ e ∈ constraints (s.tile t).vault (s.icc t) .pre b, e.need ≤ e.age) → Completes (.sequencerRefresh t b) s fun u =>
        (vget { } (u.tile t).vault.banks b).opened = false ∧ u.mem = s.mem) ∧
    (((vget { } (s.tile t).vault.banks b).opened = false ∧ -8 < (vget { } (s.tile t).vault.banks b).owed ∧
      ∀ e ∈ constraints (s.tile t).vault (s.icc t) .refpb b, e.need ≤ e.age) → Completes (.sequencerRefresh t b) s fun u =>
        (vget { } (u.tile t).vault.banks b).owed = (vget { } (s.tile t).vault.banks b).owed - 1 ∧
        (vget { } (u.tile t).vault.banks b).rptr = (vget { } (s.tile t).vault.banks b).rptr + 1 ∧ u.mem = s.mem)) ∧
  (∀ t n (r : Int) s, t < Config.tiles → n < 4 → (vget { } (s.tile t).vault.layers n).sfail = false →
    let l := vget { } (s.tile t).vault.layers n
    let valid := -80 ≤ r ∧ r ≤ 520 ∧ (∀ o, l.reading = some o → (r - o).natAbs ≤ 8) ∧
      ¬ (l.reading = some r ∧ stuckAt (s.lcc t (1 + n) - l.stillSince) l.compute (s.island (t / 16)).reading = true)
    (valid → Completes (.vaultSensorRead t n (some r)) s fun u =>
      (vget { } (u.tile t).vault.layers n).reading = some r ∧ (vget { } (u.tile t).vault.layers n).warn = warnOf r ∧
      (vget { } (u.tile t).vault.layers n).pend = classOf l.pend r ∧ (vget { } (u.tile t).vault.layers n).suspect = l.suspect ∧
      (400 ≤ r → u.svc = s.svc ||| BitVec.twoPow 8 0) ∧ (r < 400 → u.svc = s.svc)) ∧
    (¬ valid → Completes (.vaultSensorRead t n (some r)) s fun u =>
      (vget { } (u.tile t).vault.layers n).reading = some r ∧ (vget { } (u.tile t).vault.layers n).suspect = true ∧
      (vget { } (u.tile t).vault.layers n).warn = l.warn ∧ (vget { } (u.tile t).vault.layers n).pend = l.pend ∧ u.svc = s.svc) ∧
    Completes (.vaultSensorRead t n none) s (fun u =>
      (vget { } (u.tile t).vault.layers n).reading = l.reading ∧ (vget { } (u.tile t).vault.layers n).pend = l.pend ∧ u.svc = s.svc ∧
      (vget { } (u.tile t).vault.layers n).suspect = (l.suspect || decide (175000 ≤ s.lcc t (1 + n) - l.readAt)))) ∧
  (∀ t n r s, t < Config.tiles → n < 4 → (vget { } (s.tile t).vault.layers n).sfail = true →
    exec (.vaultSensorRead t n r) s = .next s) ∧
  (∀ still a b, stuckAt still a b = true ↔ 175000000 ≤ still ∧ ∃ x y, a = some x ∧ b = some y ∧ 16 ≤ (y - x).natAbs) ∧
  (∀ t n s, t < Config.tiles → n < 4 → (vget { } (s.tile t).vault.layers n).suspect = true →
    (vget { } (s.tile t).vault.layers n).sfail = false → Completes (.sensorFailureReport (.layer t n)) s fun u =>
      (vget { } (u.tile t).vault.layers n).sfail = true ∧ (vget { } (u.tile t).vault.layers n).pend.toNat ≥ 2 ∧
      (u.tile t).sys.sfail = true ∧ u.svc = s.svc ||| BitVec.twoPow 8 4) ∧
  (∀ i s, i < Config.islands → (s.island i).suspect = true → (s.island i).failed = false →
    Completes (.sensorFailureReport (.compute i)) s fun u => (u.island i).failed = true ∧ u.svc = s.svc ||| BitVec.twoPow 8 4) ∧
  (∀ t n c p s, t < Config.tiles → n < 4 → (vget { } (s.tile t).vault.layers n).leads = [(c, p)] →
    (vget { } (s.tile t).vault.layers n).app.toNat < p.toNat → c ≤ s.lcc t (1 + n) →
    Completes (.classLeadExpiry t n) s fun u => (vget { } (u.tile t).vault.layers n).app = p ∧
      (vget { } (u.tile t).vault.layers n).leads = [] ∧ (u.tile t).regs = (s.tile t).regs) ∧
  (∀ (c : BitVec 2) (r : Int), c.toNat ≤ 2 → (360 ≤ r → classOf c r = 2) ∧ (r < 308 → classOf c r = 0) ∧
    (classOf 0 320 = 1 ∧ classOf 1 319 = 1 ∧ classOf 2 348 = 2 ∧ classOf 2 347 = 1))

/-- Sensors and failures of the package (R185, R347, R348, R371, R375, R376). Readings are in quarter degrees, and a base-die sensor is read by
COMPUTE_SENSOR_READ: the unit and the interface are presumed (log entry 65), so that 460, 420, 380 and base + 40 stand for 115 °C, 105 °C,
95 °C and 10 °C more than the base die. The classes and codes of the warnings and of the log are the model's choices (log entry 112). That a
launch all of whose tasks are suspended fails at once when a vault with a context of it fails is read from R376, which speaks of the end of
its other tasks (log entry 64). -/
def Obligations.PackageFailureSteps : Prop :=
  (∀ i (r : Int) s, i < Config.islands → s.boot = .ready → (s.island i).failed = false →
    (460 ≤ r → 1 ≤ (s.island i).hot → Completes (.computeSensorRead (.compute i) (some r)) s fun u =>
      u.boot = .off ∧ u.tiles = [] ∧ ∀ p, p < 2 → (vget { } s.ports p).up = true → (p, Told.warning 2 i) ∈ u.told) ∧
    (460 ≤ r → (s.island i).hot = 0 → Completes (.computeSensorRead (.compute i) (some r)) s fun u =>
      u.boot = .ready ∧ (u.island i).hot = 1 ∧ (u.island i).reading = some r ∧ u.tiles = s.tiles ∧
      u.svc = s.svc ||| BitVec.twoPow 8 0 ∧ ∀ p, s.owner = some p → (p, Told.warning 105 i) ∈ u.told) ∧
    (r < 460 → Completes (.computeSensorRead (.compute i) (some r)) s fun u =>
      (u.island i).reading = some r ∧ (u.island i).hot = 0 ∧ u.tiles = s.tiles ∧
      (420 ≤ r → u.svc = s.svc ||| BitVec.twoPow 8 0 ∧ ∀ p, s.owner = some p → u.told = s.told ++ [(p, .warning 105 i)]) ∧
      (380 ≤ r → r < 420 → u.svc = s.svc ||| BitVec.twoPow 8 0 ∧ ∀ p, s.owner = some p → u.told = s.told ++ [(p, .warning 95 i)]) ∧
      (r < 380 → u.svc = s.svc ∧ u.told = s.told))) ∧
  (∀ i (b : Int) r s, i < Config.islands → s.boot = .ready → (s.island i).failed = true →
    find (stackOfIsland i) s.baseDie = some b → b + 40 < 460 → Completes (.computeSensorRead (.compute i) r) s fun u =>
      (u.island i).reading = some (b + 40) ∧ u.tiles = s.tiles) ∧
  (∀ k r s, k < 4 → s.boot = .ready → Completes (.computeSensorRead (.base k) r) s fun u =>
    find k u.baseDie = r ∧ (∀ j, j ≠ k → find j u.baseDie = find j s.baseDie) ∧ u.tiles = s.tiles ∧ u.isl = s.isl) ∧
  (∀ n r s, s.boot = .ready → s.record = some r → let units := if r.cxl then 4 else 24
    (n < units → n ∉ s.unitsDown → Completes (.secondTierDown n) s fun u =>
      u.unitsDown = s.unitsDown ++ [n] ∧ u.svc = s.svc ||| BitVec.twoPow 8 1 ∧ u.tiles = s.tiles) ∧
    ((units ≤ n ∨ n ∈ s.unitsDown) → exec (.secondTierDown n) s = .next s)) ∧
  (∀ t k s, t < Config.tiles → s.boot = .ready → (s.tile t).vault.failed = false → (s.tile t).saved = some k →
    let marked : State := { (s.onVault t fun v => { v with failed := true }).reportFault 6 10 0x15 t with badVaults := s.badVaults ++ [t] }
    let s' := if (s.tile t).task.isSome then
        marked.found t { trapOf 0xE 0x15 with word := constraintWord 0x16 0 0 0 0 0 0 0 0 } else marked
    (s.launch k.serial = none → exec (.vaultFailure t) s = .next s') ∧
    (∀ l, s.launch k.serial = some l → (∀ v ∈ l.tiles, (s.tile v).runs k.serial = false) →
      exec (.vaultFailure t) s = .next (s'.endLaunch k.serial .failed 0x15)) ∧
    (∀ l, s.launch k.serial = some l → (∃ v ∈ l.tiles, (s.tile v).runs k.serial = true) → exec (.vaultFailure t) s =
      .next ((((s'.onTile t Tile.discard).onLaunch k.serial fun l =>
        { l with stops := l.stops ++ [k.role], code := if l.code = 0 then 0x15 else l.code }).roleLost k.serial k.role).finish k.serial))) ∧
  (∀ t s, t < Config.tiles → s.boot = .ready → (s.tile t).vault.failed = true → exec (.vaultFailure t) s = .next s) ∧
  (∀ t s, t < Config.tiles → s.boot = .ready → (s.tile t).vault.failed = false → (s.tile t).saved = none →
    Completes (.vaultFailure t) s fun u => (u.tile t).vault.failed = true ∧ u.badVaults = s.badVaults ++ [t] ∧
      u.svc = s.svc ||| BitVec.twoPow 8 6 ∧
      ((s.tile t).task ≠ none → ∃ f ∈ (u.tile t).seq.faults, f.1 = s.icc t + 1 ∧ f.2.code = 0x15 ∧ f.2.slot = 0xE)) ∧
  (∀ t n s, t < Config.tiles → n < 4 → s.boot = .ready → (vget { } (s.tile t).vault.layers n).lostShadow = false →
    Completes (.remapCopyLoss t n false) s fun u => (vget { } (u.tile t).vault.layers n).lostOwn = true ∧
      (u.tile t).vault.failed = (s.tile t).vault.failed ∧ u.svc = s.svc ||| BitVec.twoPow 8 5) ∧
  (∀ t n s, t < Config.tiles → n < 4 → s.boot = .ready → (vget { } (s.tile t).vault.layers n).lostShadow = true →
    exec (.remapCopyLoss t n false) s = .next (((s.onVault t fun v => { v with
      layers := vset v.layers n { vget { } v.layers n with lostOwn := true } }).reportFault 5 11 n (t * 4 + n)).failVault t) ∧
    ((s.tile t).saved = none → Completes (.remapCopyLoss t n false) s fun u => (u.tile t).vault.failed = true)) ∧
  (∀ i s, i < Config.islands → s.boot = .ready → (∀ c, (s.island i).stretchAt = some c → c + 16 ≤ s.icc (16 * i)) →
    Completes (.islandClockStretch i) s fun u => (u.island i).due = true ∧ (u.island i).stretchAt = some (s.icc (16 * i)) ∧
      u.tiles = s.tiles)

/-- Submissions (R319, R320), arbitration (R322, R323) and notices (R333, R334). -/
def Obligations.SubmissionSteps : Prop :=
  (∀ port disp sub s, Owns s port → disp < 4 → exec (.submission port disp sub) s = .next (s.submit port disp sub none)) ∧
  (∀ port disp sub start (s : State), let u := s.submit port disp sub start
    let l : Launch := { sub := sub, disp := disp, age := s.pcc, port := port, start := start }
    let code := lowest (s.acceptCodes { l with pver := s.versionFor l })
    u.serial = s.serial + 1 ∧ u.tiles = s.tiles ∧ (port, Told.serial s.serial) ∈ u.told ∧
    ∃ e, find s.serial u.launches = some e ∧ e.sub = sub ∧ e.code = code ∧ e.age = s.pcc ∧ e.start = start ∧
      (code = 0 → e.state = .queued) ∧ (code ≠ 0 → e.state = .refused ∧ (port, Told.refused code) ∈ u.told)) ∧
  (∀ s : State, s.boot = .ready →
    exec .arbitration s = .next (s.waiting.foldl (fun s e => s.consider e.1) { s with reserved := [] })) ∧
  (∀ serial l n v (s : State), s.launch serial = some l → l.state = .queued → s.replayLets l = true →
    s.selected l = some (n, v) → (∀ t ∈ tilesOf v, s.usable serial l t = true ∧ look serial t s.reserved = serial) →
    (s.evacuate l.own (tilesOf v)).isSome = true → s.consider serial = s.grantBinding serial (tilesOf v) n) ∧
  (∀ t s, t < Config.tiles → (s.tile t).noticed = true → ∀ n ∈ [Notice.pre, Notice.hold], ∀ e,
    s.notices.find? (fun e => e.1 == t && e.2.1 == n) = some e →
    exec (.noticeDelivery t n) s = .next { s with notices := s.notices.erase e, delivered := s.delivered ++ [(t, n)] }) ∧
  (∀ t (s : State), (s.tile t).noticed = true → ∀ n ∈ [Notice.pre, Notice.hold], (t, n) ∈ s.delivered →
    ((s.showNotices t).tile t).sys.pre = true) ∧
  (∀ t c m v k e s, t < Config.tiles → s.notices.find? (fun e => e.1 == t && e.2.1 == .thr c m v k) = some e →
    ((s.tile t).noticed = true → exec (.noticeDelivery t (.thr c m v k)) s = .next { s with
      notices := s.notices.erase e, delivered := s.delivered ++ [(t, (s.island (t / 16)).floorNotice)] })) ∧
  (∀ t n e s, t < Config.tiles → s.notices.find? (fun e => e.1 == t && e.2.1 == n) = some e → (s.tile t).noticed = false →
    exec (.noticeDelivery t n) s = .next { s with notices := s.notices.erase e }) ∧
  (∀ t n s, t < Config.tiles → s.notices.find? (fun e => e.1 == t && e.2.1 == n) = none → exec (.noticeDelivery t n) s = .next s) ∧
  (∀ (x : Island) a b c d, (∀ k, k < 4 → vget 1 x.throttle k < 16 ∧ vget 1 x.floors k < 16) → x.floorNotice = .thr a b c d →
    a.toNat = max (vget 1 x.throttle 0) (vget 1 x.floors 0) ∧ b.toNat = max (vget 1 x.throttle 1) (vget 1 x.floors 1) ∧
    c.toNat = max (vget 1 x.throttle 2) (vget 1 x.floors 2) ∧ d.toNat = max (vget 1 x.throttle 3) (vget 1 x.floors 3))

/-- Binding (R25, R320, R325, R326), the starts of gangs (R9), saved contexts (R335, R336, R339, R372) and checkpoint paths (R341). -/
def Obligations.BindingSteps : Prop :=
  (∀ serial l n v s' s, s.launch serial = some l → l.state = .binding → (∀ t ∈ l.tiles, (s.tile t).runs serial = false) →
    s.raised l.tiles = true → lowest (s.variantCodes l) = 0 → s.selected l = some (n, v) → s.evacuate l.own l.tiles = some s' →
    (tilesOf v = l.tiles →
      let l' : Launch := { l with variant := n, word := s.lampWord, phases := s.phases, routes := s.routes, parent := s.parent, hops := s.hops }
      let b := (List.range l'.roles).foldl (fun s r => s.bindRole serial l' v r) (s'.onLaunch serial fun _ => l')
      exec (.binding serial) s = .next ((b.notePointer serial l').traceBinding serial l')) ∧
    (tilesOf v ≠ l.tiles → exec (.binding serial) s =
      .next (s.onLaunch serial fun l => { l with state := .queued, tiles := [] }))) ∧
  (∀ serial l s, s.launch serial = some l → l.state = .binding → (∀ t ∈ l.tiles, (s.tile t).runs serial = false) →
    s.raised l.tiles = true →
    (lowest (s.variantCodes l) ≠ 0 → Completes (.binding serial) s fun u => u.tiles = s.tiles ∧
      (l.port, Told.refused (lowest (s.variantCodes l))) ∈ u.told ∧
      ∃ m, u.launch serial = some m ∧ m.state = .refused ∧ m.code = lowest (s.variantCodes l) ∧ m.tiles = []) ∧
    (lowest (s.variantCodes l) = 0 → s.evacuate l.own l.tiles = none → exec (.binding serial) s =
      .next (s.onLaunch serial fun l => { l with state := .queued, tiles := [], waiting := true }))) ∧
  (∀ serial (l : Launch) v role t (s : State), l.tiles[role]? = some t →
    let y := (s.bindRole serial l v role).tile t
    let stage := match s.imageOf l with | some im => im.stage | none => []
    let block := if l.blockNo = 0 then [] else [(l.blockBase, s.blockBytes l)]
    y.regs = { } ∧ y.eng = { } ∧ y.seq.phase = .starting ∧ y.seq.pc = v.start ∧
      y.sys = { sfail := (s.tile t).vault.layers.toList.any (·.sfail) } ∧ y.bar.epoch = 0 ∧
      y.st = (stage ++ block).foldl (fun m p => writeBytes m p.1 p.2) [] ∧
      ∃ k, y.task = some k ∧ k.serial = serial ∧ k.role = role ∧ k.record = l.sub.record) ∧
  (∀ serial island l s, island < Config.islands → s.launch serial = some l →
    let comes := fun (s : State) (t : Nat) => (s.tile t).runs serial
      && ((s.tile t).seq.phase == .starting || (s.tile t).seq.phase == .resuming)
    let here := (l.tiles.filter fun t => t / 16 == island).filter (comes s)
    here ≠ [] → (∀ t ∈ here, s.memberReady t = true) →
    (∀ t ∈ l.tiles, t / 16 = island → (s.tile t).saves serial = false) →
    let s' := here.foldl State.startMember s
    exec (.gangStart serial island) s = .next (s'.onLaunch serial fun m =>
      { m with state := m.afterStart (l.tiles.any (comes s')) (l.tiles.any fun t => (s'.tile t).saves serial)
               started := m.started ++ [island], granted := m.granted.filter (· != island) })) ∧
  (∀ t (s : State), let y := (s.startMember t).tile t
    y.seq.phase = .running ∧ y.seq.nextAt = s.icc t ∧ y.regs = (s.tile t).regs ∧ y.st = (s.tile t).st ∧
    ∀ u, u ≠ t → (s.startMember t).tile u = s.tile u) ∧
  (∀ t k s, t < Config.tiles → (s.tile t).task = some k → s.suspendReady t = true → ¬ (k.disp = true ∧ 2 ≤ k.cls ∧ k.holding = false) →
    ((s.tile t).saved = none → exec (.contextSave t) s = .next ((s.saveContext t k).settled k.serial)) ∧
    ((s.tile t).saved ≠ none → exec (.contextSave t) s = .next ((s.parkInPlace t).settled k.serial))) ∧
  (∀ t k (s : State), let u := s.saveContext t k
    (u.tile t).task = none ∧ (u.tile t).st = [] ∧ (u.tile t).regs = { } ∧ (u.tile t).savedOwn = k.own ∧
    (∃ k', (u.tile t).saved = some k' ∧ k'.serial = k.serial ∧ k'.role = k.role) ∧
    ∀ a, (a < rowAddr t 8 ∨ rowAddr t 8 + 2145 * 1024 ≤ a) → readByte u.mem a = readByte s.mem a) ∧
  (∀ t (s : State), let u := s.parkInPlace t
    (u.tile t).seq.phase = .suspended ∧ (u.tile t).inPlace = true ∧ (u.tile t).sys.pre = false ∧
    (u.tile t).regs = (s.tile t).regs ∧ (u.tile t).st = (s.tile t).st ∧ u.mem = s.mem) ∧
  (∀ t k v s, t < Config.tiles → (s.tile t).task = some k → s.variantOf k = some v → s.suspendReady t = true →
    k.disp = true → 2 ≤ k.cls → k.holding = false → Completes (.checkpointPathEntry t) s fun u =>
      (u.tile t).seq.pc = v.ckpt ∧ (u.tile t).seq.phase = .running ∧ (u.tile t).sys.pre = false ∧
      (u.tile t).sys.hnd = false ∧ (u.tile t).seq.loops = (s.tile t).seq.loops.map (fun _ => { }) ∧
      (u.tile t).regs = (s.tile t).regs ∧ (u.tile t).st = (s.tile t).st ∧ u.mem = s.mem ∧
      ∀ l, s.launch k.serial = some l → ∃ m, u.launch k.serial = some m ∧ m.ckpt = true) ∧
  (∀ serial island l s, island < Config.islands → s.launch serial = some l → l.state = .resuming → island ∈ l.granted →
    let here := l.tiles.filter fun t => t / 16 == island && (s.tile t).saves serial
    here ≠ [] → s.raised here = true →
    (∀ err ∈ [Ecc.clean, Ecc.corrected], Completes (.resume serial island err) s fun u =>
      (∀ t ∈ here, (u.tile t).saved = none ∧ (u.tile t).seq.phase = .resuming ∧ (u.tile t).runs serial = true) ∧
      ∀ t, t ∉ here → (u.tile t).regs = (s.tile t).regs ∧ (u.tile t).seq = (s.tile t).seq) ∧
    exec (.resume serial island .bad) s =
      .next ((s.reportFault 7 1 0x74 (here.headD 0)).endLaunch serial .failed 0x74))

/-- Held and failed launches (R281, R342 to R345). -/
def Obligations.HeldLaunchSteps : Prop :=
  (∀ port serial l s, Owns s port → s.launch serial = some l →
    ((l.state = .held ∧ ∀ t ∈ l.tiles, (s.tile t).runs serial = true → (s.tile t).seq.phase ≠ .trapping) →
      exec (.gangRestart port serial) s = .next ((s.restartGang serial l).doneTo port)) ∧
    (l.state ≠ .held → exec (.gangRestart port serial) s = .next (s.refuseTo port 0))) ∧
  (∀ serial l (s : State), let u := s.restartGang serial l
    u.mem = s.mem ∧
    (∀ t ∈ l.tiles, (s.tile t).runs serial = true → s.restarts t = true →
      (u.tile t).seq.phase = .resuming ∧ (u.tile t).frames = false ∧ (u.tile t).sys.pre = false ∧
      (u.tile t).seq.faults = (s.tile t).seq.faults.filter (fun f => !isGlobalCode f.2.code) ∧ (u.tile t).st = (s.tile t).st) ∧
    ∀ t, (t ∉ l.tiles ∨ (s.tile t).runs serial = false ∨ (s.restarts t = false ∧ (s.tile t).inPlace = false)) →
      u.tile t = s.tile t) ∧
  (∀ port serial l s, Owns s port → s.launch serial = some l →
    ((l.state = .held ∧ l.endsAs = none) →
      exec (.holdEnd port serial) s = .next ((s.endLaunch serial .failed 0).doneTo port)) ∧
    ((l.state ≠ .held ∨ l.endsAs ≠ none) → exec (.holdEnd port serial) s = .next (s.refuseTo port 0)) ∧
    ((l.state.final = false ∧ l.endsAs = none) →
      exec (.cancel port serial) s = .next ((s.endLaunch serial .cancelled 0).doneTo port)) ∧
    ((l.state.final = true ∨ l.endsAs ≠ none) → exec (.cancel port serial) s = .next (s.refuseTo port 0)) ∧
    let past := ∃ c, l.leftAt = some c ∧ c + 17500000000 ≤ s.pcc
    ((l.state.final = true ∧ l.acked = false ∧ ¬ past) → exec (.statusAck port serial) s =
      .next ((s.onLaunch serial fun l => { l with acked := true }).doneTo port)) ∧
    ((l.state.final = false ∨ l.acked = true ∨ past) → exec (.statusAck port serial) s = .next (s.refuseTo port 0))) ∧
  (∀ serial l st code (s : State), s.launch serial = some l → ∀ t ∈ l.tiles, (s.tile t).runs serial = true →
    let y := (s.endLaunch serial st code).tile t
    y.task = none ∨ y.seq.phase = .closing ∨ y.seq.phase = .stopped ∨ y.seq.phase = .halted ∨
      (y.seq.phase = .running ∧ y.seq.inHand = true ∧ y.seq.ceasing = true)) ∧
  (∀ (x : Tile), x.seq.ceasing = true → x.seq.inHand = false → x.ceased.seq.phase = .closing) ∧
  (∀ port serial l s, port < 2 → s.mayRead port = true → s.launch serial = some l →
    let past := ∃ c, l.leftAt = some c ∧ c + 17500000000 ≤ s.pcc
    (l.acked = false → ¬ past → exec (.launchStatusRead port (.record serial)) s = .next (s.tell port (.words (l.status serial)))) ∧
    ((l.acked = true ∨ past) → exec (.launchStatusRead port (.record serial)) s = .next (s.refuseTo port 0)) ∧
    (∀ t, (s.tile t).runs serial = true → (s.tile t).frames = true →
      exec (.launchStatusRead port (.frames serial t)) s =
        .next (let u := s.tell port (.bytes (readBytes s.mem (rowAddr t 0) 8192))
               if s.commander = some port ∧ s.framesGo t = true then u.releaseTile t else u))) ∧
  (∀ port t s, Owns s port → t < Config.tiles →
    (s.framesGo t = true → exec (.frameRelease port t) s = .next ((s.releaseTile t).doneTo port)) ∧
    (s.framesGo t = false → exec (.frameRelease port t) s = .next (s.refuseTo port 0))) ∧
  (∀ t k l c s, t < Config.tiles → (s.tile t).task = some k → s.launch k.serial = some l → (s.tile t).frames = true →
    l.state = .failed → l.leftAt = some c →
    (c + 1750000000 ≤ s.pcc → exec (.failedTileReleaseTimeout t) s = .next (s.releaseTile t)) ∧
    (s.pcc < c + 1750000000 → exec (.failedTileReleaseTimeout t) s = .next s)) ∧
  (∀ t (s : State), ((s.releaseTile t).tile t).task = none ∧ ((s.releaseTile t).tile t).frames = false) ∧
  (∀ serial l c s, s.launch serial = some l → l.leftAt = some c →
    (c + 17500000000 ≤ s.pcc → exec (.statusRecordExpiry serial) s = .next (s.onLaunch serial fun l => { l with acked := true })) ∧
    (s.pcc < c + 17500000000 → exec (.statusRecordExpiry serial) s = .next s))

/-- Images (R22), parameter blocks (R327), the timed table (R328, R329) and sessions (R330, R332). That the event carries an image's handle is the
model's choice (log entry 42), as are the refusals 0x01 of an image without variants and 0x0D of a block's size and of the handle 0 (log
entry 134). -/
def Obligations.ImageAndSessionSteps : Prop :=
  (∀ port handle img s, Owns s port → find handle s.images = none →
    ((img.variants ≠ [] ∧ ∀ v ∈ img.variants, variantOk v = true) → exec (.imageLoad port handle img) s =
      .next (({ s with images := insertAt handle img s.images } : State).tell port (.serial handle))) ∧
    ((img.variants = [] ∨ ∃ v ∈ img.variants, variantOk v = false) → exec (.imageLoad port handle img) s = .next (s.refuseTo port 0x01))) ∧
  (∀ port handle img o s, Owns s port → find handle s.images = some o → exec (.imageLoad port handle img) s = .next s) ∧
  (∀ port handle bytes s, Owns s port →
    ((bytes.length < 64 ∨ 65536 < bytes.length ∨ handle = 0) → exec (.paramBlockPatch port handle bytes) s = .next (s.refuseTo port 0x0D)) ∧
    (64 ≤ bytes.length → bytes.length ≤ 65536 → handle ≠ 0 → Completes (.paramBlockPatch port handle bytes) s fun u =>
      ∃ b, find handle u.params = some b ∧ b.current = (match find handle s.params with | some o => o.current | none => 0) + 1 ∧
        look [] b.current b.versions = bytes ∧ (∀ o, find handle s.params = some o → b.versionAt s.pcc = o.versionAt s.pcc) ∧
        ∀ h, h ≠ handle → find h u.params = find h s.params)) ∧
  (∀ port disp index e s, Owns s port → disp < 4 → index < 512 →
    ((e.2.getLsbD 63 = false ∨ (bitsOf e.1 29 0 < 1000000000 ∧ s.ptpNs ≤ entryStart e)) →
      exec (.timedTableWrite port disp index (some e) none) s =
        .next { s with timed := insertAt (disp * 512 + index) (entryOf e) s.timed }) ∧
    ((e.2.getLsbD 63 = true ∧ (1000000000 ≤ bitsOf e.1 29 0 ∨ entryStart e < s.ptpNs)) →
      exec (.timedTableWrite port disp index (some e) none) s = .next (s.refuseTo port 0))) ∧
  (∀ port disp index sub s, Owns s port → disp < 4 → index < 256 →
    exec (.timedTableWrite port disp index none (some sub)) s = .next { s with slots := insertAt (disp * 256 + index) sub s.slots }) ∧
  (∀ disp index e sub s, disp < 4 → index < 512 → s.boot = .ready → find (disp * 512 + index) s.timed = some e →
    e.2.getLsbD 63 = true → entryStart e ≤ s.ptpNs → find (disp * 256 + entrySlot e) s.slots = some sub →
    exec (.timedEntryFire disp index) s = .next (({ s with
      timed := insertAt (disp * 512 + index) (entryFired e s.ptpNs) s.timed } : State).submit (s.owner.getD 0) disp sub
        (some (entryStart e)))) ∧
  (∀ port num replay s, Owns s port →
    ((∀ e, find num s.sessions = some e → e.opened = false) → Completes (.sessionOpen port num replay) s fun u =>
      ∃ e, find num u.sessions = some e ∧ e.opened = true ∧ e.replay = replay ∧ e.matched = 0 ∧ e.bound = [] ∧
        e.versions = s.params.map (fun p => (p.1, p.2.current)) ∧ (replay = false → e.trace = []) ∧
        ∀ o, replay = true → find num s.sessions = some o → e.trace = o.trace ∧ e.order = o.ended) ∧
    (∀ e, find num s.sessions = some e → e.opened = true →
      exec (.sessionOpen port num replay) s = .next (s.refuseTo port 0) ∧
      Completes (.sessionClose port num) s fun u => ∃ f, find num u.sessions = some f ∧ f.opened = false ∧ f.trace = e.trace))

/-- Operating points (R363 to R366) and page migration (R260). Three points are the model's choices: that a held request starts only once no grant
waits on the island, though R365 has it start at once (log entry 71); that PAGE_MIGRATION names the frame (log entry 43; R376 bears on a
page of a failed vault); and that the request's operand with bit 52 set is the W1C write of sup (log entry 91). -/
def Obligations.OperatingPointSteps : Prop :=
  (∀ port i n s, Owns s port → i < Config.islands → 6 ≤ n → n ≠ 2 ^ 52 →
    exec (.operatingPointRequest port i n) s = .next (s.refuseTo port 0)) ∧
  (∀ port i s, Owns s port → i < Config.islands → exec (.operatingPointRequest port i (2 ^ 52)) s =
    .next ((s.setPoint i { s.island i with sup := false }).doneTo port)) ∧
  (∀ port i n s, Owns s port → i < Config.islands → n < 6 → (s.island i).tgt = (s.island i).cur → (s.island i).step = none →
    (s.island i).hv = false → exec (.operatingPointRequest port i n) s = .next ((s.startRamp i n).doneTo port)) ∧
  (∀ i n (s : State), let u := s.startRamp i n
    (n = (s.island i).cur → u = s) ∧
    (n ≠ (s.island i).cur → (u.island i).tgt = n ∧ (u.island i).cur = (s.island i).cur ∧ u.tiles = s.tiles) ∧
    ((s.island i).cur < n → (u.island i).floors = pointFloors n ∧
      ∀ t, t / 16 = i → (s.tile t).noticed = true → (t, (u.island i).floorNotice) ∈ u.delivered) ∧
    (n < (s.island i).cur → (u.island i).floors = (s.island i).floors ∧ (u.island i).step = some (s.pcc + 1) ∧
      u.delivered = s.delivered)) ∧
  (∀ i x p (s : State), s.owner = some p → x.point ≠ (s.island i).point → ((s.setPoint i x).island i) = x ∧
    (p, Told.words [i, x.point]) ∈ (s.setPoint i x).told) ∧
  (∀ port i n s, Owns s port → i < Config.islands → n < 6 →
    ((s.island i).tgt ≠ (s.island i).cur ∨ (s.island i).step ≠ none ∨ (s.island i).hv = true) →
    Completes (.operatingPointRequest port i n) s fun u => (u.island i).hv = true ∧ (u.island i).held = n ∧
      (u.island i).sup = ((s.island i).sup || (s.island i).hv) ∧
      (u.island i).tgt = (s.island i).tgt ∧ (u.island i).cur = (s.island i).cur ∧ u.tiles = s.tiles) ∧
  (∀ i s, i < Config.islands → ((s.island i).tgt ≠ (s.island i).cur ∨ (s.island i).step ≠ none) →
    let done := if (s.island i).cur < (s.island i).tgt then s.applied i (s.island i).tgt = true
      else ∃ c, (s.island i).step = some c ∧ c ≤ s.pcc
    (done → Completes (.voltageStepComplete i) s fun u => (u.island i).cur = (s.island i).tgt ∧ u.tiles = s.tiles ∧
      ((s.island i).hv = false → (u.island i).tgt = (s.island i).tgt ∧ (u.island i).step = none) ∧
      ((s.island i).hv = false → (s.island i).floors = pointFloors (s.island i).tgt → u.delivered = s.delivered) ∧
      ((s.island i).floors ≠ pointFloors (s.island i).tgt → ∀ t, t / 16 = i → (s.tile t).noticed = true →
        ∃ x : Island, x.throttle = (s.island i).throttle ∧ x.floors = pointFloors (s.island i).tgt ∧ (t, x.floorNotice) ∈ u.delivered)) ∧
    (¬ done → exec (.voltageStepComplete i) s = .next s)) ∧
  (∀ i s, i < Config.islands → (s.island i).tgt = (s.island i).cur → (s.island i).step = none →
    ((s.island i).hv = true ∧ s.grantWaits i = false → exec (.voltageStepComplete i) s =
      .next ((s.setPoint i { s.island i with hv := false }).startRamp i (s.island i).held)) ∧
    ((s.island i).hv = false ∨ s.grantWaits i = true → exec (.voltageStepComplete i) s = .next s)) ∧
  (pointFloors 0 = #v[1, 1, 1, 1] ∧ pointFloors 1 = #v[1, 2, 2, 1] ∧ pointFloors 2 = #v[2, 2, 2, 2] ∧
    pointFloors 3 = #v[2, 4, 4, 2] ∧ pointFloors 4 = #v[4, 4, 4, 4] ∧ pointFloors 5 = #v[8, 8, 8, 8]) ∧
  (∀ entry frame tier p s, s.pages.find? (fun p => p.addr == entry) = some p →
    let goes := tier < 2 ∧ p.leaf.tier < 2 ∧ wholePage s.pages p.leaf = true ∧ (pinned s.pages p.leaf = true → tier = 0) ∧
      s.frameFree s.pages p.leaf tier frame = true ∧
      (p.leaf.tier = 0 → (s.tile (p.leaf.frame / 4096)).vault.failed = false)
    (goes → exec (.pageMigration entry frame tier) s = .next (s.movePage p tier frame)) ∧
    (¬ goes → exec (.pageMigration entry frame tier) s = .next s)) ∧
  (∀ p tier frame t (s : State), ((s.movePage p tier frame).tile t).regs = (s.tile t).regs ∧
    ((s.movePage p tier frame).tile t).st = (s.tile t).st ∧ ((s.movePage p tier frame).tile t).seq = (s.tile t).seq) ∧
  (∀ l tier frame, tier < 2 → frame < 2 ^ 36 → (Leaf.moved l tier frame).tier = tier ∧ (Leaf.moved l tier frame).frame = frame ∧
    (Leaf.moved l tier frame).key = l.key ∧ (Leaf.moved l tier frame).ep = l.ep ∧ (Leaf.moved l tier frame).size = l.size)

/-- What a step runs: the instruction that the decoder reads from the bundle's word, and exec of it (R42 to R46, R58). -/
def Obligations.StepRunsDecodedInstruction : Prop :=
  (∀ t r s s1 slot index i, s.agenda = [] → s.eventDue = false → s.turn = t :: r →
    exec (.bundleIssue t .clean) (({ s with turn := r } : State).afterIssue t) = .next s1 → s1.out = [(slot, index, i)] →
    step s = match exec i (({ s1 with out := [] } : State).focusOn s1.focus.tile slot index s1.focus.addr true) with
      | .next v => .next (({ v with focus := { } } : State).afterIssue t)
      | o => o) ∧
  (∀ t r s s1, s.agenda = [] → s.eventDue = false → s.turn = t :: r →
    exec (.bundleIssue t .clean) (({ s with turn := r } : State).afterIssue t) = .next s1 → s1.out = [] →
    step s = .next (({ s1 with focus := { } } : State).afterIssue t)) ∧
  (∀ t a slot index i r s, runOps t a ((slot, index, i) :: r) s = match exec i (s.focusOn t slot index a true) with
    | .next u => runOps t a r u
    | o => o) ∧
  (∀ (s : State) t slot old w i, decodeWord slot w = .ok i → s.guardPasses t slot w = true →
    (s.planWord t slot old w).op = some i ∧
    (isNop i = false → (s.planWord t slot old w).latch = { word := w, index := 0, live := true })) ∧
  (∀ (s : State) t slot (old : Latch) i, old.live = true → decodeWord slot old.word = .ok i → s.guardPasses t slot old.word = true →
    (s.planLatched t slot old).op = some i ∧ (s.planLatched t slot old).latch.index = old.index + 1) ∧
  (∀ d r s, s.agenda = d :: r → step s = runDue d { s with agenda := r }) ∧
  (∀ e r s, s.agenda = [] → s.inbox = e :: r → s.eventDue = true → isSlotOp e.2 = false →
    step s = match exec e.2 { s with inbox := r } with | .next u => u.drainOut | o => o)

/-- Words written out in the spec's worked encodings, and by its formats (R48 to R56). -/
def Obligations.SpecifiedWordsDecode : Prop :=
  decodeWord .s 0x4040A4C000000000 = .ok (.st { d := 5, g := 2, size := 3, sx := false, b := 0 }) ∧
  decodeWord .v0 0x0400140B06000000 = .ok (.vadd { d := 10, a := 11, b := 12, c := 0, m := 0, me := false, rm := 0, ty := 0 }) ∧
  decodeWord .d 0x08824600 = .ok (.act { bank := 2, row := 0x123 }) ∧
  decodeWord .d 0x12514000 = .ok (.rd { bank := 9, g := 4, col := 5, cstep := false }) ∧
  decodeWord .s 0x2C02800000000800 = .ok (.loop { k := 5, a := 0, imm := 2 }) ∧
  decodeWord .s 0x2281100000000064 = .ok (.cmplti { pd := 2, a := 4, imm := 100 }) ∧
  decodeWord .s 0x3001800000000030 = .ok (.prep { t := 3, a := 0, imm := 0x30 }) ∧
  decodeWord .s 0x7002000000000000 = .ok (.mode true false) ∧
  decodeWord .m (0b0000100000#10 ++ 0#4 ++ 0b000011#6 ++ 0b0010#4 ++ 0#40) = .ok (.mma { acc := 3, fmt := 2 }) ∧
  decodeWord .c0 (0b0000010000#10 ++ 0#4 ++ 0b0001#4 ++ 0b0010#4 ++ 0b0000000000001000#16 ++ 0#26)
    = .ok (.cloc { gd := 1, ga := 2, n := 8, fmt := 0, gw := 0, aw := false, fill := 0, df := 0 }) ∧
  decodeWord .x (0#32 ++ 0b000011#6 ++ 0b000000101#9 ++ 0b000000111#9 ++ 0#8) = .ok (.xpose { d := 5, a := 7, low := 0 })

/-- Decoding undoes encoding (R46, R48 to R56). -/
def Obligations.EncodingsDecode : Prop :=
  ∀ (g : Guard) (i : Instr), i.wf = true → ∀ sl, slotFor i = some sl → ∃ w, encode g i = some w ∧ decodeWord sl w = .ok i ∧
    guardOf sl w = if sl = .d ∨ sl = .x then Guard.always else g

/-- Encoding undoes decoding (R46, R48, R49, R57, R58): every reserved bit is zero. -/
def Obligations.DecodedWordsEncode : Prop :=
  ∀ sl w i, decodeWord sl w = .ok i → i.wf = true ∧
    slotFor i = some (if sl = .v1 then .v0 else if sl = .c1 then .c0 else sl) ∧
    encode (guardOf sl w) i = some (if sl = .d ∨ sl = .x then (w.setWidth 32).setWidth 64 else w)

/-- The canonical form of memory is kept (the model's form of R157 and R158; log entry 2). -/
def Obligations.CanonicalMemoryKept : Prop :=
  (∀ s u, Canonical s → step s = .next u → Canonical u) ∧
  (∀ i s u, Canonical s → exec i s = .next u → Canonical u)

/-- The machine right after reset (R349; log entries 1, 2 and 13). -/
def Obligations.ResetState : Prop :=
  State.reset.boot = .off ∧ State.reset.pcc = 0 ∧ State.reset.keys = [] ∧ State.reset.launches = [] ∧
  State.reset.owner = none ∧ State.reset.svc = 0 ∧ State.reset.mem = [] ∧ State.reset.told = [] ∧
  (∀ t, (State.reset.tile t).task = none ∧ (State.reset.tile t).saved = none ∧ (State.reset.tile t).st = [] ∧
    (State.reset.tile t).sys = { } ∧ (State.reset.tile t).seq.flights = [] ∧
    (∀ r < 32, vget 1 (State.reset.tile t).regs.s r = 0) ∧ (∀ r < 8, vget true (State.reset.tile t).regs.p r = false) ∧
    (∀ r, look 0 r (State.reset.tile t).regs.v = 0) ∧
    (∀ r < 16, vget 1 (State.reset.tile t).regs.m r = 0) ∧ (∀ e < 4, vget 0 (State.reset.tile t).sys.div e = 1)) ∧
  Canonical State.reset

/-- The frame of every slot operation's issue (R27, R28, R156). -/
def Obligations.SlotFrame : Prop :=
  ∀ i s u, (slotFor i).isSome = true → (∀ k, i ≠ .trap k) → Goes i s → exec i s = .next u →
    SameStores s u ∧ (∀ t, t ≠ s.focus.tile → u.tile t = s.tile t) ∧ u.launches = s.launches ∧ u.log = s.log

/-- What a slot operation can answer (R28, R32, R58). -/
def Obligations.SlotOperationsAnswer : Prop :=
  ∀ i s, (slotFor i).isSome = true →
    (∃ u, exec i s = .next u) ∧
    (s.focus.checked = false → verdict s (s.ctx i) i = .stall → exec i s = .next s) ∧
    (∀ r, s.focus.checked = false → verdict s (s.ctx i) i = .trap r → exec i s = .next (s.refuse s.focus.tile r))

/-- What the S slot's checks find: the divider (R28, R109), the generator's space and the alignment (R124), its range and limit (R47, R115), the
loop nest (R118), MODE in a handler (R141) and TRET outside one (R154). That a read is looked at against the RDs of its own cycle of
reading is read from R168 (log entry 113). -/
def Obligations.ScalarIssueConditions : Prop :=
  (∀ i s, slotFor i = some .s → inRegion i = true → (∀ f, i ≠ .ld f ∧ i ≠ .st f) → i ≠ .alend →
    ((s.tile s.focus.tile).sys.gm = false ∨
      ∀ l ∈ sources i, (s.tile s.focus.tile).pending (s.icc s.focus.tile) l = false) → Goes i s) ∧
  (∀ f s, ∀ i ∈ [Instr.div f, .divu f, .rem f, .remu f], (s.tile s.focus.tile).sys.gm = false →
    (s.tile s.focus.tile).eng.region = none →
    ((s.tile s.focus.tile).seq.divFree ≤ s.icc s.focus.tile → Goes i s) ∧
    (s.icc s.focus.tile < (s.tile s.focus.tile).seq.divFree → s.focus.checked = false →
      exec i s = .next (s.refuse s.focus.tile (trapOf 0 0x06)))) ∧
  (∀ f s, s.focus.checked = false → (s.tile s.focus.tile).sys.gm = false → (s.tile s.focus.tile).eng.region = none →
    let c := s.ctx (.st f)
    let a := (s.gen c f.g).1
    let x := (s.gen c f.g).2
    ((2 ≤ a.space.toNat ∨ x.toNat % Machine.sizeOf f.size ≠ 0) →
      exec (.st f) s = .next (s.refuse s.focus.tile (trapOf 0 0x05))) ∧
    (a.space.toNat < 2 → x.toNat % Machine.sizeOf f.size = 0 → a.inRange x = false →
      exec (.st f) s = .next (s.refuse s.focus.tile (trapOf 0 0x08))) ∧
    (a.space = 0 → x.toNat % Machine.sizeOf f.size = 0 → a.inRange x = true → Goes (.st f) s)) ∧
  (∀ f s, s.focus.checked = false → (s.tile s.focus.tile).eng.region = none → opStalls s (s.ctx (.ld f)) (.ld f) 0 = false →
    let c := s.ctx (.ld f)
    let a := (s.gen c f.g).1
    let x := (s.gen c f.g).2
    ((2 ≤ a.space.toNat ∨ x.toNat % Machine.sizeOf f.size ≠ 0) →
      exec (.ld f) s = .next (s.refuse s.focus.tile (trapOf 0 0x05))) ∧
    (a.space.toNat < 2 → x.toNat % Machine.sizeOf f.size = 0 → a.inRange x = false →
      exec (.ld f) s = .next (s.refuse s.focus.tile (trapOf 0 0x08))) ∧
    (a.space = 0 → x.toNat % Machine.sizeOf f.size = 0 → a.inRange x = true →
      s.readFault s.focus.tile (readsAt (s.icc s.focus.tile + 1) [(x.toNat, Machine.sizeOf f.size)]) = none → Goes (.ld f) s)) ∧
  (∀ f s, s.focus.checked = false → (s.tile s.focus.tile).sys.gm = false → (s.tile s.focus.tile).eng.region = none →
    let n := (s.readS (s.ctx (.loop f)) f.a + f.imm.setWidth 64).toNat
    let misused := n = 0 ∨ 2 ^ 32 ≤ n ∨ ∃ j < 6, f.k.toNat ≤ j ∧ (vget { } (s.tile s.focus.tile).seq.loops j).active = true
    (misused → exec (.loop f) s = .next (s.refuse s.focus.tile (trapOf 0 0x09))) ∧ (¬ misused → Goes (.loop f) s)) ∧
  (∀ gm er s, s.focus.checked = false → (s.tile s.focus.tile).sys.hnd = true →
    exec (.mode gm er) s = .next (s.refuse s.focus.tile (trapOf 0 0x0B))) ∧
  (∀ s, s.focus.checked = false → (s.tile s.focus.tile).sys.hnd = false → (s.tile s.focus.tile).eng.region = none →
    exec .tret s = .next (s.refuse s.focus.tile (trapOf 0 0x0B)))

/-- R113: LIH. -/
def Obligations.LihRule : Prop :=
  (∀ f, IssuesAs (.lih f) fun c s => s.flightS c 1 f.d (BitVec.ofNat 64
    (f.imm.toNat % 2 ^ 24 * 2 ^ 40 + (s.readS c f.a).toNat % 2 ^ 40))) ∧
  (∀ (g : Guard) (f : SI), let w := 0x070#10 ++ BitVec.ofBool g.gn ++ g.gp ++ f.bits
    (f.imm.extractLsb' 24 16 ≠ 0 → decodeWord .s w = .error .reservedField) ∧
    (f.imm.extractLsb' 24 16 = 0 → decodeWord .s w = .ok (.lih f))) ∧
  DecodeError.reservedField.code = 0x04

/-- R136: YIELDCHK. -/
def Obligations.YieldchkRule : Prop :=
  (∀ pd mask, IssuesAs (.yieldchk pd mask) fun c s =>
    (s.flightP c 1 pd ((mask.getLsbD 2 && (s.tile c.t).sys.pre) || (mask.getLsbD 1 && (s.tile c.t).sys.thr)
      || (mask.getLsbD 0 && (s.tile c.t).sys.rcls))).singleShot c) ∧
  (∀ pd s, Goes (.yieldchk pd 0) s →
    exec (.yieldchk pd 0) s = .next ((s.flightP (s.ctx (.yieldchk pd 0)) 1 pd false).singleShot (s.ctx (.yieldchk pd 0))).nextFree) ∧
  (∀ (g : Guard) (pd mask : BitVec 3),
    decodeWord .s (0x1C7#10 ++ BitVec.ofBool g.gn ++ g.gp ++ (pd ++ mask ++ 0#44)) = .ok (.yieldchk pd mask))

/-- R200: the mask operations. -/
def Obligations.MaskOperationRule : Prop :=
  (∀ f, VectorIssuesAs (.mand f) fun c s => s.flightV c (.mand f) [.m f.md.toNat (s.readM c f.ma &&& s.readM c f.mb)]) ∧
  (∀ f, VectorIssuesAs (.mor f) fun c s => s.flightV c (.mor f) [.m f.md.toNat (s.readM c f.ma ||| s.readM c f.mb)]) ∧
  (∀ f, VectorIssuesAs (.mxor f) fun c s => s.flightV c (.mxor f) [.m f.md.toNat (s.readM c f.ma ^^^ s.readM c f.mb)]) ∧
  (∀ f, VectorIssuesAs (.mnot f) fun c s => s.flightV c (.mnot f) [.m f.md.toNat (~~~ (s.readM c f.ma))]) ∧
  (∀ f, VectorIssuesAs (.mpop f) fun c s => if f.d = 0 then s else s.flightV c (.mpop f)
    [.s f.d.toNat (BitVec.ofNat 64 ((List.range (1024 / tyWidth f.ty)).countP fun j => (s.readM c f.ma).getLsbD j))]) ∧
  (∀ f s, Goes (.mset f) s → ∃ x : MReg, (∀ i < 1024, x.getLsbD i = decide (i < (s.readS (s.ctx (.mset f)) f.d).toNat ∧ i < 1024 / tyWidth f.ty)) ∧
    exec (.mset f) s = .next ((s.flightV (s.ctx (.mset f)) (.mset f) [.m f.md.toNat x]).takeVector (s.ctx (.mset f)) (.mset f)).nextFree) ∧
  (tyWidth 0 = 4 ∧ tyWidth 1 = 2 ∧ tyWidth 2 = 2 ∧ tyWidth 3 = 8 ∧ tyWidth 4 = 4 ∧ tyWidth 5 = 8 ∧ tyWidth 6 = 1) ∧
  (∀ (g : Guard) (f : VQ) sl, (sl = .v0 ∨ sl = .v1) →
    let word := fun (op : BitVec 10) => decodeWord sl (op ++ BitVec.ofBool g.gn ++ g.gp ++ f.bits)
    (word 0x050 = if f.d = 0 ∧ f.ty = 0 then .ok (.mand f) else .error .operandOutOfRange) ∧
    (word 0x051 = if f.d = 0 ∧ f.ty = 0 then .ok (.mor f) else .error .operandOutOfRange) ∧
    (word 0x052 = if f.d = 0 ∧ f.ty = 0 then .ok (.mxor f) else .error .operandOutOfRange) ∧
    (word 0x053 = if f.d = 0 ∧ f.ty = 0 ∧ f.mb = 0 then .ok (.mnot f) else .error .operandOutOfRange) ∧
    (word 0x054 = if f.md = 0 ∧ f.mb = 0 ∧ f.ty ≠ 7 then .ok (.mpop f) else .error .operandOutOfRange) ∧
    (word 0x055 = if f.ma = 0 ∧ f.mb = 0 ∧ f.ty ≠ 7 then .ok (.mset f) else .error .operandOutOfRange))

/-- Writes of registers (R27, R110). -/
def Obligations.RegisterWrites : Prop :=
  (∀ (s : State) c, s.readS c 0 = 0 ∧ s.readP c 0 = true) ∧
  (∀ (s : State) c lat x b, s.flightS c lat 0 x = s ∧ s.flightP c lat 0 b = s) ∧
  (∀ (r : Regs) x b, r.apply (.s 0 x) = r ∧ r.apply (.p 0 b) = r) ∧
  (∀ (r : Regs) k x, 0 < k → k < 32 → vget 0 (r.apply (.s k x)).s k = x ∧ (∀ j, j ≠ k → vget 0 (r.apply (.s k x)).s j = vget 0 r.s j) ∧
    { r.apply (.s k x) with s := r.s } = r) ∧
  (∀ (r : Regs) k b, 0 < k → k < 8 → vget false (r.apply (.p k b)).p k = b ∧ (∀ j, j ≠ k → vget false (r.apply (.p k b)).p j = vget false r.p j) ∧
    { r.apply (.p k b) with p := r.p } = r) ∧
  (∀ (r : Regs) g f x, g < 16 → let y := r.apply (.ag g f x)
    (∀ j, j ≠ g → vget { } y.ag j = vget { } r.ag j) ∧ { y with ag := r.ag } = r ∧
    let a := vget { } y.ag g
    let o := vget { } r.ag g
    (f = 0 → a.space = x.setWidth 4 ∧ { a with space := o.space } = o) ∧ (f = 1 → a.base = x ∧ { a with base := o.base } = o) ∧
    (f = 2 → a.step = x ∧ { a with step := o.step } = o) ∧
    (3 ≤ f → f < 9 → vget 0 a.stride (f - 3) = x ∧ (∀ k, k ≠ f - 3 → vget 0 a.stride k = vget 0 o.stride k) ∧ { a with stride := o.stride } = o) ∧
    (f = 9 → a.limit = x ∧ { a with limit := o.limit } = o)) ∧
  (∀ (r : Regs) k keep x, look 0 k (r.apply (.v k keep x)).v = ((look 0 k r.v &&& keep) ||| (x &&& ~~~keep)) ∧
    (∀ j, j ≠ k → look 0 j (r.apply (.v k keep x)).v = look 0 j r.v) ∧ { r.apply (.v k keep x) with v := r.v } = r) ∧
  (∀ (r : Regs) k x, k < 16 → vget 0 (r.apply (.m k x)).m k = x ∧ (∀ j, j ≠ k → vget 0 (r.apply (.m k x)).m j = vget 0 r.m j) ∧
    { r.apply (.m k x) with m := r.m } = r) ∧
  (∀ (r : Regs) k x, look 0 k (r.apply (.acc k x)).acc = x ∧ (∀ j, j ≠ k → look 0 j (r.apply (.acc k x)).acc = look 0 j r.acc) ∧
    { r.apply (.acc k x) with acc := r.acc } = r) ∧
  (∀ (r : Regs) x sc, r.apply (.opLatch x sc) = { r with opLatch := x, opScales := sc }) ∧
  (∀ (r : Regs) x, r.apply (.wLatch x) = { r with wLatch := x }) ∧
  (∀ (r : Regs) x, r.apply (.wTag x) = { r with wTag := x })
end

