-- ==== Sys2Proof/Laws/Tables.lean ====
section
/-! SUPPORT. Tables and vectors: reading after writing. -/

namespace Sys2Proof.Machine

variable {α : Type}

/-! ### Tables -/

@[simp] theorem look_nil (d : α) (k : Nat) : look d k [] = d := rfl

theorem look_insertAt (d x : α) (j k : Nat) (m : Table α) :
    look d j (insertAt k x m) = if j = k then x else look d j m := by
  induction m with
  | nil => by_cases h : j = k <;> simp [insertAt, look, h, Ne.symm]
  | cons e r ih =>
    obtain ⟨a, y⟩ := e
    unfold insertAt
    split
    · simp only [look]
      by_cases h : j = k
      · simp [h]
      · simp [h, Ne.symm h]
    · split
      · rename_i h1 h2; subst h2
        simp only [look]
        by_cases h : j = a
        · simp [h]
        · simp [h, Ne.symm h]
      · simp only [look, ih]
        by_cases h : a = j
        · rename_i h1 h2; simp [h]; intro h3; omega
        · simp [h]

@[simp] theorem look_insertAt_self (d x : α) (k : Nat) (m : Table α) : look d k (insertAt k x m) = x := by
  simp [look_insertAt]

theorem look_insertAt_of_ne (d x : α) {j k : Nat} (h : j ≠ k) (m : Table α) :
    look d j (insertAt k x m) = look d j m := by
  simp [look_insertAt, h]

theorem look_dropAt (d : α) (j k : Nat) (m : Table α) : look d j (dropAt k m) = if j = k then d else look d j m := by
  induction m with
  | nil => simp [dropAt]
  | cons e r ih =>
    obtain ⟨a, y⟩ := e
    unfold dropAt at ih ⊢
    by_cases h : a = k
    · rw [List.filter_cons_of_neg (by simpa using h), ih]
      by_cases h2 : j = k
      · simp [h2]
      · have h3 : a ≠ j := by omega
        simp [look, h2, h3]
    · rw [List.filter_cons_of_pos (by simpa using h)]
      simp only [look, ih]
      by_cases h2 : j = k
      · have h3 : a ≠ j := by omega
        simp [h2, h]
      · simp [h2]

/-- A table reads as written, listed or not. -/
theorem find_dropAt (j k : Nat) (m : Table α) : find j (dropAt k m) = if j = k then none else find j m := by
  induction m with
  | nil => simp [dropAt, find]
  | cons e r ih =>
    obtain ⟨a, x⟩ := e
    simp only [dropAt] at ih
    by_cases h : a = k
    · simp only [dropAt, List.filter, h, bne_self_eq_false, ih, find]
      by_cases hj : j = k
      · simp [hj]
      · simp [hj, Ne.symm hj]
    · have hb : (a != k) = true := by simpa using h
      simp only [dropAt, List.filter, hb, find, ih]
      by_cases hj : a = j
      · subst hj; simp [h]
      · simp [hj]

theorem look_put [DecidableEq α] (d x : α) (j k : Nat) (m : Table α) :
    look d j (put d k x m) = if j = k then x else look d j m := by
  unfold put
  split
  · rename_i h; rw [look_dropAt, h]
  · exact look_insertAt d x j k m

theorem find_insertAt (x : α) (j k : Nat) (m : Table α) :
    find j (insertAt k x m) = if j = k then some x else find j m := by
  induction m with
  | nil => by_cases h : j = k <;> simp [insertAt, find, h]; omega
  | cons e r ih =>
    obtain ⟨a, y⟩ := e
    unfold insertAt
    split
    · simp only [find]
      by_cases h : j = k
      · simp [h]
      · simp [h, Ne.symm h]
    · split
      · rename_i h1 h2; subst h2
        simp only [find]
        by_cases h : j = a
        · simp [h]
        · simp [h, Ne.symm h]
      · simp only [find, ih]
        by_cases h : a = j
        · rename_i h1 h2; simp [h]; intro h3; omega
        · simp [h]

theorem look_eq_find (d : α) (k : Nat) (m : Table α) : look d k m = (find k m).getD d := by
  induction m with
  | nil => rfl
  | cons e r ih => obtain ⟨a, y⟩ := e; unfold look find; split <;> simp_all

/-! ### Vectors -/

theorem vget_vset {n : Nat} (d x : α) (v : Vector α n) (i j : Nat) (h : i < n) :
    vget d (vset v i x) j = if j = i then x else vget d v j := by
  unfold vget vset
  by_cases hj : j < n
  · rw [List.getD_eq_getElem _ _ (by simpa using hj), List.getD_eq_getElem _ _ (by simpa using hj)]
    simp only [Vector.getElem_toList, Vector.getElem_setIfInBounds]
    by_cases e : i = j <;> simp [e, eq_comm]
  · have : j ≠ i := by omega
    simp [List.getD, hj, this]

@[simp] theorem vget_vset_self {n : Nat} (d x : α) (v : Vector α n) {i : Nat} (h : i < n) :
    vget d (vset v i x) i = x := by simp [vget_vset, h]

theorem vset_of_ge {n : Nat} (x : α) (v : Vector α n) {i : Nat} (h : n ≤ i) : vset v i x = v := by
  unfold vset; ext j hj; simp [Vector.getElem_setIfInBounds]; intro e; omega

theorem vget_vset_of_ne {n : Nat} (d x : α) (v : Vector α n) {i j : Nat} (h : j ≠ i) :
    vget d (vset v i x) j = vget d v j := by
  by_cases hi : i < n
  · simp [vget_vset, hi, h]
  · rw [vset_of_ge x v (by omega)]

end Sys2Proof.Machine
end

