-- ==== Sys2Proof/Laws/Memory.lean ====
section
/-! SUPPORT. Memory: every operation keeps its canonical form, and what reads give after writes. -/

namespace Sys2Proof.Machine

/-- The canonical form, as it is used in proofs: addresses strictly rise, and no listed byte is 0. -/
theorem wf_iff (m : Memory) : m.wf = true ↔ m.Pairwise (fun a b => a.1 < b.1) ∧ ∀ c ∈ m, c.2 ≠ 0 := by
  induction m with
  | nil => simp [Memory.wf]
  | cons a r ih =>
    cases r with
    | nil => obtain ⟨a, x⟩ := a; simp [Memory.wf]
    | cons b r =>
      obtain ⟨a, x⟩ := a; obtain ⟨b, y⟩ := b
      simp only [Memory.wf, Bool.and_eq_true, bne_iff_ne, ne_eq, decide_eq_true_eq, ih, List.pairwise_cons, List.mem_cons]
      constructor
      · rintro ⟨⟨h1, h2⟩, ⟨h3, h4⟩, h5⟩
        refine ⟨⟨?_, h3, h4⟩, ?_⟩
        · rintro c (rfl | hc)
          · exact h2
          · exact lt_trans h2 (h3 c hc)
        · rintro c (rfl | hc)
          · exact h1
          · exact h5 c hc
      · rintro ⟨⟨h1, h2, h3⟩, h4⟩
        exact ⟨⟨h4 _ (.inl rfl), h1 _ (.inl rfl)⟩, ⟨h2, h3⟩, fun c hc => h4 c (.inr hc)⟩

@[simp] theorem wf_nil : Memory.wf [] = true := rfl

/-- What is left out of a memory leaves it canonical. -/
theorem wf_filter {m : Memory} (h : m.wf) (p : Host.Cell → Bool) : Memory.wf (m.filter p) := by
  rw [wf_iff] at h ⊢
  exact ⟨h.1.filter p, fun c hc => h.2 c (List.mem_filter.mp hc).1⟩

/-- The cells of bytes from an address are canonical, at that address or above, and below their end. -/
theorem cells_bounds (bs : List Byte) (a : Nat) : ∀ c ∈ cells a bs, a ≤ c.1 ∧ c.1 < a + bs.length ∧ c.2 ≠ 0 := by
  induction bs generalizing a with
  | nil => simp [cells]
  | cons x r ih =>
    intro c hc
    unfold cells at hc
    split at hc
    · have h := ih (a + 1) c hc; simp only [List.length_cons]; exact ⟨by omega, by omega, h.2.2⟩
    · rename_i hx
      rcases List.mem_cons.mp hc with rfl | hc
      · simp only [List.length_cons]; exact ⟨le_refl _, by omega, hx⟩
      · have h := ih (a + 1) c hc; simp only [List.length_cons]; exact ⟨by omega, by omega, h.2.2⟩

theorem cells_pairwise (bs : List Byte) (a : Nat) : (cells a bs).Pairwise (fun a b => a.1 < b.1) := by
  induction bs generalizing a with
  | nil => simp [cells]
  | cons x r ih =>
    unfold cells
    split
    · exact ih (a + 1)
    · exact List.pairwise_cons.mpr ⟨fun c hc => by have := cells_bounds r (a + 1) c hc; omega, ih (a + 1)⟩

theorem wf_cells (bs : List Byte) (a : Nat) : Memory.wf (cells a bs) = true := by
  rw [wf_iff]; exact ⟨cells_pairwise bs a, fun c hc => (cells_bounds bs a c hc).2.2⟩

/-- Memories that stand below one another, joined, are canonical. -/
theorem wf_append {m n : Memory} (hm : m.wf) (hn : n.wf) (h : ∀ a ∈ m, ∀ b ∈ n, a.1 < b.1) :
    Memory.wf (m ++ n) = true := by
  rw [wf_iff] at hm hn ⊢
  refine ⟨List.pairwise_append.mpr ⟨hm.1, hn.1, h⟩, fun c hc => ?_⟩
  rcases List.mem_append.mp hc with hc | hc
  · exact hm.2 c hc
  · exact hn.2 c hc

/-- Memory with a window replaced by a canonical memory that stands in the window. -/
theorem wf_replace {m w : Memory} {a n : Nat} (hm : m.wf) (hw : w.wf) (hb : ∀ c ∈ w, a ≤ c.1 ∧ c.1 < a + n) :
    Memory.wf (m.filter (fun c => c.1 < a) ++ w ++ m.filter (fun c => a + n ≤ c.1)) = true := by
  refine wf_append (wf_append (wf_filter hm _) hw ?_) (wf_filter hm _) ?_
  · intro x hx y hy
    have h1 := (List.mem_filter.mp hx).2; have h2 := hb y hy
    simp at h1; omega
  · intro x hx y hy
    have h2 := (List.mem_filter.mp hy).2
    simp at h2
    rcases List.mem_append.mp hx with hx | hx
    · have h1 := (List.mem_filter.mp hx).2; simp at h1; omega
    · have := hb x hx; omega

/-- A write keeps the canonical form. -/
theorem wf_writeBytes {m : Memory} (h : m.wf) (a : Nat) (bs : List Byte) : (writeBytes m a bs).wf = true :=
  wf_replace h (wf_cells bs a) fun c hc => ⟨(cells_bounds bs a c hc).1, (cells_bounds bs a c hc).2.1⟩

/-- Zeroing keeps the canonical form. -/
theorem wf_zeroBytes {m : Memory} (h : m.wf) (a n : Nat) : (zeroBytes m a n).wf = true := wf_filter h _

/-! ### Reading after writing -/

theorem look_append (m n : Memory) (a : Nat) (h : ∀ c ∈ m, c.1 ≠ a) : look (0 : Byte) a (m ++ n) = look 0 a n := by
  induction m with
  | nil => rfl
  | cons e r ih =>
    obtain ⟨b, x⟩ := e
    have hb : b ≠ a := h (b, x) (by simp)
    simp only [List.cons_append, look, hb, if_false]
    exact ih fun c hc => h c (List.mem_cons_of_mem _ hc)

theorem look_append_none (m n : Memory) (a : Nat) (h : ∀ c ∈ n, c.1 ≠ a) : look (0 : Byte) a (m ++ n) = look 0 a m := by
  induction m with
  | nil =>
    induction n with
    | nil => rfl
    | cons e r ih =>
      obtain ⟨b, x⟩ := e
      have hb : b ≠ a := h (b, x) (by simp)
      simp only [List.nil_append, look, hb, if_false] at ih ⊢
      exact ih fun c hc => h c (List.mem_cons_of_mem _ hc)
  | cons e r ih => obtain ⟨b, x⟩ := e; simp only [List.cons_append, look, ih]

theorem look_filter (m : Memory) (a : Nat) (p : Host.Cell → Bool) (h : ∀ x, p (a, x) = true) :
    look (0 : Byte) a (m.filter p) = look 0 a m := by
  induction m with
  | nil => rfl
  | cons e r ih =>
    obtain ⟨b, x⟩ := e
    by_cases hb : b = a
    · subst hb; rw [List.filter_cons_of_pos (h x)]; simp [look]
    · by_cases hp : p (b, x)
      · rw [List.filter_cons_of_pos hp]; simp only [look, hb, if_false]; exact ih
      · rw [List.filter_cons_of_neg hp]; simp only [look, hb, if_false]; exact ih

theorem look_of_not_mem (m : Memory) (a : Nat) (h : ∀ c ∈ m, c.1 ≠ a) : look (0 : Byte) a m = 0 := by
  have := look_append m [] a h; simpa using this

theorem look_cells (bs : List Byte) (a i : Nat) (h : i < bs.length) : look 0 (a + i) (cells a bs) = bs[i] := by
  induction bs generalizing a i with
  | nil => simp at h
  | cons x r ih =>
    unfold cells
    cases i with
    | zero =>
      split
      · rename_i hx; subst hx
        exact look_of_not_mem _ _ fun c hc => by have := cells_bounds r (a + 1) c hc; omega
      · simp [look]
    | succ i =>
      have e : a + (i + 1) = a + 1 + i := by omega
      have := ih (a + 1) i (by simpa using h)
      split
      · rw [e, this]; rfl
      · have h2 : a ≠ a + (i + 1) := by omega
        simp only [look, h2, if_false]; rw [e, this]; rfl

/-- READ AFTER WRITE: inside what was written. -/
theorem readByte_writeBytes (m : Memory) (a i : Nat) (bs : List Byte) (h : i < bs.length) :
    readByte (writeBytes m a bs) (a + i) = bs[i] := by
  unfold readByte writeBytes
  rw [List.append_assoc, look_append, look_append_none, look_cells bs a i h]
  · intro c hc; have := (List.mem_filter.mp hc).2; simp at this; omega
  · intro c hc; have := (List.mem_filter.mp hc).2; simp at this; omega

/-- READ AFTER WRITE: outside it, a byte reads as before. -/
theorem readByte_writeBytes_of_out (m : Memory) (a b : Nat) (bs : List Byte) (h : b < a ∨ a + bs.length ≤ b) :
    readByte (writeBytes m a bs) b = readByte m b := by
  have hc : ∀ c ∈ cells a bs, c.1 ≠ b := fun c hc => by have := cells_bounds bs a c hc; omega
  unfold readByte writeBytes
  rcases h with h | h
  · rw [look_append_none, look_append_none _ _ _ hc, look_filter]
    · intro x; simpa using h
    · intro c hc; have := (List.mem_filter.mp hc).2; simp at this; omega
  · rw [List.append_assoc, look_append, look_append _ _ _ hc, look_filter]
    · intro x; simpa using h
    · intro c hc; have := (List.mem_filter.mp hc).2; simp at this; omega

/-- A zeroed byte reads 0, and the others as before. -/
theorem readByte_zeroBytes (m : Memory) (a n b : Nat) :
    readByte (zeroBytes m a n) b = if a ≤ b ∧ b < a + n then 0 else readByte m b := by
  unfold readByte zeroBytes
  split
  · exact look_of_not_mem _ _ fun c hc => by have := (List.mem_filter.mp hc).2; simp at this; omega
  · exact look_filter _ _ _ fun x => by simp; omega

/-- Bytes read one by one. -/
theorem readBytes_eq (m : Memory) (a n : Nat) : readBytes m a n = (List.range n).map fun i => readByte m (a + i) := by
  unfold readBytes readByte
  refine List.map_congr_left fun i hi => ?_
  exact look_filter _ _ _ fun x => by have := List.mem_range.mp hi; simp; omega

/-- Two canonical memories that read alike are equal. -/
theorem wf_ext {m n : Memory} (hm : m.wf) (hn : n.wf) (h : ∀ a, readByte m a = readByte n a) : m = n := by
  rw [wf_iff] at hm hn
  induction m generalizing n with
  | nil =>
    cases n with
    | nil => rfl
    | cons e r => obtain ⟨b, y⟩ := e; have := h b; simp [readByte, look] at this; exact absurd this.symm (hn.2 (b, y) (by simp))
  | cons e r ih =>
    obtain ⟨a, x⟩ := e
    have hx : x ≠ 0 := hm.2 (a, x) (by simp)
    have hm1 := List.pairwise_cons.mp hm.1
    cases n with
    | nil => have := h a; simp [readByte, look] at this; exact absurd this hx
    | cons f q =>
      obtain ⟨b, y⟩ := f
      have hy : y ≠ 0 := hn.2 (b, y) (by simp)
      have hn1 := List.pairwise_cons.mp hn.1
      have hab : a = b := by
        rcases Nat.lt_trichotomy a b with hl | hl | hl
        · have := h a
          rw [readByte, readByte, look_of_not_mem ((b, y) :: q) a] at this
          · simp [look] at this; exact absurd this hx
          · intro c hc
            rcases List.mem_cons.mp hc with rfl | hc
            · exact Nat.ne_of_gt hl
            · have := hn1.1 c hc; simp at this; omega
        · exact hl
        · have := h b
          rw [readByte, readByte, look_of_not_mem ((a, x) :: r) b] at this
          · simp [look] at this; exact absurd this.symm hy
          · intro c hc
            rcases List.mem_cons.mp hc with rfl | hc
            · exact Nat.ne_of_gt hl
            · have := hm1.1 c hc; simp at this; omega
      subst hab
      have hxy : x = y := by have := h a; simpa [readByte, look] using this
      subst hxy
      congr 1
      refine ih ⟨hm1.2, fun c hc => hm.2 c (List.mem_cons_of_mem _ hc)⟩ ⟨hn1.2, fun c hc => hn.2 c (List.mem_cons_of_mem _ hc)⟩ fun k => ?_
      by_cases hk : k = a
      · subst hk
        rw [readByte, readByte, look_of_not_mem r k fun c hc => by have := hm1.1 c hc; simp at this; omega,
          look_of_not_mem q k fun c hc => by have := hn1.1 c hc; simp at this; omega]
      · have := h k; simpa [readByte, look, Ne.symm hk] using this

end Sys2Proof.Machine
end

