-- ==== Sys2Proof/Laws/Cells.lean ====
section
/-! SUPPORT. Ranges of cells that are moved as a whole: they stay in canonical form, and every byte outside reads as
before. -/

namespace Sys2Proof.Machine

theorem withinCells_bounds (hi : Nat) (cs : Memory) (lo : Nat) :
    ∀ c ∈ withinCells lo hi cs, lo ≤ c.1 ∧ c.1 < hi ∧ c.2 ≠ 0 := by
  induction cs generalizing lo with
  | nil => intro c h; simp [withinCells] at h
  | cons e r ih =>
    intro c h
    unfold withinCells at h
    split at h
    · rename_i hc
      simp only [Bool.and_eq_true, decide_eq_true_eq, bne_iff_ne] at hc
      rcases List.mem_cons.mp h with rfl | h
      · exact ⟨hc.1.1, hc.1.2, hc.2⟩
      · have := ih _ c h
        exact ⟨by omega, this.2⟩
    · exact ih _ c h

/-- Cells of a range are in canonical form, whatever the list. -/
theorem wf_withinCells (hi : Nat) (cs : Memory) (lo : Nat) : Memory.wf (withinCells lo hi cs) = true := by
  rw [wf_iff]
  refine ⟨?_, fun c h => (withinCells_bounds hi cs lo c h).2.2⟩
  induction cs generalizing lo with
  | nil => simp [withinCells]
  | cons e r ih =>
    unfold withinCells
    split
    · rw [List.pairwise_cons]
      exact ⟨fun c h => by have := withinCells_bounds hi r _ c h; omega, ih _⟩
    · exact ih _

theorem wf_putCells {m : Memory} (h : m.wf) (a n : Nat) (cs : Memory) : (putCells m a n cs).wf = true := by
  unfold putCells
  refine wf_append (wf_append (wf_filter h _) (wf_withinCells _ _ _) ?_) (wf_filter h _) ?_
  · intro x hx y hy
    have := withinCells_bounds _ _ _ y hy
    simp only [List.mem_filter, decide_eq_true_eq] at hx
    omega
  · intro x hx y hy
    simp only [List.mem_append, List.mem_filter, decide_eq_true_eq] at hx hy
    rcases hx with hx | hx
    · omega
    · have := withinCells_bounds _ _ _ x hx; omega

theorem readByte_putCells_of_out (m : Memory) (a n b : Nat) (cs : Memory) (h : b < a ∨ a + n ≤ b) :
    readByte (putCells m a n cs) b = readByte m b := by
  unfold putCells readByte
  rcases h with h | h
  · rw [List.append_assoc, look_append_none _ _ _ (by
      intro c hc
      simp only [List.mem_append, List.mem_filter, decide_eq_true_eq] at hc
      rcases hc with hc | hc
      · have := withinCells_bounds _ _ _ c hc; omega
      · omega)]
    exact look_filter _ _ _ fun x => by simpa using h
  · rw [look_append _ _ _ (by
      intro c hc
      simp only [List.mem_append, List.mem_filter, decide_eq_true_eq] at hc
      rcases hc with hc | hc
      · omega
      · have := withinCells_bounds _ _ _ c hc; omega)]
    exact look_filter _ _ _ fun x => by simpa using h

/-- Moved cells stay in canonical form. -/
theorem wf_shiftCells {m : Memory} (h : m.wf) (a n b : Nat) : Memory.wf (shiftCells m a n b) = true := by
  have hf := (wf_iff _).mp (wf_filter h fun c => a ≤ c.1 && c.1 < a + n)
  rw [wf_iff]
  unfold shiftCells
  refine ⟨?_, ?_⟩
  · rw [List.pairwise_map]
    refine List.Pairwise.imp_of_mem ?_ hf.1
    intro x y hx hy hxy
    simp only [List.mem_filter, Bool.and_eq_true, decide_eq_true_eq] at hx hy
    simp only
    omega
  · intro c hc
    obtain ⟨d, hd, rfl⟩ := List.mem_map.mp hc
    exact hf.2 d hd

end Sys2Proof.Machine
end

