-- ==== Sys2Proof/Laws/State.lean ====
section
/-! SUPPORT. One lemma for each field and each update of the state. -/

namespace Sys2Proof.Machine

variable (s : State) (t i n : Nat) (x : Tile) (y : Island) (f : Tile → Tile) (m : Told)

/-! ### setTile -/

@[simp] theorem State.setTile_pcc : (s.setTile t x).pcc = s.pcc := rfl
@[simp] theorem State.setTile_wakes : (s.setTile t x).wakes = s.wakes := rfl
@[simp] theorem State.setTile_boot : (s.setTile t x).boot = s.boot := rfl
@[simp] theorem State.setTile_isl : (s.setTile t x).isl = s.isl := rfl
@[simp] theorem State.setTile_mem : (s.setTile t x).mem = s.mem := rfl
@[simp] theorem State.setTile_mem2 : (s.setTile t x).mem2 = s.mem2 := rfl
@[simp] theorem State.setTile_hostMem : (s.setTile t x).hostMem = s.hostMem := rfl
@[simp] theorem State.setTile_lineKeys : (s.setTile t x).lineKeys = s.lineKeys := rfl
@[simp] theorem State.setTile_lineKeys2 : (s.setTile t x).lineKeys2 = s.lineKeys2 := rfl
@[simp] theorem State.setTile_homes : (s.setTile t x).homes = s.homes := rfl
@[simp] theorem State.setTile_tags : (s.setTile t x).tags = s.tags := rfl
@[simp] theorem State.setTile_keys : (s.setTile t x).keys = s.keys := rfl
@[simp] theorem State.setTile_regions : (s.setTile t x).regions = s.regions := rfl
@[simp] theorem State.setTile_counts : (s.setTile t x).counts = s.counts := rfl
@[simp] theorem State.setTile_caches : (s.setTile t x).caches = s.caches := rfl
@[simp] theorem State.setTile_lampWord : (s.setTile t x).lampWord = s.lampWord := rfl
@[simp] theorem State.setTile_phases : (s.setTile t x).phases = s.phases := rfl
@[simp] theorem State.setTile_barriers : (s.setTile t x).barriers = s.barriers := rfl
@[simp] theorem State.setTile_notices : (s.setTile t x).notices = s.notices := rfl
@[simp] theorem State.setTile_delivered : (s.setTile t x).delivered = s.delivered := rfl
@[simp] theorem State.setTile_launches : (s.setTile t x).launches = s.launches := rfl
@[simp] theorem State.setTile_serial : (s.setTile t x).serial = s.serial := rfl
@[simp] theorem State.setTile_lastBound : (s.setTile t x).lastBound = s.lastBound := rfl
@[simp] theorem State.setTile_reserved : (s.setTile t x).reserved = s.reserved := rfl
@[simp] theorem State.setTile_timed : (s.setTile t x).timed = s.timed := rfl
@[simp] theorem State.setTile_slots : (s.setTile t x).slots = s.slots := rfl
@[simp] theorem State.setTile_sessions : (s.setTile t x).sessions = s.sessions := rfl
@[simp] theorem State.setTile_images : (s.setTile t x).images = s.images := rfl
@[simp] theorem State.setTile_params : (s.setTile t x).params = s.params := rfl
@[simp] theorem State.setTile_lines : (s.setTile t x).lines = s.lines := rfl
@[simp] theorem State.setTile_landings : (s.setTile t x).landings = s.landings := rfl
@[simp] theorem State.setTile_ordered : (s.setTile t x).ordered = s.ordered := rfl
@[simp] theorem State.setTile_links : (s.setTile t x).links = s.links := rfl
@[simp] theorem State.setTile_routes : (s.setTile t x).routes = s.routes := rfl
@[simp] theorem State.setTile_parent : (s.setTile t x).parent = s.parent := rfl
@[simp] theorem State.setTile_hops : (s.setTile t x).hops = s.hops := rfl
@[simp] theorem State.setTile_record : (s.setTile t x).record = s.record := rfl
@[simp] theorem State.setTile_firmware : (s.setTile t x).firmware = s.firmware := rfl
@[simp] theorem State.setTile_waking : (s.setTile t x).waking = s.waking := rfl
@[simp] theorem State.setTile_ports : (s.setTile t x).ports = s.ports := rfl
@[simp] theorem State.setTile_owner : (s.setTile t x).owner = s.owner := rfl
@[simp] theorem State.setTile_ownerSecure : (s.setTile t x).ownerSecure = s.ownerSecure := rfl
@[simp] theorem State.setTile_ownerWas : (s.setTile t x).ownerWas = s.ownerWas := rfl
@[simp] theorem State.setTile_handover : (s.setTile t x).handover = s.handover := rfl
@[simp] theorem State.setTile_windows : (s.setTile t x).windows = s.windows := rfl
@[simp] theorem State.setTile_aperture : (s.setTile t x).aperture = s.aperture := rfl
@[simp] theorem State.setTile_ptpNs : (s.setTile t x).ptpNs = s.ptpNs := rfl
@[simp] theorem State.setTile_ptpFrac : (s.setTile t x).ptpFrac = s.ptpFrac := rfl
@[simp] theorem State.setTile_ptpSlew : (s.setTile t x).ptpSlew = s.ptpSlew := rfl
@[simp] theorem State.setTile_svc : (s.setTile t x).svc = s.svc := rfl
@[simp] theorem State.setTile_svcNew : (s.setTile t x).svcNew = s.svcNew := rfl
@[simp] theorem State.setTile_corrected : (s.setTile t x).corrected = s.corrected := rfl
@[simp] theorem State.setTile_baseDie : (s.setTile t x).baseDie = s.baseDie := rfl
@[simp] theorem State.setTile_log : (s.setTile t x).log = s.log := rfl
@[simp] theorem State.setTile_overwritten : (s.setTile t x).overwritten = s.overwritten := rfl
@[simp] theorem State.setTile_badTiles : (s.setTile t x).badTiles = s.badTiles := rfl
@[simp] theorem State.setTile_badVaults : (s.setTile t x).badVaults = s.badVaults := rfl
@[simp] theorem State.setTile_badLinks : (s.setTile t x).badLinks = s.badLinks := rfl
@[simp] theorem State.setTile_capacity : (s.setTile t x).capacity = s.capacity := rfl
@[simp] theorem State.setTile_unitsDown : (s.setTile t x).unitsDown = s.unitsDown := rfl
@[simp] theorem State.setTile_pushRefused : (s.setTile t x).pushRefused = s.pushRefused := rfl
@[simp] theorem State.setTile_resetting : (s.setTile t x).resetting = s.resetting := rfl
@[simp] theorem State.setTile_told : (s.setTile t x).told = s.told := rfl
@[simp] theorem State.setTile_nextId : (s.setTile t x).nextId = s.nextId := rfl
@[simp] theorem State.setTile_freeCtr : (s.setTile t x).freeCtr = s.freeCtr := rfl
@[simp] theorem State.setTile_inbox : (s.setTile t x).inbox = s.inbox := rfl
@[simp] theorem State.setTile_agenda : (s.setTile t x).agenda = s.agenda := rfl
@[simp] theorem State.setTile_turn : (s.setTile t x).turn = s.turn := rfl
@[simp] theorem State.setTile_out : (s.setTile t x).out = s.out := rfl
@[simp] theorem State.setTile_focus : (s.setTile t x).focus = s.focus := rfl
@[simp] theorem State.setTile_pacing : (s.setTile t x).pacing = s.pacing := rfl

/-! ### onTile -/

@[simp] theorem State.onTile_pcc : (s.onTile t f).pcc = s.pcc := rfl
@[simp] theorem State.onTile_wakes : (s.onTile t f).wakes = s.wakes := rfl
@[simp] theorem State.onTile_boot : (s.onTile t f).boot = s.boot := rfl
@[simp] theorem State.onTile_isl : (s.onTile t f).isl = s.isl := rfl
@[simp] theorem State.onTile_mem : (s.onTile t f).mem = s.mem := rfl
@[simp] theorem State.onTile_mem2 : (s.onTile t f).mem2 = s.mem2 := rfl
@[simp] theorem State.onTile_hostMem : (s.onTile t f).hostMem = s.hostMem := rfl
@[simp] theorem State.onTile_lineKeys : (s.onTile t f).lineKeys = s.lineKeys := rfl
@[simp] theorem State.onTile_lineKeys2 : (s.onTile t f).lineKeys2 = s.lineKeys2 := rfl
@[simp] theorem State.onTile_homes : (s.onTile t f).homes = s.homes := rfl
@[simp] theorem State.onTile_tags : (s.onTile t f).tags = s.tags := rfl
@[simp] theorem State.onTile_keys : (s.onTile t f).keys = s.keys := rfl
@[simp] theorem State.onTile_regions : (s.onTile t f).regions = s.regions := rfl
@[simp] theorem State.onTile_counts : (s.onTile t f).counts = s.counts := rfl
@[simp] theorem State.onTile_caches : (s.onTile t f).caches = s.caches := rfl
@[simp] theorem State.onTile_lampWord : (s.onTile t f).lampWord = s.lampWord := rfl
@[simp] theorem State.onTile_phases : (s.onTile t f).phases = s.phases := rfl
@[simp] theorem State.onTile_barriers : (s.onTile t f).barriers = s.barriers := rfl
@[simp] theorem State.onTile_notices : (s.onTile t f).notices = s.notices := rfl
@[simp] theorem State.onTile_delivered : (s.onTile t f).delivered = s.delivered := rfl
@[simp] theorem State.onTile_launches : (s.onTile t f).launches = s.launches := rfl
@[simp] theorem State.onTile_serial : (s.onTile t f).serial = s.serial := rfl
@[simp] theorem State.onTile_lastBound : (s.onTile t f).lastBound = s.lastBound := rfl
@[simp] theorem State.onTile_reserved : (s.onTile t f).reserved = s.reserved := rfl
@[simp] theorem State.onTile_timed : (s.onTile t f).timed = s.timed := rfl
@[simp] theorem State.onTile_slots : (s.onTile t f).slots = s.slots := rfl
@[simp] theorem State.onTile_sessions : (s.onTile t f).sessions = s.sessions := rfl
@[simp] theorem State.onTile_images : (s.onTile t f).images = s.images := rfl
@[simp] theorem State.onTile_params : (s.onTile t f).params = s.params := rfl
@[simp] theorem State.onTile_lines : (s.onTile t f).lines = s.lines := rfl
@[simp] theorem State.onTile_landings : (s.onTile t f).landings = s.landings := rfl
@[simp] theorem State.onTile_ordered : (s.onTile t f).ordered = s.ordered := rfl
@[simp] theorem State.onTile_links : (s.onTile t f).links = s.links := rfl
@[simp] theorem State.onTile_routes : (s.onTile t f).routes = s.routes := rfl
@[simp] theorem State.onTile_parent : (s.onTile t f).parent = s.parent := rfl
@[simp] theorem State.onTile_hops : (s.onTile t f).hops = s.hops := rfl
@[simp] theorem State.onTile_record : (s.onTile t f).record = s.record := rfl
@[simp] theorem State.onTile_firmware : (s.onTile t f).firmware = s.firmware := rfl
@[simp] theorem State.onTile_waking : (s.onTile t f).waking = s.waking := rfl
@[simp] theorem State.onTile_ports : (s.onTile t f).ports = s.ports := rfl
@[simp] theorem State.onTile_owner : (s.onTile t f).owner = s.owner := rfl
@[simp] theorem State.onTile_ownerSecure : (s.onTile t f).ownerSecure = s.ownerSecure := rfl
@[simp] theorem State.onTile_ownerWas : (s.onTile t f).ownerWas = s.ownerWas := rfl
@[simp] theorem State.onTile_handover : (s.onTile t f).handover = s.handover := rfl
@[simp] theorem State.onTile_windows : (s.onTile t f).windows = s.windows := rfl
@[simp] theorem State.onTile_aperture : (s.onTile t f).aperture = s.aperture := rfl
@[simp] theorem State.onTile_ptpNs : (s.onTile t f).ptpNs = s.ptpNs := rfl
@[simp] theorem State.onTile_ptpFrac : (s.onTile t f).ptpFrac = s.ptpFrac := rfl
@[simp] theorem State.onTile_ptpSlew : (s.onTile t f).ptpSlew = s.ptpSlew := rfl
@[simp] theorem State.onTile_svc : (s.onTile t f).svc = s.svc := rfl
@[simp] theorem State.onTile_svcNew : (s.onTile t f).svcNew = s.svcNew := rfl
@[simp] theorem State.onTile_corrected : (s.onTile t f).corrected = s.corrected := rfl
@[simp] theorem State.onTile_baseDie : (s.onTile t f).baseDie = s.baseDie := rfl
@[simp] theorem State.onTile_log : (s.onTile t f).log = s.log := rfl
@[simp] theorem State.onTile_overwritten : (s.onTile t f).overwritten = s.overwritten := rfl
@[simp] theorem State.onTile_badTiles : (s.onTile t f).badTiles = s.badTiles := rfl
@[simp] theorem State.onTile_badVaults : (s.onTile t f).badVaults = s.badVaults := rfl
@[simp] theorem State.onTile_badLinks : (s.onTile t f).badLinks = s.badLinks := rfl
@[simp] theorem State.onTile_capacity : (s.onTile t f).capacity = s.capacity := rfl
@[simp] theorem State.onTile_unitsDown : (s.onTile t f).unitsDown = s.unitsDown := rfl
@[simp] theorem State.onTile_pushRefused : (s.onTile t f).pushRefused = s.pushRefused := rfl
@[simp] theorem State.onTile_resetting : (s.onTile t f).resetting = s.resetting := rfl
@[simp] theorem State.onTile_told : (s.onTile t f).told = s.told := rfl
@[simp] theorem State.onTile_nextId : (s.onTile t f).nextId = s.nextId := rfl
@[simp] theorem State.onTile_freeCtr : (s.onTile t f).freeCtr = s.freeCtr := rfl
@[simp] theorem State.onTile_inbox : (s.onTile t f).inbox = s.inbox := rfl
@[simp] theorem State.onTile_agenda : (s.onTile t f).agenda = s.agenda := rfl
@[simp] theorem State.onTile_turn : (s.onTile t f).turn = s.turn := rfl
@[simp] theorem State.onTile_out : (s.onTile t f).out = s.out := rfl
@[simp] theorem State.onTile_focus : (s.onTile t f).focus = s.focus := rfl
@[simp] theorem State.onTile_pacing : (s.onTile t f).pacing = s.pacing := rfl

/-! ### setIsland -/

@[simp] theorem State.setIsland_pcc : (s.setIsland i y).pcc = s.pcc := rfl
@[simp] theorem State.setIsland_wakes : (s.setIsland i y).wakes = s.wakes := rfl
@[simp] theorem State.setIsland_boot : (s.setIsland i y).boot = s.boot := rfl
@[simp] theorem State.setIsland_tiles : (s.setIsland i y).tiles = s.tiles := rfl
@[simp] theorem State.setIsland_mem : (s.setIsland i y).mem = s.mem := rfl
@[simp] theorem State.setIsland_mem2 : (s.setIsland i y).mem2 = s.mem2 := rfl
@[simp] theorem State.setIsland_hostMem : (s.setIsland i y).hostMem = s.hostMem := rfl
@[simp] theorem State.setIsland_lineKeys : (s.setIsland i y).lineKeys = s.lineKeys := rfl
@[simp] theorem State.setIsland_lineKeys2 : (s.setIsland i y).lineKeys2 = s.lineKeys2 := rfl
@[simp] theorem State.setIsland_homes : (s.setIsland i y).homes = s.homes := rfl
@[simp] theorem State.setIsland_tags : (s.setIsland i y).tags = s.tags := rfl
@[simp] theorem State.setIsland_keys : (s.setIsland i y).keys = s.keys := rfl
@[simp] theorem State.setIsland_regions : (s.setIsland i y).regions = s.regions := rfl
@[simp] theorem State.setIsland_counts : (s.setIsland i y).counts = s.counts := rfl
@[simp] theorem State.setIsland_caches : (s.setIsland i y).caches = s.caches := rfl
@[simp] theorem State.setIsland_lampWord : (s.setIsland i y).lampWord = s.lampWord := rfl
@[simp] theorem State.setIsland_phases : (s.setIsland i y).phases = s.phases := rfl
@[simp] theorem State.setIsland_barriers : (s.setIsland i y).barriers = s.barriers := rfl
@[simp] theorem State.setIsland_notices : (s.setIsland i y).notices = s.notices := rfl
@[simp] theorem State.setIsland_delivered : (s.setIsland i y).delivered = s.delivered := rfl
@[simp] theorem State.setIsland_launches : (s.setIsland i y).launches = s.launches := rfl
@[simp] theorem State.setIsland_serial : (s.setIsland i y).serial = s.serial := rfl
@[simp] theorem State.setIsland_lastBound : (s.setIsland i y).lastBound = s.lastBound := rfl
@[simp] theorem State.setIsland_reserved : (s.setIsland i y).reserved = s.reserved := rfl
@[simp] theorem State.setIsland_timed : (s.setIsland i y).timed = s.timed := rfl
@[simp] theorem State.setIsland_slots : (s.setIsland i y).slots = s.slots := rfl
@[simp] theorem State.setIsland_sessions : (s.setIsland i y).sessions = s.sessions := rfl
@[simp] theorem State.setIsland_images : (s.setIsland i y).images = s.images := rfl
@[simp] theorem State.setIsland_params : (s.setIsland i y).params = s.params := rfl
@[simp] theorem State.setIsland_lines : (s.setIsland i y).lines = s.lines := rfl
@[simp] theorem State.setIsland_landings : (s.setIsland i y).landings = s.landings := rfl
@[simp] theorem State.setIsland_ordered : (s.setIsland i y).ordered = s.ordered := rfl
@[simp] theorem State.setIsland_links : (s.setIsland i y).links = s.links := rfl
@[simp] theorem State.setIsland_routes : (s.setIsland i y).routes = s.routes := rfl
@[simp] theorem State.setIsland_parent : (s.setIsland i y).parent = s.parent := rfl
@[simp] theorem State.setIsland_hops : (s.setIsland i y).hops = s.hops := rfl
@[simp] theorem State.setIsland_record : (s.setIsland i y).record = s.record := rfl
@[simp] theorem State.setIsland_firmware : (s.setIsland i y).firmware = s.firmware := rfl
@[simp] theorem State.setIsland_waking : (s.setIsland i y).waking = s.waking := rfl
@[simp] theorem State.setIsland_ports : (s.setIsland i y).ports = s.ports := rfl
@[simp] theorem State.setIsland_owner : (s.setIsland i y).owner = s.owner := rfl
@[simp] theorem State.setIsland_ownerSecure : (s.setIsland i y).ownerSecure = s.ownerSecure := rfl
@[simp] theorem State.setIsland_ownerWas : (s.setIsland i y).ownerWas = s.ownerWas := rfl
@[simp] theorem State.setIsland_handover : (s.setIsland i y).handover = s.handover := rfl
@[simp] theorem State.setIsland_windows : (s.setIsland i y).windows = s.windows := rfl
@[simp] theorem State.setIsland_aperture : (s.setIsland i y).aperture = s.aperture := rfl
@[simp] theorem State.setIsland_ptpNs : (s.setIsland i y).ptpNs = s.ptpNs := rfl
@[simp] theorem State.setIsland_ptpFrac : (s.setIsland i y).ptpFrac = s.ptpFrac := rfl
@[simp] theorem State.setIsland_ptpSlew : (s.setIsland i y).ptpSlew = s.ptpSlew := rfl
@[simp] theorem State.setIsland_svc : (s.setIsland i y).svc = s.svc := rfl
@[simp] theorem State.setIsland_svcNew : (s.setIsland i y).svcNew = s.svcNew := rfl
@[simp] theorem State.setIsland_corrected : (s.setIsland i y).corrected = s.corrected := rfl
@[simp] theorem State.setIsland_baseDie : (s.setIsland i y).baseDie = s.baseDie := rfl
@[simp] theorem State.setIsland_log : (s.setIsland i y).log = s.log := rfl
@[simp] theorem State.setIsland_overwritten : (s.setIsland i y).overwritten = s.overwritten := rfl
@[simp] theorem State.setIsland_badTiles : (s.setIsland i y).badTiles = s.badTiles := rfl
@[simp] theorem State.setIsland_badVaults : (s.setIsland i y).badVaults = s.badVaults := rfl
@[simp] theorem State.setIsland_badLinks : (s.setIsland i y).badLinks = s.badLinks := rfl
@[simp] theorem State.setIsland_capacity : (s.setIsland i y).capacity = s.capacity := rfl
@[simp] theorem State.setIsland_unitsDown : (s.setIsland i y).unitsDown = s.unitsDown := rfl
@[simp] theorem State.setIsland_pushRefused : (s.setIsland i y).pushRefused = s.pushRefused := rfl
@[simp] theorem State.setIsland_resetting : (s.setIsland i y).resetting = s.resetting := rfl
@[simp] theorem State.setIsland_told : (s.setIsland i y).told = s.told := rfl
@[simp] theorem State.setIsland_nextId : (s.setIsland i y).nextId = s.nextId := rfl
@[simp] theorem State.setIsland_freeCtr : (s.setIsland i y).freeCtr = s.freeCtr := rfl
@[simp] theorem State.setIsland_inbox : (s.setIsland i y).inbox = s.inbox := rfl
@[simp] theorem State.setIsland_agenda : (s.setIsland i y).agenda = s.agenda := rfl
@[simp] theorem State.setIsland_turn : (s.setIsland i y).turn = s.turn := rfl
@[simp] theorem State.setIsland_out : (s.setIsland i y).out = s.out := rfl
@[simp] theorem State.setIsland_focus : (s.setIsland i y).focus = s.focus := rfl
@[simp] theorem State.setIsland_pacing : (s.setIsland i y).pacing = s.pacing := rfl

/-! ### nextFree -/

@[simp] theorem State.nextFree_pcc : s.nextFree.pcc = s.pcc := rfl
@[simp] theorem State.nextFree_wakes : s.nextFree.wakes = s.wakes := rfl
@[simp] theorem State.nextFree_boot : s.nextFree.boot = s.boot := rfl
@[simp] theorem State.nextFree_tiles : s.nextFree.tiles = s.tiles := rfl
@[simp] theorem State.nextFree_isl : s.nextFree.isl = s.isl := rfl
@[simp] theorem State.nextFree_mem : s.nextFree.mem = s.mem := rfl
@[simp] theorem State.nextFree_mem2 : s.nextFree.mem2 = s.mem2 := rfl
@[simp] theorem State.nextFree_hostMem : s.nextFree.hostMem = s.hostMem := rfl
@[simp] theorem State.nextFree_lineKeys : s.nextFree.lineKeys = s.lineKeys := rfl
@[simp] theorem State.nextFree_lineKeys2 : s.nextFree.lineKeys2 = s.lineKeys2 := rfl
@[simp] theorem State.nextFree_homes : s.nextFree.homes = s.homes := rfl
@[simp] theorem State.nextFree_tags : s.nextFree.tags = s.tags := rfl
@[simp] theorem State.nextFree_keys : s.nextFree.keys = s.keys := rfl
@[simp] theorem State.nextFree_regions : s.nextFree.regions = s.regions := rfl
@[simp] theorem State.nextFree_counts : s.nextFree.counts = s.counts := rfl
@[simp] theorem State.nextFree_caches : s.nextFree.caches = s.caches := rfl
@[simp] theorem State.nextFree_lampWord : s.nextFree.lampWord = s.lampWord := rfl
@[simp] theorem State.nextFree_phases : s.nextFree.phases = s.phases := rfl
@[simp] theorem State.nextFree_barriers : s.nextFree.barriers = s.barriers := rfl
@[simp] theorem State.nextFree_notices : s.nextFree.notices = s.notices := rfl
@[simp] theorem State.nextFree_delivered : s.nextFree.delivered = s.delivered := rfl
@[simp] theorem State.nextFree_launches : s.nextFree.launches = s.launches := rfl
@[simp] theorem State.nextFree_serial : s.nextFree.serial = s.serial := rfl
@[simp] theorem State.nextFree_lastBound : s.nextFree.lastBound = s.lastBound := rfl
@[simp] theorem State.nextFree_reserved : s.nextFree.reserved = s.reserved := rfl
@[simp] theorem State.nextFree_timed : s.nextFree.timed = s.timed := rfl
@[simp] theorem State.nextFree_slots : s.nextFree.slots = s.slots := rfl
@[simp] theorem State.nextFree_sessions : s.nextFree.sessions = s.sessions := rfl
@[simp] theorem State.nextFree_images : s.nextFree.images = s.images := rfl
@[simp] theorem State.nextFree_params : s.nextFree.params = s.params := rfl
@[simp] theorem State.nextFree_lines : s.nextFree.lines = s.lines := rfl
@[simp] theorem State.nextFree_landings : s.nextFree.landings = s.landings := rfl
@[simp] theorem State.nextFree_ordered : s.nextFree.ordered = s.ordered := rfl
@[simp] theorem State.nextFree_links : s.nextFree.links = s.links := rfl
@[simp] theorem State.nextFree_routes : s.nextFree.routes = s.routes := rfl
@[simp] theorem State.nextFree_parent : s.nextFree.parent = s.parent := rfl
@[simp] theorem State.nextFree_hops : s.nextFree.hops = s.hops := rfl
@[simp] theorem State.nextFree_record : s.nextFree.record = s.record := rfl
@[simp] theorem State.nextFree_firmware : s.nextFree.firmware = s.firmware := rfl
@[simp] theorem State.nextFree_waking : s.nextFree.waking = s.waking := rfl
@[simp] theorem State.nextFree_ports : s.nextFree.ports = s.ports := rfl
@[simp] theorem State.nextFree_owner : s.nextFree.owner = s.owner := rfl
@[simp] theorem State.nextFree_ownerSecure : s.nextFree.ownerSecure = s.ownerSecure := rfl
@[simp] theorem State.nextFree_ownerWas : s.nextFree.ownerWas = s.ownerWas := rfl
@[simp] theorem State.nextFree_handover : s.nextFree.handover = s.handover := rfl
@[simp] theorem State.nextFree_windows : s.nextFree.windows = s.windows := rfl
@[simp] theorem State.nextFree_aperture : s.nextFree.aperture = s.aperture := rfl
@[simp] theorem State.nextFree_ptpNs : s.nextFree.ptpNs = s.ptpNs := rfl
@[simp] theorem State.nextFree_ptpFrac : s.nextFree.ptpFrac = s.ptpFrac := rfl
@[simp] theorem State.nextFree_ptpSlew : s.nextFree.ptpSlew = s.ptpSlew := rfl
@[simp] theorem State.nextFree_svc : s.nextFree.svc = s.svc := rfl
@[simp] theorem State.nextFree_svcNew : s.nextFree.svcNew = s.svcNew := rfl
@[simp] theorem State.nextFree_corrected : s.nextFree.corrected = s.corrected := rfl
@[simp] theorem State.nextFree_baseDie : s.nextFree.baseDie = s.baseDie := rfl
@[simp] theorem State.nextFree_log : s.nextFree.log = s.log := rfl
@[simp] theorem State.nextFree_overwritten : s.nextFree.overwritten = s.overwritten := rfl
@[simp] theorem State.nextFree_badTiles : s.nextFree.badTiles = s.badTiles := rfl
@[simp] theorem State.nextFree_badVaults : s.nextFree.badVaults = s.badVaults := rfl
@[simp] theorem State.nextFree_badLinks : s.nextFree.badLinks = s.badLinks := rfl
@[simp] theorem State.nextFree_capacity : s.nextFree.capacity = s.capacity := rfl
@[simp] theorem State.nextFree_unitsDown : s.nextFree.unitsDown = s.unitsDown := rfl
@[simp] theorem State.nextFree_pushRefused : s.nextFree.pushRefused = s.pushRefused := rfl
@[simp] theorem State.nextFree_resetting : s.nextFree.resetting = s.resetting := rfl
@[simp] theorem State.nextFree_told : s.nextFree.told = s.told := rfl
@[simp] theorem State.nextFree_nextId : s.nextFree.nextId = s.nextId := rfl
@[simp] theorem State.nextFree_inbox : s.nextFree.inbox = s.inbox := rfl
@[simp] theorem State.nextFree_agenda : s.nextFree.agenda = s.agenda := rfl
@[simp] theorem State.nextFree_turn : s.nextFree.turn = s.turn := rfl
@[simp] theorem State.nextFree_out : s.nextFree.out = s.out := rfl
@[simp] theorem State.nextFree_focus : s.nextFree.focus = s.focus := rfl
@[simp] theorem State.nextFree_pacing : s.nextFree.pacing = s.pacing := rfl

/-! ### fresh_snd -/

@[simp] theorem State.fresh_snd_pcc : s.fresh.2.pcc = s.pcc := rfl
@[simp] theorem State.fresh_snd_wakes : s.fresh.2.wakes = s.wakes := rfl
@[simp] theorem State.fresh_snd_boot : s.fresh.2.boot = s.boot := rfl
@[simp] theorem State.fresh_snd_tiles : s.fresh.2.tiles = s.tiles := rfl
@[simp] theorem State.fresh_snd_isl : s.fresh.2.isl = s.isl := rfl
@[simp] theorem State.fresh_snd_mem : s.fresh.2.mem = s.mem := rfl
@[simp] theorem State.fresh_snd_mem2 : s.fresh.2.mem2 = s.mem2 := rfl
@[simp] theorem State.fresh_snd_hostMem : s.fresh.2.hostMem = s.hostMem := rfl
@[simp] theorem State.fresh_snd_lineKeys : s.fresh.2.lineKeys = s.lineKeys := rfl
@[simp] theorem State.fresh_snd_lineKeys2 : s.fresh.2.lineKeys2 = s.lineKeys2 := rfl
@[simp] theorem State.fresh_snd_homes : s.fresh.2.homes = s.homes := rfl
@[simp] theorem State.fresh_snd_tags : s.fresh.2.tags = s.tags := rfl
@[simp] theorem State.fresh_snd_keys : s.fresh.2.keys = s.keys := rfl
@[simp] theorem State.fresh_snd_regions : s.fresh.2.regions = s.regions := rfl
@[simp] theorem State.fresh_snd_counts : s.fresh.2.counts = s.counts := rfl
@[simp] theorem State.fresh_snd_caches : s.fresh.2.caches = s.caches := rfl
@[simp] theorem State.fresh_snd_lampWord : s.fresh.2.lampWord = s.lampWord := rfl
@[simp] theorem State.fresh_snd_phases : s.fresh.2.phases = s.phases := rfl
@[simp] theorem State.fresh_snd_barriers : s.fresh.2.barriers = s.barriers := rfl
@[simp] theorem State.fresh_snd_notices : s.fresh.2.notices = s.notices := rfl
@[simp] theorem State.fresh_snd_delivered : s.fresh.2.delivered = s.delivered := rfl
@[simp] theorem State.fresh_snd_launches : s.fresh.2.launches = s.launches := rfl
@[simp] theorem State.fresh_snd_serial : s.fresh.2.serial = s.serial := rfl
@[simp] theorem State.fresh_snd_lastBound : s.fresh.2.lastBound = s.lastBound := rfl
@[simp] theorem State.fresh_snd_reserved : s.fresh.2.reserved = s.reserved := rfl
@[simp] theorem State.fresh_snd_timed : s.fresh.2.timed = s.timed := rfl
@[simp] theorem State.fresh_snd_slots : s.fresh.2.slots = s.slots := rfl
@[simp] theorem State.fresh_snd_sessions : s.fresh.2.sessions = s.sessions := rfl
@[simp] theorem State.fresh_snd_images : s.fresh.2.images = s.images := rfl
@[simp] theorem State.fresh_snd_params : s.fresh.2.params = s.params := rfl
@[simp] theorem State.fresh_snd_lines : s.fresh.2.lines = s.lines := rfl
@[simp] theorem State.fresh_snd_landings : s.fresh.2.landings = s.landings := rfl
@[simp] theorem State.fresh_snd_ordered : s.fresh.2.ordered = s.ordered := rfl
@[simp] theorem State.fresh_snd_links : s.fresh.2.links = s.links := rfl
@[simp] theorem State.fresh_snd_routes : s.fresh.2.routes = s.routes := rfl
@[simp] theorem State.fresh_snd_parent : s.fresh.2.parent = s.parent := rfl
@[simp] theorem State.fresh_snd_hops : s.fresh.2.hops = s.hops := rfl
@[simp] theorem State.fresh_snd_record : s.fresh.2.record = s.record := rfl
@[simp] theorem State.fresh_snd_firmware : s.fresh.2.firmware = s.firmware := rfl
@[simp] theorem State.fresh_snd_waking : s.fresh.2.waking = s.waking := rfl
@[simp] theorem State.fresh_snd_ports : s.fresh.2.ports = s.ports := rfl
@[simp] theorem State.fresh_snd_owner : s.fresh.2.owner = s.owner := rfl
@[simp] theorem State.fresh_snd_ownerSecure : s.fresh.2.ownerSecure = s.ownerSecure := rfl
@[simp] theorem State.fresh_snd_ownerWas : s.fresh.2.ownerWas = s.ownerWas := rfl
@[simp] theorem State.fresh_snd_handover : s.fresh.2.handover = s.handover := rfl
@[simp] theorem State.fresh_snd_windows : s.fresh.2.windows = s.windows := rfl
@[simp] theorem State.fresh_snd_aperture : s.fresh.2.aperture = s.aperture := rfl
@[simp] theorem State.fresh_snd_ptpNs : s.fresh.2.ptpNs = s.ptpNs := rfl
@[simp] theorem State.fresh_snd_ptpFrac : s.fresh.2.ptpFrac = s.ptpFrac := rfl
@[simp] theorem State.fresh_snd_ptpSlew : s.fresh.2.ptpSlew = s.ptpSlew := rfl
@[simp] theorem State.fresh_snd_svc : s.fresh.2.svc = s.svc := rfl
@[simp] theorem State.fresh_snd_svcNew : s.fresh.2.svcNew = s.svcNew := rfl
@[simp] theorem State.fresh_snd_corrected : s.fresh.2.corrected = s.corrected := rfl
@[simp] theorem State.fresh_snd_baseDie : s.fresh.2.baseDie = s.baseDie := rfl
@[simp] theorem State.fresh_snd_log : s.fresh.2.log = s.log := rfl
@[simp] theorem State.fresh_snd_overwritten : s.fresh.2.overwritten = s.overwritten := rfl
@[simp] theorem State.fresh_snd_badTiles : s.fresh.2.badTiles = s.badTiles := rfl
@[simp] theorem State.fresh_snd_badVaults : s.fresh.2.badVaults = s.badVaults := rfl
@[simp] theorem State.fresh_snd_badLinks : s.fresh.2.badLinks = s.badLinks := rfl
@[simp] theorem State.fresh_snd_capacity : s.fresh.2.capacity = s.capacity := rfl
@[simp] theorem State.fresh_snd_unitsDown : s.fresh.2.unitsDown = s.unitsDown := rfl
@[simp] theorem State.fresh_snd_pushRefused : s.fresh.2.pushRefused = s.pushRefused := rfl
@[simp] theorem State.fresh_snd_resetting : s.fresh.2.resetting = s.resetting := rfl
@[simp] theorem State.fresh_snd_told : s.fresh.2.told = s.told := rfl
@[simp] theorem State.fresh_snd_freeCtr : s.fresh.2.freeCtr = s.freeCtr := rfl
@[simp] theorem State.fresh_snd_inbox : s.fresh.2.inbox = s.inbox := rfl
@[simp] theorem State.fresh_snd_agenda : s.fresh.2.agenda = s.agenda := rfl
@[simp] theorem State.fresh_snd_turn : s.fresh.2.turn = s.turn := rfl
@[simp] theorem State.fresh_snd_out : s.fresh.2.out = s.out := rfl
@[simp] theorem State.fresh_snd_focus : s.fresh.2.focus = s.focus := rfl
@[simp] theorem State.fresh_snd_pacing : s.fresh.2.pacing = s.pacing := rfl

/-! ### tell -/

@[simp] theorem State.tell_pcc : (s.tell n m).pcc = s.pcc := rfl
@[simp] theorem State.tell_wakes : (s.tell n m).wakes = s.wakes := rfl
@[simp] theorem State.tell_boot : (s.tell n m).boot = s.boot := rfl
@[simp] theorem State.tell_tiles : (s.tell n m).tiles = s.tiles := rfl
@[simp] theorem State.tell_isl : (s.tell n m).isl = s.isl := rfl
@[simp] theorem State.tell_mem : (s.tell n m).mem = s.mem := rfl
@[simp] theorem State.tell_mem2 : (s.tell n m).mem2 = s.mem2 := rfl
@[simp] theorem State.tell_hostMem : (s.tell n m).hostMem = s.hostMem := rfl
@[simp] theorem State.tell_lineKeys : (s.tell n m).lineKeys = s.lineKeys := rfl
@[simp] theorem State.tell_lineKeys2 : (s.tell n m).lineKeys2 = s.lineKeys2 := rfl
@[simp] theorem State.tell_homes : (s.tell n m).homes = s.homes := rfl
@[simp] theorem State.tell_tags : (s.tell n m).tags = s.tags := rfl
@[simp] theorem State.tell_keys : (s.tell n m).keys = s.keys := rfl
@[simp] theorem State.tell_regions : (s.tell n m).regions = s.regions := rfl
@[simp] theorem State.tell_counts : (s.tell n m).counts = s.counts := rfl
@[simp] theorem State.tell_caches : (s.tell n m).caches = s.caches := rfl
@[simp] theorem State.tell_lampWord : (s.tell n m).lampWord = s.lampWord := rfl
@[simp] theorem State.tell_phases : (s.tell n m).phases = s.phases := rfl
@[simp] theorem State.tell_barriers : (s.tell n m).barriers = s.barriers := rfl
@[simp] theorem State.tell_notices : (s.tell n m).notices = s.notices := rfl
@[simp] theorem State.tell_delivered : (s.tell n m).delivered = s.delivered := rfl
@[simp] theorem State.tell_launches : (s.tell n m).launches = s.launches := rfl
@[simp] theorem State.tell_serial : (s.tell n m).serial = s.serial := rfl
@[simp] theorem State.tell_lastBound : (s.tell n m).lastBound = s.lastBound := rfl
@[simp] theorem State.tell_reserved : (s.tell n m).reserved = s.reserved := rfl
@[simp] theorem State.tell_timed : (s.tell n m).timed = s.timed := rfl
@[simp] theorem State.tell_slots : (s.tell n m).slots = s.slots := rfl
@[simp] theorem State.tell_sessions : (s.tell n m).sessions = s.sessions := rfl
@[simp] theorem State.tell_images : (s.tell n m).images = s.images := rfl
@[simp] theorem State.tell_params : (s.tell n m).params = s.params := rfl
@[simp] theorem State.tell_lines : (s.tell n m).lines = s.lines := rfl
@[simp] theorem State.tell_landings : (s.tell n m).landings = s.landings := rfl
@[simp] theorem State.tell_ordered : (s.tell n m).ordered = s.ordered := rfl
@[simp] theorem State.tell_links : (s.tell n m).links = s.links := rfl
@[simp] theorem State.tell_routes : (s.tell n m).routes = s.routes := rfl
@[simp] theorem State.tell_parent : (s.tell n m).parent = s.parent := rfl
@[simp] theorem State.tell_hops : (s.tell n m).hops = s.hops := rfl
@[simp] theorem State.tell_record : (s.tell n m).record = s.record := rfl
@[simp] theorem State.tell_firmware : (s.tell n m).firmware = s.firmware := rfl
@[simp] theorem State.tell_waking : (s.tell n m).waking = s.waking := rfl
@[simp] theorem State.tell_ports : (s.tell n m).ports = s.ports := rfl
@[simp] theorem State.tell_owner : (s.tell n m).owner = s.owner := rfl
@[simp] theorem State.tell_ownerSecure : (s.tell n m).ownerSecure = s.ownerSecure := rfl
@[simp] theorem State.tell_ownerWas : (s.tell n m).ownerWas = s.ownerWas := rfl
@[simp] theorem State.tell_handover : (s.tell n m).handover = s.handover := rfl
@[simp] theorem State.tell_windows : (s.tell n m).windows = s.windows := rfl
@[simp] theorem State.tell_aperture : (s.tell n m).aperture = s.aperture := rfl
@[simp] theorem State.tell_ptpNs : (s.tell n m).ptpNs = s.ptpNs := rfl
@[simp] theorem State.tell_ptpFrac : (s.tell n m).ptpFrac = s.ptpFrac := rfl
@[simp] theorem State.tell_ptpSlew : (s.tell n m).ptpSlew = s.ptpSlew := rfl
@[simp] theorem State.tell_svc : (s.tell n m).svc = s.svc := rfl
@[simp] theorem State.tell_svcNew : (s.tell n m).svcNew = s.svcNew := rfl
@[simp] theorem State.tell_corrected : (s.tell n m).corrected = s.corrected := rfl
@[simp] theorem State.tell_baseDie : (s.tell n m).baseDie = s.baseDie := rfl
@[simp] theorem State.tell_log : (s.tell n m).log = s.log := rfl
@[simp] theorem State.tell_overwritten : (s.tell n m).overwritten = s.overwritten := rfl
@[simp] theorem State.tell_badTiles : (s.tell n m).badTiles = s.badTiles := rfl
@[simp] theorem State.tell_badVaults : (s.tell n m).badVaults = s.badVaults := rfl
@[simp] theorem State.tell_badLinks : (s.tell n m).badLinks = s.badLinks := rfl
@[simp] theorem State.tell_capacity : (s.tell n m).capacity = s.capacity := rfl
@[simp] theorem State.tell_unitsDown : (s.tell n m).unitsDown = s.unitsDown := rfl
@[simp] theorem State.tell_pushRefused : (s.tell n m).pushRefused = s.pushRefused := rfl
@[simp] theorem State.tell_resetting : (s.tell n m).resetting = s.resetting := rfl
@[simp] theorem State.tell_nextId : (s.tell n m).nextId = s.nextId := rfl
@[simp] theorem State.tell_freeCtr : (s.tell n m).freeCtr = s.freeCtr := rfl
@[simp] theorem State.tell_inbox : (s.tell n m).inbox = s.inbox := rfl
@[simp] theorem State.tell_agenda : (s.tell n m).agenda = s.agenda := rfl
@[simp] theorem State.tell_turn : (s.tell n m).turn = s.turn := rfl
@[simp] theorem State.tell_out : (s.tell n m).out = s.out := rfl
@[simp] theorem State.tell_focus : (s.tell n m).focus = s.focus := rfl
@[simp] theorem State.tell_pacing : (s.tell n m).pacing = s.pacing := rfl

/-! ### Changes of part of a tile -/

@[simp] theorem State.onSeq_eq (g : Seq → Seq) : s.onSeq t g = s.onTile t fun x => { x with seq := g x.seq } := rfl
@[simp] theorem State.onSys_eq (g : Sys → Sys) : s.onSys t g = s.onTile t fun x => { x with sys := g x.sys } := rfl
@[simp] theorem State.onRegs_eq (g : Regs → Regs) : s.onRegs t g = s.onTile t fun x => { x with regs := g x.regs } := rfl
@[simp] theorem State.onVault_eq (g : Vault → Vault) :
    s.onVault t g = s.onTile t fun x => { x with vault := g x.vault } := rfl

/-! ### Tiles and islands -/

theorem State.tile_setTile (u : Nat) : (s.setTile t x).tile u = if u = t then x else s.tile u :=
  look_insertAt _ _ _ _ _

@[simp] theorem State.tile_setTile_self : (s.setTile t x).tile t = x := look_insertAt_self _ _ _ _

theorem State.tile_onTile (u : Nat) : (s.onTile t f).tile u = if u = t then f (s.tile t) else s.tile u :=
  look_insertAt _ _ _ _ _

@[simp] theorem State.tile_onTile_self : (s.onTile t f).tile t = f (s.tile t) := look_insertAt_self _ _ _ _

theorem State.island_setIsland (j : Nat) : (s.setIsland i y).island j = if j = i then y else s.island j :=
  look_insertAt _ _ _ _ _

@[simp] theorem State.island_setIsland_self : (s.setIsland i y).island i = y := look_insertAt_self _ _ _ _

@[simp] theorem State.tile_setIsland (u : Nat) : (s.setIsland i y).tile u = s.tile u := rfl
@[simp] theorem State.tile_nextFree (u : Nat) : s.nextFree.tile u = s.tile u := rfl
@[simp] theorem State.tile_fresh (u : Nat) : s.fresh.2.tile u = s.tile u := rfl
@[simp] theorem State.tile_tell (u : Nat) : (s.tell n m).tile u = s.tile u := rfl
@[simp] theorem State.island_setTile (j : Nat) : (s.setTile t x).island j = s.island j := rfl
@[simp] theorem State.island_onTile (j : Nat) : (s.onTile t f).island j = s.island j := rfl
@[simp] theorem State.island_nextFree (j : Nat) : s.nextFree.island j = s.island j := rfl
@[simp] theorem State.icc_onTile (u : Nat) : (s.onTile t f).icc u = s.icc u := rfl
@[simp] theorem State.icc_nextFree (u : Nat) : s.nextFree.icc u = s.icc u := rfl
@[simp] theorem State.nextFree_freeCtr : s.nextFree.freeCtr = s.freeCtr + 1 := rfl
@[simp] theorem State.fresh_fst : s.fresh.1 = s.nextId := rfl
@[simp] theorem State.fresh_nextId : s.fresh.2.nextId = s.nextId + 1 := rfl

end Sys2Proof.Machine
end

