-- ==== Sys2Proof/Laws/Flights.lean ====
section
/-! SUPPORT. What the shared operations that put a result in flight, and that write staging, can do: the rest of the
tile and every other tile keep what they hold. -/

namespace Sys2Proof.Machine

/-! ### Results in flight (R27) -/

@[simp] theorem Tile.launchFlight_regs (x : Tile) (f : Flight) : (x.launchFlight f).regs = x.regs := rfl
@[simp] theorem Tile.launchFlight_sys (x : Tile) (f : Flight) : (x.launchFlight f).sys = x.sys := rfl
@[simp] theorem Tile.launchFlight_vault (x : Tile) (f : Flight) : (x.launchFlight f).vault = x.vault := rfl
@[simp] theorem Tile.launchFlight_eng (x : Tile) (f : Flight) : (x.launchFlight f).eng = x.eng := rfl
@[simp] theorem Tile.launchFlight_bar (x : Tile) (f : Flight) : (x.launchFlight f).bar = x.bar := rfl
@[simp] theorem Tile.launchFlight_st (x : Tile) (f : Flight) : (x.launchFlight f).st = x.st := rfl
@[simp] theorem Tile.launchFlight_task (x : Tile) (f : Flight) : (x.launchFlight f).task = x.task := rfl
@[simp] theorem Tile.launchFlight_stall (x : Tile) (f : Flight) : (x.launchFlight f).seq.stall = x.seq.stall := rfl
@[simp] theorem Tile.launchFlight_phase (x : Tile) (f : Flight) : (x.launchFlight f).seq.phase = x.seq.phase := rfl
@[simp] theorem Tile.launchFlight_after (x : Tile) (f : Flight) : (x.launchFlight f).seq.after = x.seq.after := rfl
@[simp] theorem Tile.launchFlight_pc (x : Tile) (f : Flight) : (x.launchFlight f).seq.pc = x.seq.pc := rfl

/-- The flight is there afterwards. -/
theorem Tile.mem_launchFlight (x : Tile) (f : Flight) :
    ∃ g ∈ (x.launchFlight f).seq.flights, g.id = f.id ∧ g.writes = f.writes ∧ g.dests = f.dests ∧ g.ready = f.ready ∧ g.bound = f.bound :=
  ⟨_, List.mem_append_right _ (List.mem_singleton_self _), rfl, rfl, rfl, rfl, rfl⟩

/-- A flight's tile is the tile with the flight; its identifier is the next one. -/
theorem State.flight_tile_self (s : State) (c : Ctx) (b : Nat) (ws : List Write) :
    (s.flight c b ws).tile c.t = (s.tile c.t).launchFlight
      { id := s.fresh.1, slot := c.slot, issue := c.now, ready := c.now + 1, bound := c.now + b
        dests := ws.map Write.loc, writes := ws } := by
  unfold State.flight; simp

theorem State.flight_tile_other (s : State) (c : Ctx) (b : Nat) (ws : List Write) (v : Nat) (h : v ≠ c.t) :
    (s.flight c b ws).tile v = s.tile v := by
  unfold State.flight; simp [State.tile_onTile, h]

theorem State.flight_mem (s : State) (c : Ctx) (b : Nat) (ws : List Write) : (s.flight c b ws).mem = s.mem := by
  unfold State.flight; simp

/-- What every result to a scalar register does to its tile: a flight with the one write, or for s0 nothing. -/
theorem State.flightS_tile_self (s : State) (c : Ctx) (lat : Nat) (d : BitVec 5) (x : Word) :
    let y := (s.flightS c lat d x).tile c.t
    y.regs = (s.tile c.t).regs ∧ y.sys = (s.tile c.t).sys ∧ y.st = (s.tile c.t).st ∧ y.seq.stall = (s.tile c.t).seq.stall ∧
      y.seq.phase = (s.tile c.t).seq.phase ∧
      (d = 0 → y = s.tile c.t) ∧ (d ≠ 0 → ∃ g ∈ y.seq.flights, g.writes = [.s d.toNat x]) := by
  unfold State.flightS
  by_cases h : d = 0
  · simp [h]
  · simp only [if_neg h, State.flight_tile_self]
    refine ⟨rfl, rfl, rfl, rfl, rfl, fun e => absurd e h, fun _ => ?_⟩
    obtain ⟨g, hg, -, hw, -⟩ := (s.tile c.t).mem_launchFlight
      { id := s.fresh.1, slot := c.slot, issue := c.now, ready := c.now + 1, bound := c.now + lat * (s.tile c.t).divisor 0
        dests := [Write.s d.toNat x].map Write.loc, writes := [.s d.toNat x] }
    exact ⟨g, hg, hw⟩

/-- A result of the bundle issued last, once it has waited: its tile has the flight more (R27, R123, R133). -/
theorem State.flightBy_tile_self (s : State) (t b : Nat) (ws : List Write) :
    (s.flightBy t b ws).tile t = (s.tile t).launchFlight
      { id := s.nextId, slot := 0, issue := (s.tile t).seq.issuedAt, ready := b, bound := b, dests := ws.map Write.loc, writes := ws } := by
  unfold State.flightBy; simp

theorem State.flightBy_tile_other (s : State) (t b : Nat) (ws : List Write) (v : Nat) (h : v ≠ t) :
    (s.flightBy t b ws).tile v = s.tile v := by
  unfold State.flightBy; simp [State.tile_onTile, h]

@[simp] theorem State.flightBy_mem (s : State) (t b : Nat) (ws : List Write) : (s.flightBy t b ws).mem = s.mem := by
  unfold State.flightBy; simp

/-- A call link either stays in flight or has landed in s31; staging and memory keep what they hold (R123). -/
theorem State.linkCall_cases (s : State) (t ret : Nat) :
    let w := s.flightBy t ((s.tile t).seq.issuedAt + 1) [.s 31 (BitVec.ofNat 64 ret)]
    s.linkCall t ret = w ∨ ((s.tile t).seq.issuedAt < s.icc t ∧ ∃ f c, f ∈ (w.tile t).seq.flights ∧ f.id = s.nextId ∧
      (w.tile t).mayLand f (s.icc t) = true ∧ s.linkCall t ret = w.onTile t (·.land f c)) := by
  intro w
  unfold State.linkCall
  extract_lets q u
  split
  · next f hf =>
    split
    · next h =>
      rw [Bool.and_eq_true, decide_eq_true_iff] at h
      have hi : f.id = s.nextId := by simpa using List.find?_some hf
      exact .inr ⟨h.1, f, _, List.mem_of_find?_eq_some hf, hi, h.2, rfl⟩
    · exact .inl rfl
  · exact .inl rfl

/-! ### Writes to staging (R168, R172) -/

/-- A mark of a padded link's line changes the tile's barrier state alone (R304). -/
theorem Tile.markLines_same (x : Tile) (n a k : Nat) (by_ : List (Option Nat)) :
    ∃ b, x.markLines n a k by_ = { x with bar := b } := by
  unfold Tile.markLines; split
  · exact ⟨_, rfl⟩
  · exact ⟨_, rfl⟩

/-- Bytes written to staging change it, the deferral queues' foreign words and the marks of link lines (R155, R209, R304). -/
theorem Tile.stageBy_same (x : Tile) (n a : Nat) (bs : List Byte) (by_ : List (Option Nat)) :
    ∃ e b, x.stageBy n a bs by_ = { x with st := writeBytes x.st a bs, eng := e, bar := b } := by
  unfold Tile.stageBy; simp only
  obtain ⟨b, h⟩ := Tile.markLines_same _ n a bs.length by_
  rw [h]; exact ⟨_, _, rfl⟩

@[simp] theorem Tile.stageBy_st (x : Tile) (n a : Nat) (bs : List Byte) (by_ : List (Option Nat)) :
    (x.stageBy n a bs by_).st = writeBytes x.st a bs := by obtain ⟨_, _, h⟩ := x.stageBy_same n a bs by_; rw [h]
@[simp] theorem Tile.stageBy_regs (x : Tile) (n a : Nat) (bs : List Byte) (by_ : List (Option Nat)) :
    (x.stageBy n a bs by_).regs = x.regs := by obtain ⟨_, _, h⟩ := x.stageBy_same n a bs by_; rw [h]
@[simp] theorem Tile.stageBy_sys (x : Tile) (n a : Nat) (bs : List Byte) (by_ : List (Option Nat)) :
    (x.stageBy n a bs by_).sys = x.sys := by obtain ⟨_, _, h⟩ := x.stageBy_same n a bs by_; rw [h]
@[simp] theorem Tile.stageBy_vault (x : Tile) (n a : Nat) (bs : List Byte) (by_ : List (Option Nat)) :
    (x.stageBy n a bs by_).vault = x.vault := by obtain ⟨_, _, h⟩ := x.stageBy_same n a bs by_; rw [h]
@[simp] theorem Tile.stageBy_seq (x : Tile) (n a : Nat) (bs : List Byte) (by_ : List (Option Nat)) :
    (x.stageBy n a bs by_).seq = x.seq := by obtain ⟨_, _, h⟩ := x.stageBy_same n a bs by_; rw [h]

/-- A column that lands joins the writes that end its cycle, as the D slot's, and changes no byte before them (R28, R156). -/
theorem Tile.landRead_same (x : Tile) (t : Nat) (e : RdFlight) : ∃ v, x.landRead t e =
    { x with seq := { x.seq with stWrites := x.seq.stWrites ++
        [{ cycle := e.cycle, tile := t, slot := 6, addr := e.addr, bytes := e.bytes, issue := e.cycle - 28 }] }
             vault := v } := ⟨_, rfl⟩

/-- The landed column is marked as written. -/
theorem Tile.landRead_marks (x : Tile) (t : Nat) (e : RdFlight) :
    ∀ r ∈ (x.landRead t e).vault.reads, r.id = e.id → r.written = true := by
  intro r hr
  simp only [Tile.landRead, List.mem_map] at hr
  obtain ⟨q, -, rfl⟩ := hr
  split
  · intro _; rfl
  · intro h; contradiction

end Sys2Proof.Machine
end

