-- ==== Sys2Proof/Laws/Formats.lean ====
section
/-! SUPPORT. A format's fields at their places are read back, and a word's opcode, guard and fields are its parts
(R48, R49). -/

set_option linter.unusedSimpArgs false
set_option linter.unusedTactic false
set_option linter.unreachableTactic false

namespace Sys2Proof

@[simp] theorem SR.ofBits_bits (f : SR) : SR.ofBits f.bits = f := by
  cases f
  simp only [SR.bits, SR.ofBits, SR.mk.injEq]
  refine ⟨?_, ?_, ?_⟩
  · apply BitVec.eq_of_getLsbD_eq; intro i hi
    simp only [BitVec.getLsbD_extractLsb', BitVec.getLsbD_append]
    simp (disch := omega) [hi, if_neg, if_pos]
    try (congr 1; omega)
  · apply BitVec.eq_of_getLsbD_eq; intro i hi
    simp only [BitVec.getLsbD_extractLsb', BitVec.getLsbD_append]
    simp (disch := omega) [hi, if_neg, if_pos]
    try (congr 1; omega)
  · apply BitVec.eq_of_getLsbD_eq; intro i hi
    simp only [BitVec.getLsbD_extractLsb', BitVec.getLsbD_append]
    simp (disch := omega) [hi, if_neg, if_pos]
    try (congr 1; omega)

@[simp] theorem SI.ofBits_bits (f : SI) : SI.ofBits f.bits = f := by
  cases f
  simp only [SI.bits, SI.ofBits, SI.mk.injEq]
  refine ⟨?_, ?_, ?_⟩
  · apply BitVec.eq_of_getLsbD_eq; intro i hi
    simp only [BitVec.getLsbD_extractLsb', BitVec.getLsbD_append]
    simp (disch := omega) [hi, if_neg, if_pos]
    try (congr 1; omega)
  · apply BitVec.eq_of_getLsbD_eq; intro i hi
    simp only [BitVec.getLsbD_extractLsb', BitVec.getLsbD_append]
    simp (disch := omega) [hi, if_neg, if_pos]
    try (congr 1; omega)
  · apply BitVec.eq_of_getLsbD_eq; intro i hi
    simp only [BitVec.getLsbD_extractLsb', BitVec.getLsbD_append]
    simp (disch := omega) [hi, if_neg, if_pos]
    try (congr 1; omega)

@[simp] theorem SP.ofBits_bits (f : SP) : SP.ofBits f.bits = f := by
  cases f
  simp only [SP.bits, SP.ofBits, SP.mk.injEq]
  refine ⟨?_, ?_, ?_⟩
  · apply BitVec.eq_of_getLsbD_eq; intro i hi
    simp only [BitVec.getLsbD_extractLsb', BitVec.getLsbD_append]
    simp (disch := omega) [hi, if_neg, if_pos]
    try (congr 1; omega)
  · apply BitVec.eq_of_getLsbD_eq; intro i hi
    simp only [BitVec.getLsbD_extractLsb', BitVec.getLsbD_append]
    simp (disch := omega) [hi, if_neg, if_pos]
    try (congr 1; omega)
  · apply BitVec.eq_of_getLsbD_eq; intro i hi
    simp only [BitVec.getLsbD_extractLsb', BitVec.getLsbD_append]
    simp (disch := omega) [hi, if_neg, if_pos]
    try (congr 1; omega)

@[simp] theorem SPI.ofBits_bits (f : SPI) : SPI.ofBits f.bits = f := by
  cases f
  simp only [SPI.bits, SPI.ofBits, SPI.mk.injEq]
  refine ⟨?_, ?_, ?_⟩
  · apply BitVec.eq_of_getLsbD_eq; intro i hi
    simp only [BitVec.getLsbD_extractLsb', BitVec.getLsbD_append]
    simp (disch := omega) [hi, if_neg, if_pos]
    try (congr 1; omega)
  · apply BitVec.eq_of_getLsbD_eq; intro i hi
    simp only [BitVec.getLsbD_extractLsb', BitVec.getLsbD_append]
    simp (disch := omega) [hi, if_neg, if_pos]
    try (congr 1; omega)
  · apply BitVec.eq_of_getLsbD_eq; intro i hi
    simp only [BitVec.getLsbD_extractLsb', BitVec.getLsbD_append]
    simp (disch := omega) [hi, if_neg, if_pos]
    try (congr 1; omega)

@[simp] theorem SQ.ofBits_bits (f : SQ) : SQ.ofBits f.bits = f := by
  cases f
  simp only [SQ.bits, SQ.ofBits, SQ.mk.injEq]
  refine ⟨?_, ?_, ?_⟩
  · apply BitVec.eq_of_getLsbD_eq; intro i hi
    simp only [BitVec.getLsbD_extractLsb', BitVec.getLsbD_append]
    simp (disch := omega) [hi, if_neg, if_pos]
    try (congr 1; omega)
  · apply BitVec.eq_of_getLsbD_eq; intro i hi
    simp only [BitVec.getLsbD_extractLsb', BitVec.getLsbD_append]
    simp (disch := omega) [hi, if_neg, if_pos]
    try (congr 1; omega)
  · apply BitVec.eq_of_getLsbD_eq; intro i hi
    simp only [BitVec.getLsbD_extractLsb', BitVec.getLsbD_append]
    simp (disch := omega) [hi, if_neg, if_pos]
    try (congr 1; omega)

@[simp] theorem SG.ofBits_bits (f : SG) : SG.ofBits f.bits = f := by
  cases f
  simp only [SG.bits, SG.ofBits, SG.mk.injEq]
  refine ⟨?_, ?_, ?_, ?_⟩
  · apply BitVec.eq_of_getLsbD_eq; intro i hi
    simp only [BitVec.getLsbD_extractLsb', BitVec.getLsbD_append]
    simp (disch := omega) [hi, if_neg, if_pos]
    try (congr 1; omega)
  · apply BitVec.eq_of_getLsbD_eq; intro i hi
    simp only [BitVec.getLsbD_extractLsb', BitVec.getLsbD_append]
    simp (disch := omega) [hi, if_neg, if_pos]
    try (congr 1; omega)
  · apply BitVec.eq_of_getLsbD_eq; intro i hi
    simp only [BitVec.getLsbD_extractLsb', BitVec.getLsbD_append]
    simp (disch := omega) [hi, if_neg, if_pos]
    try (congr 1; omega)
  · apply BitVec.eq_of_getLsbD_eq; intro i hi
    simp only [BitVec.getLsbD_extractLsb', BitVec.getLsbD_append]
    simp (disch := omega) [hi, if_neg, if_pos]
    try (congr 1; omega)

@[simp] theorem SL.ofBits_bits (f : SL) : SL.ofBits f.bits = f := by
  cases f
  simp only [SL.bits, SL.ofBits, SL.mk.injEq]
  refine ⟨?_, ?_, ?_⟩
  · apply BitVec.eq_of_getLsbD_eq; intro i hi
    simp only [BitVec.getLsbD_extractLsb', BitVec.getLsbD_append]
    simp (disch := omega) [hi, if_neg, if_pos]
    try (congr 1; omega)
  · apply BitVec.eq_of_getLsbD_eq; intro i hi
    simp only [BitVec.getLsbD_extractLsb', BitVec.getLsbD_append]
    simp (disch := omega) [hi, if_neg, if_pos]
    try (congr 1; omega)
  · apply BitVec.eq_of_getLsbD_eq; intro i hi
    simp only [BitVec.getLsbD_extractLsb', BitVec.getLsbD_append]
    simp (disch := omega) [hi, if_neg, if_pos]
    try (congr 1; omega)

@[simp] theorem SB.ofBits_bits (f : SB) : SB.ofBits f.bits = f := by
  cases f
  simp only [SB.bits, SB.ofBits, SB.mk.injEq]
  refine ⟨?_, ?_, ?_⟩
  · apply BitVec.eq_of_getLsbD_eq; intro i hi
    simp only [BitVec.getLsbD_extractLsb', BitVec.getLsbD_append]
    simp (disch := omega) [hi, if_neg, if_pos]
    try (congr 1; omega)
  · apply BitVec.eq_of_getLsbD_eq; intro i hi
    simp only [BitVec.getLsbD_extractLsb', BitVec.getLsbD_append]
    simp (disch := omega) [hi, if_neg, if_pos]
    try (congr 1; omega)
  · apply BitVec.eq_of_getLsbD_eq; intro i hi
    simp only [BitVec.getLsbD_extractLsb', BitVec.getLsbD_append]
    simp (disch := omega) [hi, if_neg, if_pos]
    try (congr 1; omega)

@[simp] theorem SM.ofBits_bits (f : SM) : SM.ofBits f.bits = f := by
  cases f
  simp only [SM.bits, SM.ofBits, SM.mk.injEq]
  refine ⟨?_, ?_, ?_, ?_, ?_⟩
  · apply BitVec.eq_of_getLsbD_eq; intro i hi
    simp only [BitVec.getLsbD_extractLsb', BitVec.getLsbD_append]
    simp (disch := omega) [hi, if_neg, if_pos]
    try (congr 1; omega)
  · apply BitVec.eq_of_getLsbD_eq; intro i hi
    simp only [BitVec.getLsbD_extractLsb', BitVec.getLsbD_append]
    simp (disch := omega) [hi, if_neg, if_pos]
    try (congr 1; omega)
  · apply BitVec.eq_of_getLsbD_eq; intro i hi
    simp only [BitVec.getLsbD_extractLsb', BitVec.getLsbD_append]
    simp (disch := omega) [hi, if_neg, if_pos]
    try (congr 1; omega)
  · simp only [BitVec.getLsbD_append]; simp
  · apply BitVec.eq_of_getLsbD_eq; intro i hi
    simp only [BitVec.getLsbD_extractLsb', BitVec.getLsbD_append]
    simp (disch := omega) [hi, if_neg, if_pos]
    try (congr 1; omega)

@[simp] theorem SS.ofBits_bits (f : SS) : SS.ofBits f.bits = f := by
  cases f
  simp only [SS.bits, SS.ofBits, SS.mk.injEq]
  refine ⟨?_, ?_⟩
  · apply BitVec.eq_of_getLsbD_eq; intro i hi
    simp only [BitVec.getLsbD_extractLsb', BitVec.getLsbD_append]
    simp (disch := omega) [hi, if_neg, if_pos]
    try (congr 1; omega)
  · apply BitVec.eq_of_getLsbD_eq; intro i hi
    simp only [BitVec.getLsbD_extractLsb', BitVec.getLsbD_append]
    simp (disch := omega) [hi, if_neg, if_pos]
    try (congr 1; omega)

@[simp] theorem VR.ofBits_bits (f : VR) : VR.ofBits f.bits = f := by
  cases f
  simp only [VR.bits, VR.ofBits, VR.mk.injEq]
  refine ⟨?_, ?_, ?_, ?_, ?_, ?_, ?_, ?_⟩
  · apply BitVec.eq_of_getLsbD_eq; intro i hi
    simp only [BitVec.getLsbD_extractLsb', BitVec.getLsbD_append]
    simp (disch := omega) [hi, if_neg, if_pos]
    try (congr 1; omega)
  · apply BitVec.eq_of_getLsbD_eq; intro i hi
    simp only [BitVec.getLsbD_extractLsb', BitVec.getLsbD_append]
    simp (disch := omega) [hi, if_neg, if_pos]
    try (congr 1; omega)
  · apply BitVec.eq_of_getLsbD_eq; intro i hi
    simp only [BitVec.getLsbD_extractLsb', BitVec.getLsbD_append]
    simp (disch := omega) [hi, if_neg, if_pos]
    try (congr 1; omega)
  · apply BitVec.eq_of_getLsbD_eq; intro i hi
    simp only [BitVec.getLsbD_extractLsb', BitVec.getLsbD_append]
    simp (disch := omega) [hi, if_neg, if_pos]
    try (congr 1; omega)
  · apply BitVec.eq_of_getLsbD_eq; intro i hi
    simp only [BitVec.getLsbD_extractLsb', BitVec.getLsbD_append]
    simp (disch := omega) [hi, if_neg, if_pos]
    try (congr 1; omega)
  · simp only [BitVec.getLsbD_append]; simp
  · apply BitVec.eq_of_getLsbD_eq; intro i hi
    simp only [BitVec.getLsbD_extractLsb', BitVec.getLsbD_append]
    simp (disch := omega) [hi, if_neg, if_pos]
    try (congr 1; omega)
  · apply BitVec.eq_of_getLsbD_eq; intro i hi
    simp only [BitVec.getLsbD_extractLsb', BitVec.getLsbD_append]
    simp (disch := omega) [hi, if_neg, if_pos]
    try (congr 1; omega)

@[simp] theorem VK.ofBits_bits (f : VK) : VK.ofBits f.bits = f := by
  cases f
  simp only [VK.bits, VK.ofBits, VK.mk.injEq]
  refine ⟨?_, ?_, ?_, ?_, ?_, ?_⟩
  · apply BitVec.eq_of_getLsbD_eq; intro i hi
    simp only [BitVec.getLsbD_extractLsb', BitVec.getLsbD_append]
    simp (disch := omega) [hi, if_neg, if_pos]
    try (congr 1; omega)
  · apply BitVec.eq_of_getLsbD_eq; intro i hi
    simp only [BitVec.getLsbD_extractLsb', BitVec.getLsbD_append]
    simp (disch := omega) [hi, if_neg, if_pos]
    try (congr 1; omega)
  · apply BitVec.eq_of_getLsbD_eq; intro i hi
    simp only [BitVec.getLsbD_extractLsb', BitVec.getLsbD_append]
    simp (disch := omega) [hi, if_neg, if_pos]
    try (congr 1; omega)
  · apply BitVec.eq_of_getLsbD_eq; intro i hi
    simp only [BitVec.getLsbD_extractLsb', BitVec.getLsbD_append]
    simp (disch := omega) [hi, if_neg, if_pos]
    try (congr 1; omega)
  · simp only [BitVec.getLsbD_append]; simp
  · apply BitVec.eq_of_getLsbD_eq; intro i hi
    simp only [BitVec.getLsbD_extractLsb', BitVec.getLsbD_append]
    simp (disch := omega) [hi, if_neg, if_pos]
    try (congr 1; omega)

@[simp] theorem VQ.ofBits_bits (f : VQ) : VQ.ofBits f.bits = f := by
  cases f
  simp only [VQ.bits, VQ.ofBits, VQ.mk.injEq]
  refine ⟨?_, ?_, ?_, ?_, ?_⟩
  · apply BitVec.eq_of_getLsbD_eq; intro i hi
    simp only [BitVec.getLsbD_extractLsb', BitVec.getLsbD_append]
    simp (disch := omega) [hi, if_neg, if_pos]
    try (congr 1; omega)
  · apply BitVec.eq_of_getLsbD_eq; intro i hi
    simp only [BitVec.getLsbD_extractLsb', BitVec.getLsbD_append]
    simp (disch := omega) [hi, if_neg, if_pos]
    try (congr 1; omega)
  · apply BitVec.eq_of_getLsbD_eq; intro i hi
    simp only [BitVec.getLsbD_extractLsb', BitVec.getLsbD_append]
    simp (disch := omega) [hi, if_neg, if_pos]
    try (congr 1; omega)
  · apply BitVec.eq_of_getLsbD_eq; intro i hi
    simp only [BitVec.getLsbD_extractLsb', BitVec.getLsbD_append]
    simp (disch := omega) [hi, if_neg, if_pos]
    try (congr 1; omega)
  · apply BitVec.eq_of_getLsbD_eq; intro i hi
    simp only [BitVec.getLsbD_extractLsb', BitVec.getLsbD_append]
    simp (disch := omega) [hi, if_neg, if_pos]
    try (congr 1; omega)

@[simp] theorem VM.ofBits_bits (f : VM) : VM.ofBits f.bits = f := by
  cases f
  simp only [VM.bits, VM.ofBits, VM.mk.injEq]
  refine ⟨?_, ?_, ?_, ?_, ?_, ?_, ?_⟩
  · apply BitVec.eq_of_getLsbD_eq; intro i hi
    simp only [BitVec.getLsbD_extractLsb', BitVec.getLsbD_append]
    simp (disch := omega) [hi, if_neg, if_pos]
    try (congr 1; omega)
  · apply BitVec.eq_of_getLsbD_eq; intro i hi
    simp only [BitVec.getLsbD_extractLsb', BitVec.getLsbD_append]
    simp (disch := omega) [hi, if_neg, if_pos]
    try (congr 1; omega)
  · apply BitVec.eq_of_getLsbD_eq; intro i hi
    simp only [BitVec.getLsbD_extractLsb', BitVec.getLsbD_append]
    simp (disch := omega) [hi, if_neg, if_pos]
    try (congr 1; omega)
  · apply BitVec.eq_of_getLsbD_eq; intro i hi
    simp only [BitVec.getLsbD_extractLsb', BitVec.getLsbD_append]
    simp (disch := omega) [hi, if_neg, if_pos]
    try (congr 1; omega)
  · simp only [BitVec.getLsbD_append]; simp
  · apply BitVec.eq_of_getLsbD_eq; intro i hi
    simp only [BitVec.getLsbD_extractLsb', BitVec.getLsbD_append]
    simp (disch := omega) [hi, if_neg, if_pos]
    try (congr 1; omega)
  · apply BitVec.eq_of_getLsbD_eq; intro i hi
    simp only [BitVec.getLsbD_extractLsb', BitVec.getLsbD_append]
    simp (disch := omega) [hi, if_neg, if_pos]
    try (congr 1; omega)

@[simp] theorem VD.ofBits_bits (f : VD) : VD.ofBits f.bits = f := by
  cases f
  simp only [VD.bits, VD.ofBits, VD.mk.injEq]
  refine ⟨?_, ?_, ?_, ?_, ?_, ?_, ?_⟩
  · apply BitVec.eq_of_getLsbD_eq; intro i hi
    simp only [BitVec.getLsbD_extractLsb', BitVec.getLsbD_append]
    simp (disch := omega) [hi, if_neg, if_pos]
    try (congr 1; omega)
  · apply BitVec.eq_of_getLsbD_eq; intro i hi
    simp only [BitVec.getLsbD_extractLsb', BitVec.getLsbD_append]
    simp (disch := omega) [hi, if_neg, if_pos]
    try (congr 1; omega)
  · apply BitVec.eq_of_getLsbD_eq; intro i hi
    simp only [BitVec.getLsbD_extractLsb', BitVec.getLsbD_append]
    simp (disch := omega) [hi, if_neg, if_pos]
    try (congr 1; omega)
  · apply BitVec.eq_of_getLsbD_eq; intro i hi
    simp only [BitVec.getLsbD_extractLsb', BitVec.getLsbD_append]
    simp (disch := omega) [hi, if_neg, if_pos]
    try (congr 1; omega)
  · apply BitVec.eq_of_getLsbD_eq; intro i hi
    simp only [BitVec.getLsbD_extractLsb', BitVec.getLsbD_append]
    simp (disch := omega) [hi, if_neg, if_pos]
    try (congr 1; omega)
  · apply BitVec.eq_of_getLsbD_eq; intro i hi
    simp only [BitVec.getLsbD_extractLsb', BitVec.getLsbD_append]
    simp (disch := omega) [hi, if_neg, if_pos]
    try (congr 1; omega)
  · apply BitVec.eq_of_getLsbD_eq; intro i hi
    simp only [BitVec.getLsbD_extractLsb', BitVec.getLsbD_append]
    simp (disch := omega) [hi, if_neg, if_pos]
    try (congr 1; omega)

@[simp] theorem VC.ofBits_bits (f : VC) : VC.ofBits f.bits = f := by
  cases f
  simp only [VC.bits, VC.ofBits, VC.mk.injEq]
  refine ⟨?_, ?_, ?_, ?_, ?_, ?_, ?_, ?_⟩
  · apply BitVec.eq_of_getLsbD_eq; intro i hi
    simp only [BitVec.getLsbD_extractLsb', BitVec.getLsbD_append]
    simp (disch := omega) [hi, if_neg, if_pos]
    try (congr 1; omega)
  · apply BitVec.eq_of_getLsbD_eq; intro i hi
    simp only [BitVec.getLsbD_extractLsb', BitVec.getLsbD_append]
    simp (disch := omega) [hi, if_neg, if_pos]
    try (congr 1; omega)
  · apply BitVec.eq_of_getLsbD_eq; intro i hi
    simp only [BitVec.getLsbD_extractLsb', BitVec.getLsbD_append]
    simp (disch := omega) [hi, if_neg, if_pos]
    try (congr 1; omega)
  · apply BitVec.eq_of_getLsbD_eq; intro i hi
    simp only [BitVec.getLsbD_extractLsb', BitVec.getLsbD_append]
    simp (disch := omega) [hi, if_neg, if_pos]
    try (congr 1; omega)
  · apply BitVec.eq_of_getLsbD_eq; intro i hi
    simp only [BitVec.getLsbD_extractLsb', BitVec.getLsbD_append]
    simp (disch := omega) [hi, if_neg, if_pos]
    try (congr 1; omega)
  · simp only [BitVec.getLsbD_append]; simp
  · apply BitVec.eq_of_getLsbD_eq; intro i hi
    simp only [BitVec.getLsbD_extractLsb', BitVec.getLsbD_append]
    simp (disch := omega) [hi, if_neg, if_pos]
    try (congr 1; omega)
  · simp only [BitVec.getLsbD_append]; simp

@[simp] theorem MG.ofBits_bits (f : MG) : MG.ofBits f.bits = f := by
  cases f
  simp only [MG.bits, MG.ofBits, MG.mk.injEq]
  refine ⟨?_, ?_, ?_⟩
  · apply BitVec.eq_of_getLsbD_eq; intro i hi
    simp only [BitVec.getLsbD_extractLsb', BitVec.getLsbD_append]
    simp (disch := omega) [hi, if_neg, if_pos]
    try (congr 1; omega)
  · apply BitVec.eq_of_getLsbD_eq; intro i hi
    simp only [BitVec.getLsbD_extractLsb', BitVec.getLsbD_append]
    simp (disch := omega) [hi, if_neg, if_pos]
    try (congr 1; omega)
  · apply BitVec.eq_of_getLsbD_eq; intro i hi
    simp only [BitVec.getLsbD_extractLsb', BitVec.getLsbD_append]
    simp (disch := omega) [hi, if_neg, if_pos]
    try (congr 1; omega)

@[simp] theorem MA.ofBits_bits (f : MA) : MA.ofBits f.bits = f := by
  cases f
  simp only [MA.bits, MA.ofBits, MA.mk.injEq]
  refine ⟨?_, ?_⟩
  · apply BitVec.eq_of_getLsbD_eq; intro i hi
    simp only [BitVec.getLsbD_extractLsb', BitVec.getLsbD_append]
    simp (disch := omega) [hi, if_neg, if_pos]
    try (congr 1; omega)
  · apply BitVec.eq_of_getLsbD_eq; intro i hi
    simp only [BitVec.getLsbD_extractLsb', BitVec.getLsbD_append]
    simp (disch := omega) [hi, if_neg, if_pos]
    try (congr 1; omega)

@[simp] theorem MD.ofBits_bits (f : MD) : MD.ofBits f.bits = f := by
  cases f
  simp only [MD.bits, MD.ofBits, MD.mk.injEq]
  refine ⟨?_, ?_, ?_⟩
  · apply BitVec.eq_of_getLsbD_eq; intro i hi
    simp only [BitVec.getLsbD_extractLsb', BitVec.getLsbD_append]
    simp (disch := omega) [hi, if_neg, if_pos]
    try (congr 1; omega)
  · apply BitVec.eq_of_getLsbD_eq; intro i hi
    simp only [BitVec.getLsbD_extractLsb', BitVec.getLsbD_append]
    simp (disch := omega) [hi, if_neg, if_pos]
    try (congr 1; omega)
  · apply BitVec.eq_of_getLsbD_eq; intro i hi
    simp only [BitVec.getLsbD_extractLsb', BitVec.getLsbD_append]
    simp (disch := omega) [hi, if_neg, if_pos]
    try (congr 1; omega)

@[simp] theorem MR.ofBits_bits (f : MR) : MR.ofBits f.bits = f := by
  cases f
  simp only [MR.bits, MR.ofBits, MR.mk.injEq]
  refine ⟨?_, ?_, ?_, ?_⟩
  · apply BitVec.eq_of_getLsbD_eq; intro i hi
    simp only [BitVec.getLsbD_extractLsb', BitVec.getLsbD_append]
    simp (disch := omega) [hi, if_neg, if_pos]
    try (congr 1; omega)
  · apply BitVec.eq_of_getLsbD_eq; intro i hi
    simp only [BitVec.getLsbD_extractLsb', BitVec.getLsbD_append]
    simp (disch := omega) [hi, if_neg, if_pos]
    try (congr 1; omega)
  · apply BitVec.eq_of_getLsbD_eq; intro i hi
    simp only [BitVec.getLsbD_extractLsb', BitVec.getLsbD_append]
    simp (disch := omega) [hi, if_neg, if_pos]
    try (congr 1; omega)
  · apply BitVec.eq_of_getLsbD_eq; intro i hi
    simp only [BitVec.getLsbD_extractLsb', BitVec.getLsbD_append]
    simp (disch := omega) [hi, if_neg, if_pos]
    try (congr 1; omega)

@[simp] theorem MS.ofBits_bits (f : MS) : MS.ofBits f.bits = f := by
  cases f
  simp only [MS.bits, MS.ofBits, MS.mk.injEq]
  refine ⟨?_, ?_⟩
  · apply BitVec.eq_of_getLsbD_eq; intro i hi
    simp only [BitVec.getLsbD_extractLsb', BitVec.getLsbD_append]
    simp (disch := omega) [hi, if_neg, if_pos]
    try (congr 1; omega)
  · apply BitVec.eq_of_getLsbD_eq; intro i hi
    simp only [BitVec.getLsbD_extractLsb', BitVec.getLsbD_append]
    simp (disch := omega) [hi, if_neg, if_pos]
    try (congr 1; omega)

@[simp] theorem CW.ofBits_bits (f : CW) : CW.ofBits f.bits = f := by
  cases f
  simp only [CW.bits, CW.ofBits, CW.mk.injEq]
  refine ⟨?_, ?_, ?_, ?_, ?_, ?_, ?_, ?_⟩
  · apply BitVec.eq_of_getLsbD_eq; intro i hi
    simp only [BitVec.getLsbD_extractLsb', BitVec.getLsbD_append]
    simp (disch := omega) [hi, if_neg, if_pos]
    try (congr 1; omega)
  · apply BitVec.eq_of_getLsbD_eq; intro i hi
    simp only [BitVec.getLsbD_extractLsb', BitVec.getLsbD_append]
    simp (disch := omega) [hi, if_neg, if_pos]
    try (congr 1; omega)
  · apply BitVec.eq_of_getLsbD_eq; intro i hi
    simp only [BitVec.getLsbD_extractLsb', BitVec.getLsbD_append]
    simp (disch := omega) [hi, if_neg, if_pos]
    try (congr 1; omega)
  · apply BitVec.eq_of_getLsbD_eq; intro i hi
    simp only [BitVec.getLsbD_extractLsb', BitVec.getLsbD_append]
    simp (disch := omega) [hi, if_neg, if_pos]
    try (congr 1; omega)
  · apply BitVec.eq_of_getLsbD_eq; intro i hi
    simp only [BitVec.getLsbD_extractLsb', BitVec.getLsbD_append]
    simp (disch := omega) [hi, if_neg, if_pos]
    try (congr 1; omega)
  · simp only [BitVec.getLsbD_append]; simp
  · apply BitVec.eq_of_getLsbD_eq; intro i hi
    simp only [BitVec.getLsbD_extractLsb', BitVec.getLsbD_append]
    simp (disch := omega) [hi, if_neg, if_pos]
    try (congr 1; omega)
  · apply BitVec.eq_of_getLsbD_eq; intro i hi
    simp only [BitVec.getLsbD_extractLsb', BitVec.getLsbD_append]
    simp (disch := omega) [hi, if_neg, if_pos]
    try (congr 1; omega)

@[simp] theorem DA.ofBits_bits (f : DA) : DA.ofBits f.bits = f := by
  cases f
  simp only [DA.bits, DA.ofBits, DA.mk.injEq]
  refine ⟨?_, ?_⟩
  · apply BitVec.eq_of_getLsbD_eq; intro i hi
    simp only [BitVec.getLsbD_extractLsb', BitVec.getLsbD_append]
    simp (disch := omega) [hi, if_neg, if_pos]
    try (congr 1; omega)
  · apply BitVec.eq_of_getLsbD_eq; intro i hi
    simp only [BitVec.getLsbD_extractLsb', BitVec.getLsbD_append]
    simp (disch := omega) [hi, if_neg, if_pos]
    try (congr 1; omega)

@[simp] theorem DC.ofBits_bits (f : DC) : DC.ofBits f.bits = f := by
  cases f
  simp only [DC.bits, DC.ofBits, DC.mk.injEq]
  refine ⟨?_, ?_, ?_, ?_⟩
  · apply BitVec.eq_of_getLsbD_eq; intro i hi
    simp only [BitVec.getLsbD_extractLsb', BitVec.getLsbD_append]
    simp (disch := omega) [hi, if_neg, if_pos]
    try (congr 1; omega)
  · apply BitVec.eq_of_getLsbD_eq; intro i hi
    simp only [BitVec.getLsbD_extractLsb', BitVec.getLsbD_append]
    simp (disch := omega) [hi, if_neg, if_pos]
    try (congr 1; omega)
  · apply BitVec.eq_of_getLsbD_eq; intro i hi
    simp only [BitVec.getLsbD_extractLsb', BitVec.getLsbD_append]
    simp (disch := omega) [hi, if_neg, if_pos]
    try (congr 1; omega)
  · simp only [BitVec.getLsbD_append]; simp

@[simp] theorem XV.ofBits_bits (f : XV) : XV.ofBits f.bits = f := by
  cases f
  simp only [XV.bits, XV.ofBits, XV.mk.injEq]
  refine ⟨?_, ?_, ?_⟩
  · apply BitVec.eq_of_getLsbD_eq; intro i hi
    simp only [BitVec.getLsbD_extractLsb', BitVec.getLsbD_append]
    simp (disch := omega) [hi, if_neg, if_pos]
    try (congr 1; omega)
  · apply BitVec.eq_of_getLsbD_eq; intro i hi
    simp only [BitVec.getLsbD_extractLsb', BitVec.getLsbD_append]
    simp (disch := omega) [hi, if_neg, if_pos]
    try (congr 1; omega)
  · apply BitVec.eq_of_getLsbD_eq; intro i hi
    simp only [BitVec.getLsbD_extractLsb', BitVec.getLsbD_append]
    simp (disch := omega) [hi, if_neg, if_pos]
    try (congr 1; omega)

@[simp] theorem XF.ofBits_bits (f : XF) : XF.ofBits f.bits = f := by
  cases f
  simp only [XF.bits, XF.ofBits, XF.mk.injEq]
  refine ⟨?_, ?_, ?_⟩
  · simp only [BitVec.getLsbD_append]; simp
  · apply BitVec.eq_of_getLsbD_eq; intro i hi
    simp only [BitVec.getLsbD_extractLsb', BitVec.getLsbD_append]
    simp (disch := omega) [hi, if_neg, if_pos]
    try (congr 1; omega)
  · apply BitVec.eq_of_getLsbD_eq; intro i hi
    simp only [BitVec.getLsbD_extractLsb', BitVec.getLsbD_append]
    simp (disch := omega) [hi, if_neg, if_pos]
    try (congr 1; omega)

/-- The opcode of a word laid out as R48 has it. -/
@[simp] theorem word_opcode (op : BitVec 10) (gn : Bool) (gp : BitVec 3) (p : BitVec 50) :
    (op ++ BitVec.ofBool gn ++ gp ++ p).toNat / 2 ^ 54 = op.toNat := by
  have h1 := op.isLt; have h2 := (BitVec.ofBool gn).isLt; have h3 := gp.isLt; have h4 := p.isLt
  simp only [BitVec.toNat_append, Nat.shiftLeft_eq, ← Nat.two_pow_add_eq_or_of_lt h2, ← Nat.two_pow_add_eq_or_of_lt h3,
    ← Nat.two_pow_add_eq_or_of_lt h4, Nat.mul_comm _ (2 ^ _)]
  omega

/-- The fields of a word laid out as R48 has it. -/
@[simp] theorem word_fields (op : BitVec 10) (gn : Bool) (gp : BitVec 3) (p : BitVec 50) :
    (op ++ BitVec.ofBool gn ++ gp ++ p).extractLsb' 0 50 = p := by
  apply BitVec.eq_of_getLsbD_eq; intro i hi
  simp only [BitVec.getLsbD_extractLsb', BitVec.getLsbD_append]
  simp [hi]

/-- The guard of a word laid out as R48 has it. -/
theorem word_guard (op : BitVec 10) (gn : Bool) (gp : BitVec 3) (p : BitVec 50) :
    (op ++ BitVec.ofBool gn ++ gp ++ p).getLsbD 53 = gn ∧ (op ++ BitVec.ofBool gn ++ gp ++ p).extractLsb' 50 3 = gp := by
  constructor
  · simp only [BitVec.getLsbD_append]; simp
  · apply BitVec.eq_of_getLsbD_eq; intro i hi
    simp only [BitVec.getLsbD_extractLsb', BitVec.getLsbD_append]
    simp (disch := omega) [hi, if_neg, if_pos]

/-- A word is its opcode, guard and fields laid out as R48 has it. -/
theorem word_parts (w : Word) :
    w.extractLsb' 54 10 ++ BitVec.ofBool (w.getLsbD 53) ++ w.extractLsb' 50 3 ++ w.extractLsb' 0 50 = w := by
  apply BitVec.eq_of_getLsbD_eq; intro i hi
  simp only [BitVec.getLsbD_append, BitVec.getLsbD_extractLsb', BitVec.getLsbD_ofBool]
  split
  · simp [*]
  · split
    · rw [show 50 + (i - 50) = i by omega]; simp; omega
    · split
      · rw [show i = 53 by omega]; simp
      · rw [show 54 + (i - 50 - 3 - 1) = i by omega]; simp; omega

end Sys2Proof
end

