-- ==== Sys2Proof/Laws/Frame.lean ====
section
/-! SUPPORT. What keeps every register and byte where it is, and what keeps memories in canonical form. -/

namespace Sys2Proof.Machine

/-! ### States with the same stores -/

theorem SameStores.rfl (s : State) : SameStores s s :=
  ⟨fun _ => .refl _, fun _ => .refl _, fun _ _ => .refl _, fun _ => .refl _, fun _ => .refl _, fun _ => .refl _⟩

theorem SameStores.trans {s t u : State} (h : SameStores s t) (k : SameStores t u) : SameStores s u :=
  ⟨fun n => (k.regs n).trans (h.regs n), fun n => (k.sys n).trans (h.sys n), fun n a => (k.staging n a).trans (h.staging n a),
    fun a => (k.mem a).trans (h.mem a), fun a => (k.mem2 a).trans (h.mem2 a), fun a => (k.hostMem a).trans (h.hostMem a)⟩

/-- Whatever keeps tiles and memories keeps the stores. -/
theorem SameStores.of_eq {s u : State} (ht : u.tiles = s.tiles) (hm : u.mem = s.mem) (h2 : u.mem2 = s.mem2)
    (hh : u.hostMem = s.hostMem) : SameStores s u := by
  have e : ∀ t, u.tile t = s.tile t := fun t => by unfold State.tile; rw [ht]
  exact ⟨fun t => by rw [e], fun t => by rw [e], fun t a => by rw [e], fun a => by rw [hm], fun a => by rw [h2], fun a => by rw [hh]⟩

/-- A change of one tile that keeps its registers, system registers and staging keeps the stores. -/
theorem SameStores.onTile {s u : State} (h : SameStores s u) (t : Nat) (f : Tile → Tile)
    (hf : ∀ x, (f x).regs = x.regs ∧ (f x).sys = x.sys ∧ (f x).st = x.st) : SameStores s (u.onTile t f) := by
  have e : ∀ v, ((u.onTile t f).tile v).regs = (u.tile v).regs ∧ ((u.onTile t f).tile v).sys = (u.tile v).sys
      ∧ ((u.onTile t f).tile v).st = (u.tile v).st := by
    intro v; rw [State.tile_onTile]; split
    · rename_i hv; rw [hv]; exact hf _
    · exact ⟨.refl _, .refl _, .refl _⟩
  exact ⟨fun v => (e v).1.trans (h.regs v), fun v => (e v).2.1.trans (h.sys v),
    fun v a => by rw [(e v).2.2]; exact h.staging v a, h.mem, h.mem2, h.hostMem⟩

theorem SameStores.onSeq {s u : State} (h : SameStores s u) (t : Nat) (f : Seq → Seq) : SameStores s (u.onSeq t f) :=
  h.onTile t _ fun _ => ⟨.refl _, .refl _, .refl _⟩

theorem SameStores.onVault {s u : State} (h : SameStores s u) (t : Nat) (f : Vault → Vault) : SameStores s (u.onVault t f) :=
  h.onTile t _ fun _ => ⟨.refl _, .refl _, .refl _⟩

theorem SameStores.nextFree {s u : State} (h : SameStores s u) : SameStores s u.nextFree :=
  h.trans (.of_eq (.refl _) (.refl _) (.refl _) (.refl _))

theorem SameStores.fresh {s u : State} (h : SameStores s u) : SameStores s u.fresh.2 :=
  h.trans (.of_eq (.refl _) (.refl _) (.refl _) (.refl _))

/-- An operation put in flight keeps the stores: it changes them when it lands. -/
theorem SameStores.flight {s u : State} (h : SameStores s u) (c : Ctx) (n : Nat) (ws : List Write) :
    SameStores s (u.flight c n ws) := by
  unfold State.flight; exact h.fresh.onTile _ _ fun _ => ⟨.refl _, .refl _, .refl _⟩

theorem SameStores.flightTo {s u : State} (h : SameStores s u) (c : Ctx) (ds : List Loc) (m n : Nat) :
    SameStores s (u.flightTo c ds m n) := by
  unfold State.flightTo; exact h.fresh.onTile _ _ fun _ => ⟨.refl _, .refl _, .refl _⟩

theorem SameStores.flightS {s u : State} (h : SameStores s u) (c : Ctx) (n : Nat) (d : BitVec 5) (x : Word) :
    SameStores s (u.flightS c n d x) := by
  unfold State.flightS; split
  · exact h
  · exact h.flight _ _ _

theorem SameStores.flightP {s u : State} (h : SameStores s u) (c : Ctx) (n : Nat) (d : BitVec 3) (b : Bool) :
    SameStores s (u.flightP c n d b) := by
  unfold State.flightP; split
  · exact h
  · exact h.flight _ _ _

theorem SameStores.takeVector {s u : State} (h : SameStores s u) (c : Ctx) (i : Instr) : SameStores s (u.takeVector c i) := by
  unfold State.takeVector; exact h.onSeq _ _

/-! ### Canonical memories -/

/-- Whatever keeps tiles and memories keeps them canonical. -/
theorem Canonical.of_eq {s u : State} (h : Canonical s) (ht : u.tiles = s.tiles) (hm : u.mem = s.mem) (h2 : u.mem2 = s.mem2)
    (hh : u.hostMem = s.hostMem) : Canonical u := by
  obtain ⟨a, b, c, d⟩ := h
  exact ⟨hm ▸ a, h2 ▸ b, hh ▸ c, fun t => by unfold State.tile; rw [ht]; exact d t⟩

/-- A tile whose staging is canonical may be put in. -/
theorem Canonical.setTile {s : State} (h : Canonical s) (t : Nat) {x : Tile} (hx : x.st.wf = true) : Canonical (s.setTile t x) := by
  obtain ⟨a, b, c, d⟩ := h
  refine ⟨a, b, c, fun u => ?_⟩
  rw [State.tile_setTile]; split
  · exact hx
  · exact d u

/-- A change of one tile that keeps its staging canonical keeps every memory canonical. -/
theorem Canonical.onTile {s : State} (h : Canonical s) (t : Nat) {f : Tile → Tile} (hf : ∀ x, x.st.wf = true → (f x).st.wf = true) :
    Canonical (s.onTile t f) := h.setTile t (hf _ (h.2.2.2 t))

theorem Canonical.onSeq {s : State} (h : Canonical s) (t : Nat) (f : Seq → Seq) : Canonical (s.onSeq t f) :=
  h.onTile t fun _ hx => hx

theorem Canonical.onVault {s : State} (h : Canonical s) (t : Nat) (f : Vault → Vault) : Canonical (s.onVault t f) :=
  h.onTile t fun _ hx => hx

theorem Canonical.onSys {s : State} (h : Canonical s) (t : Nat) (f : Sys → Sys) : Canonical (s.onSys t f) :=
  h.onTile t fun _ hx => hx

/-- Steps that each keep memories canonical keep them so over a list. -/
theorem Canonical.foldl {α : Type} {f : State → α → State} (hf : ∀ s a, Canonical s → Canonical (f s a)) (xs : List α) {s : State}
    (h : Canonical s) : Canonical (xs.foldl f s) := by
  induction xs generalizing s with
  | nil => exact h
  | cons a r ih => exact ih (hf s a h)

/-- Bytes written to staging, with what is noted of them, keep the staging canonical. -/
theorem Tile.stageBy_wf {x : Tile} (h : x.st.wf = true) (now a : Nat) (bs : List Byte) (by_ : List (Option Nat)) :
    (x.stageBy now a bs by_).st.wf = true := by rw [Tile.stageBy_st]; exact wf_writeBytes h a bs

end Sys2Proof.Machine
end

