-- ==== Sys2Proof/Laws/Issue.lean ====
section
/-! SUPPORT. What the one form of a slot operation can answer, and what its checks decide. -/

namespace Sys2Proof.Machine

/-- Where the checks let an operation go, its meaning is its effect. -/
theorem runSlot_of_goes {i : Instr} {s : State} {eff : Ctx → State → State} (h : Goes i s) :
    runSlot i s eff = .next (eff (s.ctx i) s).nextFree := by
  unfold runSlot
  rcases h with h | h <;> simp [h]

/-- The same for a V or X operation. -/
theorem runVector_of_goes {i : Instr} {s : State} {eff : Ctx → State → State} (h : Goes i s) :
    runVector i s eff = .next ((eff (s.ctx i) s).takeVector (s.ctx i) i).nextFree :=
  runSlot_of_goes h

/-- An operation of a slot goes, waits with nothing changed, or traps. -/
theorem runSlot_cases {i : Instr} {s u : State} {eff : Ctx → State → State} (h : runSlot i s eff = .next u) :
    (Goes i s ∧ u = (eff (s.ctx i) s).nextFree) ∨ u = s ∨ ∃ r, u = s.refuse s.focus.tile r := by
  unfold runSlot at h
  simp only at h
  split at h
  · rename_i hc; exact .inl ⟨.inl hc, by simpa using h.symm⟩
  · split at h
    · rename_i hv; exact .inl ⟨.inr hv, by simpa using h.symm⟩
    · exact .inr (.inl (by simpa using h.symm))
    · rename_i r _; exact .inr (.inr ⟨r, (Host.Outcome.next.inj h).symm⟩)

/-- A slot operation neither faults nor is refused. -/
theorem runSlot_next (i : Instr) (s : State) (eff : Ctx → State → State) : ∃ u, runSlot i s eff = .next u := by
  unfold runSlot
  simp only
  split
  · exact ⟨_, rfl⟩
  · split <;> exact ⟨_, rfl⟩

end Sys2Proof.Machine
end

