-- ==== Sys2Proof/Laws/PerInstr.lean ====
section
/-! SUPPORT. One lemma per instruction: an operation of a slot has a word under every guard, and no other has one. -/

namespace Sys2Proof.Laws.F

/-- An instruction has a word, whatever the guard, exactly where it is an operation of a slot (R45 to R49). -/
def Statement (i : Instr) : Prop := ∀ g : Guard, (encode g i).isSome = (slotFor i).isSome

theorem add : ∀ x0, Statement (.add x0) := fun _ _ => rfl
theorem sub : ∀ x0, Statement (.sub x0) := fun _ _ => rfl
theorem mul : ∀ x0, Statement (.mul x0) := fun _ _ => rfl
theorem mulhs : ∀ x0, Statement (.mulhs x0) := fun _ _ => rfl
theorem mulhu : ∀ x0, Statement (.mulhu x0) := fun _ _ => rfl
theorem div : ∀ x0, Statement (.div x0) := fun _ _ => rfl
theorem divu : ∀ x0, Statement (.divu x0) := fun _ _ => rfl
theorem rem : ∀ x0, Statement (.rem x0) := fun _ _ => rfl
theorem remu : ∀ x0, Statement (.remu x0) := fun _ _ => rfl
theorem and : ∀ x0, Statement (.and x0) := fun _ _ => rfl
theorem or : ∀ x0, Statement (.or x0) := fun _ _ => rfl
theorem xor : ∀ x0, Statement (.xor x0) := fun _ _ => rfl
theorem andn : ∀ x0, Statement (.andn x0) := fun _ _ => rfl
theorem shl : ∀ x0, Statement (.shl x0) := fun _ _ => rfl
theorem shr : ∀ x0, Statement (.shr x0) := fun _ _ => rfl
theorem sar : ∀ x0, Statement (.sar x0) := fun _ _ => rfl
theorem rol : ∀ x0, Statement (.rol x0) := fun _ _ => rfl
theorem min : ∀ x0, Statement (.min x0) := fun _ _ => rfl
theorem max : ∀ x0, Statement (.max x0) := fun _ _ => rfl
theorem minu : ∀ x0, Statement (.minu x0) := fun _ _ => rfl
theorem maxu : ∀ x0, Statement (.maxu x0) := fun _ _ => rfl
theorem clz : ∀ x0, Statement (.clz x0) := fun _ _ => rfl
theorem ctz : ∀ x0, Statement (.ctz x0) := fun _ _ => rfl
theorem popc : ∀ x0, Statement (.popc x0) := fun _ _ => rfl
theorem bswap : ∀ x0, Statement (.bswap x0) := fun _ _ => rfl
theorem addi : ∀ x0, Statement (.addi x0) := fun _ _ => rfl
theorem subi : ∀ x0, Statement (.subi x0) := fun _ _ => rfl
theorem muli : ∀ x0, Statement (.muli x0) := fun _ _ => rfl
theorem mulhsi : ∀ x0, Statement (.mulhsi x0) := fun _ _ => rfl
theorem mulhui : ∀ x0, Statement (.mulhui x0) := fun _ _ => rfl
theorem divi : ∀ x0, Statement (.divi x0) := fun _ _ => rfl
theorem divui : ∀ x0, Statement (.divui x0) := fun _ _ => rfl
theorem remi : ∀ x0, Statement (.remi x0) := fun _ _ => rfl
theorem remui : ∀ x0, Statement (.remui x0) := fun _ _ => rfl
theorem andi : ∀ x0, Statement (.andi x0) := fun _ _ => rfl
theorem ori : ∀ x0, Statement (.ori x0) := fun _ _ => rfl
theorem xori : ∀ x0, Statement (.xori x0) := fun _ _ => rfl
theorem andni : ∀ x0, Statement (.andni x0) := fun _ _ => rfl
theorem shli : ∀ x0, Statement (.shli x0) := fun _ _ => rfl
theorem shri : ∀ x0, Statement (.shri x0) := fun _ _ => rfl
theorem sari : ∀ x0, Statement (.sari x0) := fun _ _ => rfl
theorem roli : ∀ x0, Statement (.roli x0) := fun _ _ => rfl
theorem mini : ∀ x0, Statement (.mini x0) := fun _ _ => rfl
theorem maxi : ∀ x0, Statement (.maxi x0) := fun _ _ => rfl
theorem minui : ∀ x0, Statement (.minui x0) := fun _ _ => rfl
theorem maxui : ∀ x0, Statement (.maxui x0) := fun _ _ => rfl
theorem lih : ∀ x0, Statement (.lih x0) := fun _ _ => rfl
theorem cmpeq : ∀ x0, Statement (.cmpeq x0) := fun _ _ => rfl
theorem cmpne : ∀ x0, Statement (.cmpne x0) := fun _ _ => rfl
theorem cmplt : ∀ x0, Statement (.cmplt x0) := fun _ _ => rfl
theorem cmple : ∀ x0, Statement (.cmple x0) := fun _ _ => rfl
theorem cmpltu : ∀ x0, Statement (.cmpltu x0) := fun _ _ => rfl
theorem cmpleu : ∀ x0, Statement (.cmpleu x0) := fun _ _ => rfl
theorem cmpeqi : ∀ x0, Statement (.cmpeqi x0) := fun _ _ => rfl
theorem cmpnei : ∀ x0, Statement (.cmpnei x0) := fun _ _ => rfl
theorem cmplti : ∀ x0, Statement (.cmplti x0) := fun _ _ => rfl
theorem cmplei : ∀ x0, Statement (.cmplei x0) := fun _ _ => rfl
theorem cmpltui : ∀ x0, Statement (.cmpltui x0) := fun _ _ => rfl
theorem cmpleui : ∀ x0, Statement (.cmpleui x0) := fun _ _ => rfl
theorem pand : ∀ x0, Statement (.pand x0) := fun _ _ => rfl
theorem por : ∀ x0, Statement (.por x0) := fun _ _ => rfl
theorem pxor : ∀ x0, Statement (.pxor x0) := fun _ _ => rfl
theorem pnot : ∀ x0, Statement (.pnot x0) := fun _ _ => rfl
theorem agset : ∀ x0, Statement (.agset x0) := fun _ _ => rfl
theorem agget : ∀ x0, Statement (.agget x0) := fun _ _ => rfl
theorem loop : ∀ x0, Statement (.loop x0) := fun _ _ => rfl
theorem prep : ∀ x0, Statement (.prep x0) := fun _ _ => rfl
theorem prepr : ∀ x0, Statement (.prepr x0) := fun _ _ => rfl
theorem ld : ∀ x0, Statement (.ld x0) := fun _ _ => rfl
theorem st : ∀ x0, Statement (.st x0) := fun _ _ => rfl
theorem stadd : ∀ x0, Statement (.stadd x0) := fun _ _ => rfl
theorem stand : ∀ x0, Statement (.stand x0) := fun _ _ => rfl
theorem stor : ∀ x0, Statement (.stor x0) := fun _ _ => rfl
theorem stxor : ∀ x0, Statement (.stxor x0) := fun _ _ => rfl
theorem stmin : ∀ x0, Statement (.stmin x0) := fun _ _ => rfl
theorem stmax : ∀ x0, Statement (.stmax x0) := fun _ _ => rfl
theorem stminu : ∀ x0, Statement (.stminu x0) := fun _ _ => rfl
theorem stmaxu : ∀ x0, Statement (.stmaxu x0) := fun _ _ => rfl
theorem stfadd : ∀ x0, Statement (.stfadd x0) := fun _ _ => rfl
theorem stfmin : ∀ x0, Statement (.stfmin x0) := fun _ _ => rfl
theorem stfmax : ∀ x0, Statement (.stfmax x0) := fun _ _ => rfl
theorem ldadd : ∀ x0, Statement (.ldadd x0) := fun _ _ => rfl
theorem ldand : ∀ x0, Statement (.ldand x0) := fun _ _ => rfl
theorem ldor : ∀ x0, Statement (.ldor x0) := fun _ _ => rfl
theorem ldxor : ∀ x0, Statement (.ldxor x0) := fun _ _ => rfl
theorem ldmin : ∀ x0, Statement (.ldmin x0) := fun _ _ => rfl
theorem ldmax : ∀ x0, Statement (.ldmax x0) := fun _ _ => rfl
theorem ldminu : ∀ x0, Statement (.ldminu x0) := fun _ _ => rfl
theorem ldmaxu : ∀ x0, Statement (.ldmaxu x0) := fun _ _ => rfl
theorem ldfadd : ∀ x0, Statement (.ldfadd x0) := fun _ _ => rfl
theorem ldfmin : ∀ x0, Statement (.ldfmin x0) := fun _ _ => rfl
theorem ldfmax : ∀ x0, Statement (.ldfmax x0) := fun _ _ => rfl
theorem swp : ∀ x0, Statement (.swp x0) := fun _ _ => rfl
theorem cas : ∀ x0, Statement (.cas x0) := fun _ _ => rfl
theorem albegin : ∀ x0, Statement (.albegin x0) := fun _ _ => rfl
theorem waita : ∀ x0, Statement (.waita x0) := fun _ _ => rfl
theorem mfsr : ∀ x0, Statement (.mfsr x0) := fun _ _ => rfl
theorem mtsr : ∀ x0, Statement (.mtsr x0) := fun _ _ => rfl
theorem mssr : ∀ x0, Statement (.mssr x0) := fun _ _ => rfl
theorem mcsr : ∀ x0, Statement (.mcsr x0) := fun _ _ => rfl
theorem mode : ∀ x0 x1, Statement (.mode x0 x1) := fun _ _ _ => rfl
theorem clkdiv : ∀ x0 x1, Statement (.clkdiv x0 x1) := fun _ _ _ => rfl
theorem fence : ∀ x0, Statement (.fence x0) := fun _ _ => rfl
theorem waits : ∀ x0, Statement (.waits x0) := fun _ _ => rfl
theorem trap : ∀ x0, Statement (.trap x0) := fun _ _ => rfl
theorem yieldchk : ∀ x0 x1, Statement (.yieldchk x0 x1) := fun _ _ _ => rfl
theorem vadd : ∀ x0, Statement (.vadd x0) := fun _ _ => rfl
theorem vsub : ∀ x0, Statement (.vsub x0) := fun _ _ => rfl
theorem vmul : ∀ x0, Statement (.vmul x0) := fun _ _ => rfl
theorem vfma : ∀ x0, Statement (.vfma x0) := fun _ _ => rfl
theorem vfms : ∀ x0, Statement (.vfms x0) := fun _ _ => rfl
theorem vfnma : ∀ x0, Statement (.vfnma x0) := fun _ _ => rfl
theorem vmin : ∀ x0, Statement (.vmin x0) := fun _ _ => rfl
theorem vmax : ∀ x0, Statement (.vmax x0) := fun _ _ => rfl
theorem vabs : ∀ x0, Statement (.vabs x0) := fun _ _ => rfl
theorem vneg : ∀ x0, Statement (.vneg x0) := fun _ _ => rfl
theorem vdiv : ∀ x0, Statement (.vdiv x0) := fun _ _ => rfl
theorem vsqrt : ∀ x0, Statement (.vsqrt x0) := fun _ _ => rfl
theorem vrcp : ∀ x0, Statement (.vrcp x0) := fun _ _ => rfl
theorem vrsq : ∀ x0, Statement (.vrsq x0) := fun _ _ => rfl
theorem vexp2 : ∀ x0, Statement (.vexp2 x0) := fun _ _ => rfl
theorem vlog2 : ∀ x0, Statement (.vlog2 x0) := fun _ _ => rfl
theorem viadd : ∀ x0, Statement (.viadd x0) := fun _ _ => rfl
theorem visub : ∀ x0, Statement (.visub x0) := fun _ _ => rfl
theorem vimul : ∀ x0, Statement (.vimul x0) := fun _ _ => rfl
theorem vimin : ∀ x0, Statement (.vimin x0) := fun _ _ => rfl
theorem vimax : ∀ x0, Statement (.vimax x0) := fun _ _ => rfl
theorem viminu : ∀ x0, Statement (.viminu x0) := fun _ _ => rfl
theorem vimaxu : ∀ x0, Statement (.vimaxu x0) := fun _ _ => rfl
theorem vand : ∀ x0, Statement (.vand x0) := fun _ _ => rfl
theorem vor : ∀ x0, Statement (.vor x0) := fun _ _ => rfl
theorem vxor : ∀ x0, Statement (.vxor x0) := fun _ _ => rfl
theorem vshl : ∀ x0, Statement (.vshl x0) := fun _ _ => rfl
theorem vshr : ∀ x0, Statement (.vshr x0) := fun _ _ => rfl
theorem vsar : ∀ x0, Statement (.vsar x0) := fun _ _ => rfl
theorem viadds : ∀ x0, Statement (.viadds x0) := fun _ _ => rfl
theorem visubs : ∀ x0, Statement (.visubs x0) := fun _ _ => rfl
theorem vadd128 : ∀ x0, Statement (.vadd128 x0) := fun _ _ => rfl
theorem vcmpeq : ∀ x0, Statement (.vcmpeq x0) := fun _ _ => rfl
theorem vcmpne : ∀ x0, Statement (.vcmpne x0) := fun _ _ => rfl
theorem vcmplt : ∀ x0, Statement (.vcmplt x0) := fun _ _ => rfl
theorem vcmple : ∀ x0, Statement (.vcmple x0) := fun _ _ => rfl
theorem vcmpun : ∀ x0, Statement (.vcmpun x0) := fun _ _ => rfl
theorem vicmplt : ∀ x0, Statement (.vicmplt x0) := fun _ _ => rfl
theorem vicmpltu : ∀ x0, Statement (.vicmpltu x0) := fun _ _ => rfl
theorem mand : ∀ x0, Statement (.mand x0) := fun _ _ => rfl
theorem mor : ∀ x0, Statement (.mor x0) := fun _ _ => rfl
theorem mxor : ∀ x0, Statement (.mxor x0) := fun _ _ => rfl
theorem mnot : ∀ x0, Statement (.mnot x0) := fun _ _ => rfl
theorem mpop : ∀ x0, Statement (.mpop x0) := fun _ _ => rfl
theorem mset : ∀ x0, Statement (.mset x0) := fun _ _ => rfl
theorem vsel : ∀ x0, Statement (.vsel x0) := fun _ _ => rfl
theorem vperm : ∀ x0, Statement (.vperm x0) := fun _ _ => rfl
theorem vbcst : ∀ x0, Statement (.vbcst x0) := fun _ _ => rfl
theorem vcompact : ∀ x0, Statement (.vcompact x0) := fun _ _ => rfl
theorem vexpand : ∀ x0, Statement (.vexpand x0) := fun _ _ => rfl
theorem vmovs : ∀ x0, Statement (.vmovs x0) := fun _ _ => rfl
theorem vrsum : ∀ x0, Statement (.vrsum x0) := fun _ _ => rfl
theorem vrmax : ∀ x0, Statement (.vrmax x0) := fun _ _ => rfl
theorem vrmin : ∀ x0, Statement (.vrmin x0) := fun _ _ => rfl
theorem vscan : ∀ x0, Statement (.vscan x0) := fun _ _ => rfl
theorem virsum : ∀ x0, Statement (.virsum x0) := fun _ _ => rfl
theorem vcvt : ∀ x0, Statement (.vcvt x0) := fun _ _ => rfl
theorem vqnt : ∀ x0, Statement (.vqnt x0) := fun _ _ => rfl
theorem vld : ∀ x0, Statement (.vld x0) := fun _ _ => rfl
theorem vst : ∀ x0, Statement (.vst x0) := fun _ _ => rfl
theorem vgath : ∀ x0, Statement (.vgath x0) := fun _ _ => rfl
theorem vscat : ∀ x0, Statement (.vscat x0) := fun _ _ => rfl
theorem vstadd : ∀ x0, Statement (.vstadd x0) := fun _ _ => rfl
theorem vstmin : ∀ x0, Statement (.vstmin x0) := fun _ _ => rfl
theorem vstmax : ∀ x0, Statement (.vstmax x0) := fun _ _ => rfl
theorem vstfadd : ∀ x0, Statement (.vstfadd x0) := fun _ _ => rfl
theorem vstfmin : ∀ x0, Statement (.vstfmin x0) := fun _ _ => rfl
theorem vstfmax : ∀ x0, Statement (.vstfmax x0) := fun _ _ => rfl
theorem vldadd : ∀ x0, Statement (.vldadd x0) := fun _ _ => rfl
theorem vldmin : ∀ x0, Statement (.vldmin x0) := fun _ _ => rfl
theorem vldmax : ∀ x0, Statement (.vldmax x0) := fun _ _ => rfl
theorem vrng : ∀ x0, Statement (.vrng x0) := fun _ _ => rfl
theorem defer : ∀ x0, Statement (.defer x0) := fun _ _ => rfl
theorem drain : ∀ x0, Statement (.drain x0) := fun _ _ => rfl
theorem drainp : ∀ x0, Statement (.drainp x0) := fun _ _ => rfl
theorem dadd : ∀ x0, Statement (.dadd x0) := fun _ _ => rfl
theorem dsub : ∀ x0, Statement (.dsub x0) := fun _ _ => rfl
theorem dmul : ∀ x0, Statement (.dmul x0) := fun _ _ => rfl
theorem ddiv : ∀ x0, Statement (.ddiv x0) := fun _ _ => rfl
theorem dqua : ∀ x0, Statement (.dqua x0) := fun _ _ => rfl
theorem dcmpeq : ∀ x0, Statement (.dcmpeq x0) := fun _ _ => rfl
theorem dcmplt : ∀ x0, Statement (.dcmplt x0) := fun _ _ => rfl
theorem dcmple : ∀ x0, Statement (.dcmple x0) := fun _ _ => rfl
theorem dcvtb : ∀ x0, Statement (.dcvtb x0) := fun _ _ => rfl
theorem dcvtd : ∀ x0, Statement (.dcvtd x0) := fun _ _ => rfl
theorem mgath : ∀ x0, Statement (.mgath x0) := fun _ _ => rfl
theorem mldw : ∀ x0, Statement (.mldw x0) := fun _ _ => rfl
theorem mma : ∀ x0, Statement (.mma x0) := fun _ _ => rfl
theorem mmad : ∀ x0, Statement (.mmad x0) := fun _ _ => rfl
theorem mrd : ∀ x0, Statement (.mrd x0) := fun _ _ => rfl
theorem mwr : ∀ x0, Statement (.mwr x0) := fun _ _ => rfl
theorem mzero : ∀ x0, Statement (.mzero x0) := fun _ _ => rfl
theorem mstat : ∀ x0, Statement (.mstat x0) := fun _ _ => rfl
theorem cloc : ∀ x0, Statement (.cloc x0) := fun _ _ => rfl
theorem cisl : ∀ x0, Statement (.cisl x0) := fun _ _ => rfl
theorem cgrd : ∀ x0, Statement (.cgrd x0) := fun _ _ => rfl
theorem cgwr : ∀ x0, Statement (.cgwr x0) := fun _ _ => rfl
theorem cfill : ∀ x0, Statement (.cfill x0) := fun _ _ => rfl
theorem cxpos : ∀ x0, Statement (.cxpos x0) := fun _ _ => rfl
theorem cdec : ∀ x0, Statement (.cdec x0) := fun _ _ => rfl
theorem cfeed : ∀ x0, Statement (.cfeed x0) := fun _ _ => rfl
theorem cgath : ∀ x0, Statement (.cgath x0) := fun _ _ => rfl
theorem act : ∀ x0, Statement (.act x0) := fun _ _ => rfl
theorem rd : ∀ x0, Statement (.rd x0) := fun _ _ => rfl
theorem wr : ∀ x0, Statement (.wr x0) := fun _ _ => rfl
theorem pre : ∀ x0, Statement (.pre x0) := fun _ _ => rfl
theorem refpb : ∀ x0, Statement (.refpb x0) := fun _ _ => rfl
theorem xunp4 : ∀ x0, Statement (.xunp4 x0) := fun _ _ => rfl
theorem xdrf : ∀ x0, Statement (.xdrf x0) := fun _ _ => rfl
theorem xpose : ∀ x0, Statement (.xpose x0) := fun _ _ => rfl
theorem xcvt : ∀ x0, Statement (.xcvt x0) := fun _ _ => rfl
theorem xmx : ∀ x0, Statement (.xmx x0) := fun _ _ => rfl
theorem bundleIssue : ∀ x0 x1, Statement (.bundleIssue x0 x1) := fun _ _ _ => rfl
theorem transferJump : ∀ x0 x1 x2 x3, Statement (.transferJump x0 x1 x2 x3) := fun _ _ _ _ _ => rfl
theorem transferCall : ∀ x0 x1 x2 x3, Statement (.transferCall x0 x1 x2 x3) := fun _ _ _ _ _ => rfl
theorem loopEnd : ∀ x0 x1, Statement (.loopEnd x0 x1) := fun _ _ _ => rfl
theorem sync : ∀ x0 x1, Statement (.sync x0 x1) := fun _ _ _ => rfl
theorem syncArrival : ∀ x0, Statement (.syncArrival x0) := fun _ _ => rfl
theorem yield : ∀ x0, Statement (.yield x0) := fun _ _ => rfl
theorem rplan : ∀ x0, Statement (.rplan x0) := fun _ _ => rfl
theorem lineArrival : ∀ x0 x1, Statement (.lineArrival x0 x1) := fun _ _ _ => rfl
theorem resultLanding : ∀ x0 x1, Statement (.resultLanding x0 x1) := fun _ _ _ => rfl
theorem vaultRdLanding : ∀ x0 x1 x2, Statement (.vaultRdLanding x0 x1 x2) := fun _ _ _ _ => rfl
theorem taskStop : ∀ x0, Statement (.taskStop x0) := fun _ _ => rfl
theorem handlerEntry : ∀ x0, Statement (.handlerEntry x0) := fun _ _ => rfl
theorem yieldIntervalExpiry : ∀ x0, Statement (.yieldIntervalExpiry x0) := fun _ _ => rfl
theorem replanIntervalExpiry : ∀ x0, Statement (.replanIntervalExpiry x0) := fun _ _ => rfl
theorem waitaComplete : ∀ x0, Statement (.waitaComplete x0) := fun _ _ => rfl
theorem waitsComplete : ∀ x0, Statement (.waitsComplete x0) := fun _ _ => rfl
theorem fenceComplete : ∀ x0, Statement (.fenceComplete x0) := fun _ _ => rfl
theorem modeSwitch : ∀ x0, Statement (.modeSwitch x0) := fun _ _ => rfl
theorem tretResume : ∀ x0, Statement (.tretResume x0) := fun _ _ => rfl
theorem endExit : ∀ x0, Statement (.endExit x0) := fun _ _ => rfl
theorem exitBarrierRelease : ∀ x0 x1, Statement (.exitBarrierRelease x0 x1) := fun _ _ _ => rfl
theorem islandBarrierRelease : ∀ x0 x1 x2, Statement (.islandBarrierRelease x0 x1 x2) := fun _ _ _ _ => rfl
theorem lamplighterReleaseBase : ∀ x0 x1 x2, Statement (.lamplighterReleaseBase x0 x1 x2) := fun _ _ _ _ => rfl
theorem lamplighterPhaseSignal : ∀ x0 x1 x2 x3, Statement (.lamplighterPhaseSignal x0 x1 x2 x3) := fun _ _ _ _ _ => rfl
theorem memberLostTrap : ∀ x0, Statement (.memberLostTrap x0) := fun _ _ => rfl
theorem drfRowDecode : ∀ x0, Statement (.drfRowDecode x0) := fun _ _ => rfl
theorem decoderEntryEmit : ∀ x0, Statement (.decoderEntryEmit x0) := fun _ _ => rfl
theorem decoderTrap : ∀ x0, Statement (.decoderTrap x0) := fun _ _ => rfl
theorem mmadRequestStart : ∀ x0, Statement (.mmadRequestStart x0) := fun _ _ => rfl
theorem mmadEntryPop : ∀ x0, Statement (.mmadEntryPop x0) := fun _ _ => rfl
theorem mmadActivationRead : ∀ x0 x1, Statement (.mmadActivationRead x0 x1) := fun _ _ _ => rfl
theorem mmadFaultTrap : ∀ x0, Statement (.mmadFaultTrap x0) := fun _ _ => rfl
theorem translationWalk : ∀ x0 x1, Statement (.translationWalk x0 x1) := fun _ _ _ => rfl
theorem globalCopyUnitPerform : ∀ x0 x1 x2, Statement (.globalCopyUnitPerform x0 x1 x2) := fun _ _ _ _ => rfl
theorem cfeedUnitEntry : ∀ x0 x1, Statement (.cfeedUnitEntry x0 x1) := fun _ _ _ => rfl
theorem globalFaultTrap : ∀ x0 x1 x2, Statement (.globalFaultTrap x0 x1 x2) := fun _ _ _ _ => rfl
theorem atomicPerform : ∀ x0 x1, Statement (.atomicPerform x0 x1) := fun _ _ _ => rfl
theorem vectorAtomicProcess : ∀ x0, Statement (.vectorAtomicProcess x0) := fun _ _ => rfl
theorem linkLineAccept : ∀ x0 x1, Statement (.linkLineAccept x0 x1) := fun _ _ _ => rfl
theorem linkLineDelivery : ∀ x0, Statement (.linkLineDelivery x0) := fun _ _ => rfl
theorem linkSyncIntervalExpiry : ∀ x0, Statement (.linkSyncIntervalExpiry x0) := fun _ _ => rfl
theorem linkDeliveryFailure : ∀ x0, Statement (.linkDeliveryFailure x0) := fun _ _ => rfl
theorem barrierMessage : ∀ x0 x1 x2 x3, Statement (.barrierMessage x0 x1 x2 x3) := fun _ _ _ _ _ => rfl
theorem refreshDuePoint : ∀ x0 x1, Statement (.refreshDuePoint x0 x1) := fun _ _ _ => rfl
theorem sequencerRefresh : ∀ x0 x1, Statement (.sequencerRefresh x0 x1) := fun _ _ _ => rfl
theorem vaultSensorRead : ∀ x0 x1 x2, Statement (.vaultSensorRead x0 x1 x2) := fun _ _ _ _ => rfl
theorem sensorFailureReport : ∀ x0, Statement (.sensorFailureReport x0) := fun _ _ => rfl
theorem classLeadExpiry : ∀ x0 x1, Statement (.classLeadExpiry x0 x1) := fun _ _ _ => rfl
theorem computeSensorRead : ∀ x0 x1, Statement (.computeSensorRead x0 x1) := fun _ _ _ => rfl
theorem submission : ∀ x0 x1 x2, Statement (.submission x0 x1 x2) := fun _ _ _ _ => rfl
theorem noticeDelivery : ∀ x0 x1, Statement (.noticeDelivery x0 x1) := fun _ _ _ => rfl
theorem binding : ∀ x0, Statement (.binding x0) := fun _ _ => rfl
theorem pageMigration : ∀ x0 x1 x2, Statement (.pageMigration x0 x1 x2) := fun _ _ _ _ => rfl
theorem gangStart : ∀ x0 x1, Statement (.gangStart x0 x1) := fun _ _ _ => rfl
theorem contextSave : ∀ x0, Statement (.contextSave x0) := fun _ _ => rfl
theorem checkpointPathEntry : ∀ x0, Statement (.checkpointPathEntry x0) := fun _ _ => rfl
theorem resume : ∀ x0 x1 x2, Statement (.resume x0 x1 x2) := fun _ _ _ _ => rfl
theorem gangRestart : ∀ x0 x1, Statement (.gangRestart x0 x1) := fun _ _ _ => rfl
theorem holdEnd : ∀ x0 x1, Statement (.holdEnd x0 x1) := fun _ _ _ => rfl
theorem cancel : ∀ x0 x1, Statement (.cancel x0 x1) := fun _ _ _ => rfl
theorem frameRelease : ∀ x0 x1, Statement (.frameRelease x0 x1) := fun _ _ _ => rfl
theorem failedTileReleaseTimeout : ∀ x0, Statement (.failedTileReleaseTimeout x0) := fun _ _ => rfl
theorem launchStatusRead : ∀ x0 x1, Statement (.launchStatusRead x0 x1) := fun _ _ _ => rfl
theorem statusAck : ∀ x0 x1, Statement (.statusAck x0 x1) := fun _ _ _ => rfl
theorem statusRecordExpiry : ∀ x0, Statement (.statusRecordExpiry x0) := fun _ _ => rfl
theorem imageLoad : ∀ x0 x1 x2, Statement (.imageLoad x0 x1 x2) := fun _ _ _ _ => rfl
theorem paramBlockPatch : ∀ x0 x1 x2, Statement (.paramBlockPatch x0 x1 x2) := fun _ _ _ _ => rfl
theorem timedTableWrite : ∀ x0 x1 x2 x3 x4, Statement (.timedTableWrite x0 x1 x2 x3 x4) := fun _ _ _ _ _ _ => rfl
theorem timedEntryFire : ∀ x0 x1, Statement (.timedEntryFire x0 x1) := fun _ _ _ => rfl
theorem sessionOpen : ∀ x0 x1 x2, Statement (.sessionOpen x0 x1 x2) := fun _ _ _ _ => rfl
theorem sessionClose : ∀ x0 x1, Statement (.sessionClose x0 x1) := fun _ _ _ => rfl
theorem wakePattern : ∀ x0 x1 x2, Statement (.wakePattern x0 x1 x2) := fun _ _ _ _ => rfl
theorem firmwarePush : ∀ x0 x1 x2, Statement (.firmwarePush x0 x1 x2) := fun _ _ _ _ => rfl
theorem quoteRequest : ∀ x0 x1, Statement (.quoteRequest x0 x1) := fun _ _ _ => rfl
theorem claim : ∀ x0 x1 x2, Statement (.claim x0 x1 x2) := fun _ _ _ _ => rfl
theorem handover : ∀ x0 x1, Statement (.handover x0 x1) := fun _ _ _ => rfl
theorem lanternMessage : ∀ x0 x1 x2, Statement (.lanternMessage x0 x1 x2) := fun _ _ _ _ => rfl
theorem tableCacheInvalidate : ∀ x0 x1 x2 x3, Statement (.tableCacheInvalidate x0 x1 x2 x3) := fun _ _ _ _ _ => rfl
theorem writerTagClear : ∀ x0 x1 x2, Statement (.writerTagClear x0 x1 x2) := fun _ _ _ _ => rfl
theorem lamplighterWrite : ∀ x0 x1 x2, Statement (.lamplighterWrite x0 x1 x2) := fun _ _ _ _ => rfl
theorem keyLoad : ∀ x0 x1 x2, Statement (.keyLoad x0 x1 x2) := fun _ _ _ _ => rfl
theorem keyErase : ∀ x0 x1, Statement (.keyErase x0 x1) := fun _ _ _ => rfl
theorem regionWrite : ∀ x0 x1 x2 x3 x4, Statement (.regionWrite x0 x1 x2 x3 x4) := fun _ _ _ _ _ _ => rfl
theorem worldAssign : ∀ x0 x1 x2, Statement (.worldAssign x0 x1 x2) := fun _ _ _ _ => rfl
theorem routeWrite : ∀ x0 x1 x2 x3, Statement (.routeWrite x0 x1 x2 x3) := fun _ _ _ _ _ => rfl
theorem operatingPointRequest : ∀ x0 x1 x2, Statement (.operatingPointRequest x0 x1 x2) := fun _ _ _ _ => rfl
theorem voltageStepComplete : ∀ x0, Statement (.voltageStepComplete x0) := fun _ _ => rfl
theorem serviceClear : ∀ x0 x1, Statement (.serviceClear x0 x1) := fun _ _ _ => rfl
theorem packageReset : ∀ x0, Statement (.packageReset x0) := fun _ _ => rfl
theorem linkUpCommand : ∀ x0 x1, Statement (.linkUpCommand x0 x1) := fun _ _ _ => rfl
theorem hostWindowOpen : ∀ x0 x1 x2 x3, Statement (.hostWindowOpen x0 x1 x2 x3) := fun _ _ _ _ _ => rfl
theorem nodeWindowWrite : ∀ x0 x1 x2 x3, Statement (.nodeWindowWrite x0 x1 x2 x3) := fun _ _ _ _ _ => rfl
theorem nodeWindowRead : ∀ x0 x1 x2 x3, Statement (.nodeWindowRead x0 x1 x2 x3) := fun _ _ _ _ _ => rfl
theorem apertureOpen : ∀ x0 x1 x2, Statement (.apertureOpen x0 x1 x2) := fun _ _ _ _ => rfl
theorem peerAccess : ∀ x0, Statement (.peerAccess x0) := fun _ _ => rfl
theorem ptpMessage : ∀ x0 x1 x2, Statement (.ptpMessage x0 x1 x2) := fun _ _ _ _ => rfl
theorem mxFlitReceive : ∀ x0 x1 x2, Statement (.mxFlitReceive x0 x1 x2) := fun _ _ _ _ => rfl
theorem linkLockLoss : ∀ x0, Statement (.linkLockLoss x0) := fun _ _ => rfl
theorem lanternLinkLoss : ∀ x0, Statement (.lanternLinkLoss x0) := fun _ _ => rfl
theorem secondTierDown : ∀ x0, Statement (.secondTierDown x0) := fun _ _ => rfl
theorem remapCopyLoss : ∀ x0 x1 x2, Statement (.remapCopyLoss x0 x1 x2) := fun _ _ _ _ => rfl
theorem vaultFailure : ∀ x0, Statement (.vaultFailure x0) := fun _ _ => rfl
theorem islandClockStretch : ∀ x0, Statement (.islandClockStretch x0) := fun _ _ => rfl
theorem lanternLinkReturn : ∀ x0, Statement (.lanternLinkReturn x0) := fun _ _ => rfl
theorem linkRetrainComplete : ∀ x0, Statement (.linkRetrainComplete x0) := fun _ _ => rfl
theorem arbitration : Statement .arbitration := fun _ => rfl
theorem lightRemovalTimeout : Statement .lightRemovalTimeout := fun _ => rfl
theorem handoverTimeout : Statement .handoverTimeout := fun _ => rfl
theorem ownerLinkLossTimeout : Statement .ownerLinkLossTimeout := fun _ => rfl
theorem sNop : Statement .sNop := fun _ => rfl
theorem alend : Statement .alend := fun _ => rfl
theorem endTask : Statement .endTask := fun _ => rfl
theorem tret : Statement .tret := fun _ => rfl
theorem vNop : Statement .vNop := fun _ => rfl
theorem mNop : Statement .mNop := fun _ => rfl
theorem cNop : Statement .cNop := fun _ => rfl
theorem dNop : Statement .dNop := fun _ => rfl
theorem prea : Statement .prea := fun _ => rfl
theorem xNop : Statement .xNop := fun _ => rfl

end Sys2Proof.Laws.F
end

