-- ==== Sys2Proof/Laws/Reports.lean ====
section
/-! SUPPORT. What reports, answers to ports and the owner's commands change: the log, the messages told and the service
status, and nothing else; and what epoch checks and throttle commands change. -/

namespace Sys2Proof.Machine

/-- A log record changes the log alone (R380). -/
theorem State.logIt_same (s : State) (a b c d : Nat) :
    ∃ lg ov, s.logIt a b c d = { s with log := lg, overwritten := ov } := by
  unfold State.logIt; simp only; split <;> exact ⟨_, _, rfl⟩

/-- A message to the owner changes what is told alone. -/
theorem State.tellOwner_same (s : State) (m : Told) : ∃ ms, s.tellOwner m = { s with told := s.told ++ ms } := by
  unfold State.tellOwner; split
  · exact ⟨_, rfl⟩
  · exact ⟨[], by simp⟩

@[simp] theorem State.logIt_tiles (s : State) (a b c d : Nat) : (s.logIt a b c d).tiles = s.tiles := by
  obtain ⟨_, _, e⟩ := s.logIt_same a b c d; rw [e]
@[simp] theorem State.logIt_mem (s : State) (a b c d : Nat) : (s.logIt a b c d).mem = s.mem := by
  obtain ⟨_, _, e⟩ := s.logIt_same a b c d; rw [e]
@[simp] theorem State.logIt_svc (s : State) (a b c d : Nat) : (s.logIt a b c d).svc = s.svc := by
  obtain ⟨_, _, e⟩ := s.logIt_same a b c d; rw [e]
@[simp] theorem State.logIt_told (s : State) (a b c d : Nat) : (s.logIt a b c d).told = s.told := by
  obtain ⟨_, _, e⟩ := s.logIt_same a b c d; rw [e]
@[simp] theorem State.logIt_launches (s : State) (a b c d : Nat) : (s.logIt a b c d).launches = s.launches := by
  obtain ⟨_, _, e⟩ := s.logIt_same a b c d; rw [e]
@[simp] theorem State.tellOwner_tiles (s : State) (m : Told) : (s.tellOwner m).tiles = s.tiles := by
  obtain ⟨_, e⟩ := s.tellOwner_same m; rw [e]
@[simp] theorem State.tellOwner_mem (s : State) (m : Told) : (s.tellOwner m).mem = s.mem := by
  obtain ⟨_, e⟩ := s.tellOwner_same m; rw [e]
@[simp] theorem State.tellOwner_svc (s : State) (m : Told) : (s.tellOwner m).svc = s.svc := by
  obtain ⟨_, e⟩ := s.tellOwner_same m; rw [e]

/-- What is told already stays told. -/
theorem State.mem_tellOwner {s : State} {m : Told} {e : Nat × Told} (h : e ∈ s.told) : e ∈ (s.tellOwner m).told := by
  obtain ⟨ms, q⟩ := s.tellOwner_same m; rw [q]; exact List.mem_append_left _ h

/-- A reported fault changes the log, what is told and the service status alone, and sets its bit (R378, R380). -/
theorem State.reportFault_same (s : State) (a b c d : Nat) : ∃ lg ov td sn, s.reportFault a b c d =
    { s with log := lg, overwritten := ov, told := td, svc := s.svc ||| BitVec.twoPow 8 a, svcNew := sn } := by
  unfold State.reportFault
  obtain ⟨lg, ov, e1⟩ := s.logIt_same b c d 0
  obtain ⟨td, e2⟩ := ({ s with log := lg, overwritten := ov } : State).tellOwner_same (.warning c d)
  rw [e1]; simp only [e2]; exact ⟨_, _, _, _, rfl⟩

@[simp] theorem State.reportFault_svc (s : State) (a b c d : Nat) :
    (s.reportFault a b c d).svc = s.svc ||| BitVec.twoPow 8 a := by
  obtain ⟨_, _, _, _, e⟩ := s.reportFault_same a b c d; rw [e]
@[simp] theorem State.reportFault_tiles (s : State) (a b c d : Nat) : (s.reportFault a b c d).tiles = s.tiles := by
  obtain ⟨_, _, _, _, e⟩ := s.reportFault_same a b c d; rw [e]
@[simp] theorem State.reportFault_tile (s : State) (a b c d t : Nat) : (s.reportFault a b c d).tile t = s.tile t := by
  unfold State.tile; rw [State.reportFault_tiles]
@[simp] theorem State.reportFault_mem (s : State) (a b c d : Nat) : (s.reportFault a b c d).mem = s.mem := by
  obtain ⟨_, _, _, _, e⟩ := s.reportFault_same a b c d; rw [e]

/-- A command of the owner in its session, while the package is up, is carried out (R357, R359, R381). -/
theorem State.asOwner_of {s : State} {port : Nat} (hb : s.boot = .ready) (hh : s.heard port = true)
    (ho : s.commander = some port) (f : State → State) : s.asOwner port f = f s := by
  unfold State.asOwner; rw [hb, hh, ho]; simp

/-- Another port's command changes the log and what is told alone (R357). -/
theorem State.asOwner_other {s : State} {port : Nat} (ho : s.commander ≠ some port) (f : State → State) :
    ∃ lg ov td, s.asOwner port f = { s with log := lg, overwritten := ov, told := td } := by
  unfold State.asOwner
  split
  · exact ⟨_, _, _, rfl⟩
  split
  · obtain ⟨lg, ov, e⟩ := s.logIt_same 5 3 port 0; exact ⟨lg, ov, _, e⟩
  · obtain ⟨lg, ov, e1⟩ := s.logIt_same 5 1 port 0
    rw [e1]; exact ⟨_, _, _, rfl⟩

/-! ### Reports of epoch checks (R308 to R311) -/

theorem State.onLaunch_same (s : State) (n : Nat) (f : Launch → Launch) : ∃ ls, s.onLaunch n f = { s with launches := ls } := by
  unfold State.onLaunch
  repeat' split
  all_goals exact ⟨_, rfl⟩

theorem State.epochReport_same (s : State) (a : Actor) (code va kind : Nat) (g : BitVec 48) :
    ∃ ls lg ov, s.epochReport a code va kind g = { s with launches := ls, log := lg, overwritten := ov } := by
  unfold State.epochReport
  extract_lets place
  obtain ⟨lg, ov, h⟩ := s.logIt_same 15 code place va
  rw [h]
  obtain ⟨ls, h'⟩ := State.onLaunch_same { s with log := lg, overwritten := ov } a.serial fun l =>
    let r : EpochReport := { code := code, va := va, kind := kind, role := a.role, tagRole := tagRole g, epoch := a.epoch }
    { l with reports := if l.reports.length < 64 then l.reports ++ [r] else l.reports
             nrep := Nat.min (2 ^ 32 - 1) (l.nrep + 1) }
  exact ⟨ls, lg, ov, h'⟩

/-- A plain write's check changes the tags, and what its report changes (R309, R311). -/
theorem State.tagWrite_same (s : State) (a : Actor) (line va : Nat) :
    ∃ ts ls lg ov, (s.tagWrite a line va).2 = { s with tags := ts, launches := ls, log := lg, overwritten := ov } := by
  unfold State.tagWrite
  extract_lets g retag u
  obtain ⟨_, _, _, h1⟩ := s.epochReport_same a 0x2A va 1 g
  obtain ⟨_, _, _, h2⟩ := s.epochReport_same a 0x29 va 1 g
  repeat' split
  · exact ⟨_, _, _, _, rfl⟩
  · simp only [retag, h1]; exact ⟨_, _, _, _, rfl⟩
  · exact ⟨_, _, _, _, rfl⟩
  · simp only [retag, u, h2]; exact ⟨_, _, _, _, rfl⟩
  · simp only [u, h2]; exact ⟨_, _, _, _, rfl⟩

/-! ### Throttle commands (R334) -/

/-- What a throttle command can do: the floors of its islands, and a notice for each of their tasks. -/
theorem State.throttleIsland_island (s : State) (floors : Vector (BitVec 4) 4) (i k : Nat) :
    (s.throttleIsland floors i).island k =
      if k = i then { s.island i with throttle := floors.map fun f => max 1 (min 8 f.toNat) } else s.island k :=
  State.island_setIsland s i _ k

theorem State.throttleIsland_same (s : State) (floors : Vector (BitVec 4) 4) (i : Nat) :
    ∃ is ns, s.throttleIsland floors i = { s with isl := is, notices := s.notices ++ ns } := ⟨_, _, rfl⟩

theorem State.throttleAll_same (s : State) (islands : List Nat) (floors : Vector (BitVec 4) 4) :
    ∃ is ns, s.throttleAll islands floors = { s with isl := is, notices := s.notices ++ ns } := by
  unfold State.throttleAll
  generalize islands.filter (· < Config.islands) = xs
  induction xs generalizing s with
  | nil => exact ⟨s.isl, [], by simp⟩
  | cons x xs ih =>
    obtain ⟨is, ns, h⟩ := s.throttleIsland_same floors x
    obtain ⟨is', ns', h'⟩ := ih (s.throttleIsland floors x)
    refine ⟨is', ns ++ ns', ?_⟩
    rw [List.foldl_cons, h', h]; simp

end Sys2Proof.Machine
end

