-- ==== Sys2Proof/Machine/AsmTerm.lean ====
section
/-! DEFINITION. The assembler's names, expressions and literals (R61, R64, R65, R229). Source text is a list of
characters. -/

namespace Sys2Proof.Machine.Asm

abbrev Text := List Char

/-! ### Names (R61) -/

def isBlank (c : Char) : Bool := c == ' ' || c == '\t' || c == '\r' || c == '\n'
def skip (t : Text) : Text := t.dropWhile isBlank
def trim (t : Text) : Text := (skip (skip t).reverse).reverse

/-- Letters, digits, underscores and dots; letters are those of ASCII (log entry 82). -/
def nameChar (c : Char) : Bool := c.isAlphanum || c == '_' || c == '.'
def isName (t : Text) : Bool :=
  match t with
  | [] => false
  | c :: _ => !c.isDigit && t.all nameChar

/-- Text as a string, in lower case where case does not count (R61). -/
def str (t : Text) : String := String.ofList t
def low (t : Text) : String := String.ofList (t.map Char.toLower)

/-- A name and what follows it. -/
def cutName (t : Text) : Text × Text := t.span nameChar

/-- Parts between commas that stand outside parentheses. -/
def splitCommas : Text → Nat → Text → List Text
  | [], _, cur => [trim cur.reverse]
  | c :: r, depth, cur =>
    if c = '(' then splitCommas r (depth + 1) (c :: cur)
    else if c = ')' then splitCommas r (depth - 1) (c :: cur)
    else if c = ',' && depth == 0 then trim cur.reverse :: splitCommas r 0 []
    else splitCommas r depth (c :: cur)
def items (t : Text) : List Text := if (trim t).isEmpty then [] else splitCommas t 0 []

/-! ### Numbers -/

def digit (c : Char) : Nat :=
  if c.isDigit then c.toNat - 48
  else if 'a' ≤ c && c ≤ 'f' then c.toNat - 87
  else if 'A' ≤ c && c ≤ 'F' then c.toNat - 55 else 99

/-- The number that digits of a base write; none without digits. -/
def digits (base : Nat) (t : Text) : Option Nat :=
  if t.isEmpty || t.any (base ≤ digit ·) then none else some (t.foldl (fun n c => n * base + digit c) 0)

/-- A constant: decimal, 0x or 0b, with underscores (R64). -/
def constant (t : Text) : Option Nat :=
  match t.filter (· != '_') with
  | '0' :: 'x' :: r | '0' :: 'X' :: r => digits 16 r
  | '0' :: 'b' :: r | '0' :: 'B' :: r => digits 2 r
  | r => digits 10 r

/-! ### Expressions (R64) -/

inductive BinOp where
  | mul | div | rem | add | sub | shl | sar | and | xor | or
  deriving DecidableEq, Repr

inductive Expr where
  | num (n : Nat)
  | name (t : Text)
  | dot
  | neg (e : Expr)
  | not (e : Expr)
  | bin (o : BinOp) (a b : Expr)
  deriving DecidableEq, Repr

inductive Tok where
  | num (n : Nat)
  | name (t : Text)
  | op (o : BinOp)
  | tilde | lpar | rpar
  deriving DecidableEq, Repr

/-- Operators of one character. -/
def opOf (c : Char) : Option Tok :=
  if c = '*' then some (.op .mul) else if c = '/' then some (.op .div) else if c = '%' then some (.op .rem)
  else if c = '+' then some (.op .add) else if c = '-' then some (.op .sub) else if c = '&' then some (.op .and)
  else if c = '^' then some (.op .xor) else if c = '|' then some (.op .or) else if c = '~' then some .tilde
  else if c = '(' then some .lpar else if c = ')' then some .rpar else none

/-- The tokens of an expression; each one takes at least one character. -/
def lex : Nat → Text → Option (List Tok)
  | _, [] => some []
  | 0, _ => none
  | k + 1, c :: r =>
    if isBlank c then lex k r
    else if c.isDigit then
      let w := (c :: r).takeWhile fun c => c.isAlphanum || c == '_'
      (constant w).bind fun n => (lex k ((c :: r).drop w.length)).map (.num n :: ·)
    else if nameChar c then
      let w := (cutName (c :: r)).1
      (lex k ((c :: r).drop w.length)).map (.name w :: ·)
    else if c = '<' || c = '>' then
      if r.head? = some c then (lex k (r.drop 1)).map (.op (if c = '<' then .shl else .sar) :: ·) else none
    else (opOf c).bind fun o => (lex k r).map (o :: ·)

/-- How an operator binds: 0 the lowest, for |, to 5 for *, / and %. -/
def BinOp.rank : BinOp → Nat
  | .or => 0 | .xor => 1 | .and => 2 | .shl | .sar => 3 | .add | .sub => 4 | .mul | .div | .rem => 5

mutual
/-- An expression of operators of a rank or above; at rank 6, one term. -/
def parseAt : Nat → Nat → List Tok → Option (Expr × List Tok)
  | 0, _, _ => none
  | k + 1, 6, ts =>
    match ts with
    | .num n :: r => some (.num n, r)
    | .name t :: r => some (if t = ['.'] then .dot else .name t, r)
    | .op .sub :: r => (parseAt k 6 r).map fun p => (.neg p.1, p.2)
    | .tilde :: r => (parseAt k 6 r).map fun p => (.not p.1, p.2)
    | .lpar :: r =>
      match parseAt k 0 r with
      | some (e, .rpar :: r) => some (e, r)
      | _ => none
    | _ => none
  | k + 1, rank, ts =>
    match parseAt k (rank + 1) ts with
    | some (e, r) => parseMore k rank e r
    | none => none
/-- The operators of a rank that follow an operand, from the left. -/
def parseMore : Nat → Nat → Expr → List Tok → Option (Expr × List Tok)
  | 0, _, _, _ => none
  | k + 1, rank, e, ts =>
    match ts with
    | .op o :: r =>
      if o.rank = rank then
        match parseAt k (rank + 1) r with
        | some (f, r) => parseMore k rank (.bin o e f) r
        | none => none
      else some (e, ts)
    | _ => some (e, ts)
end

/-- The expression that a text writes. -/
def parseExpr (t : Text) : Option Expr :=
  (lex (t.length + 1) t).bind fun ts =>
    match parseAt (16 * ts.length + 16) 0 ts with
    | some (e, []) => some e
    | _ => none

/-- What names stand for while a pass is made; before the last pass an unknown name counts as 0. -/
structure Env where
  names : List (Text × Int)
  dot : Int
  final : Bool
  deriving DecidableEq, Repr

/-- 64-bit two's complement. -/
def wrap (v : Int) : Int := (BitVec.ofInt 64 v).toInt

/-- One operator on two values. -/
def BinOp.apply (env : Env) (o : BinOp) (a b : Int) : Except String Int :=
  let off := fun (msg : String) => if env.final then .error msg else .ok 0
  match o with
  | .mul => .ok (wrap (a * b))
  | .add => .ok (wrap (a + b))
  | .sub => .ok (wrap (a - b))
  | .div => if b = 0 then off "division by zero" else .ok (wrap (a.tdiv b))
  | .rem => if b = 0 then off "division by zero" else .ok (wrap (a.tmod b))
  | .shl => if b < 0 || 63 < b then off "shift count outside 0 to 63" else .ok (wrap (a * 2 ^ b.toNat))
  | .sar => if b < 0 || 63 < b then off "shift count outside 0 to 63" else .ok (a / 2 ^ b.toNat)
  | .and => .ok (BitVec.ofInt 64 a &&& BitVec.ofInt 64 b).toInt
  | .xor => .ok (BitVec.ofInt 64 a ^^^ BitVec.ofInt 64 b).toInt
  | .or => .ok (BitVec.ofInt 64 a ||| BitVec.ofInt 64 b).toInt

/-- The value of an expression (R64). A constant of more than 64 bits counts modulo 2^64 (log entry 82). -/
def Expr.eval (env : Env) : Expr → Except String Int
  | .num n => .ok (wrap n)
  | .dot => .ok env.dot
  | .name t =>
    match env.names.lookup t with
    | some v => .ok v
    | none => if env.final then .error ("undefined name " ++ str t) else .ok 0
  | .neg e => (e.eval env).map fun v => wrap (-v)
  | .not e => (e.eval env).map fun v => -v - 1
  | .bin o a b => (a.eval env).bind fun x => (b.eval env).bind fun y => o.apply env x y

/-- The value that a text writes. -/
def value (env : Env) (t : Text) : Except String Int :=
  match parseExpr t with
  | some e => e.eval env
  | none => .error ("not an expression: " ++ str t)

/-- A value in a field of some bits; one that does not fit is an error, never cut (R63). -/
def fit (width : Nat) (signed : Bool) (v : Int) : Except String Nat :=
  let lo : Int := if signed then -(2 ^ (width - 1) : Nat) else 0
  let hi : Int := if signed then (2 ^ (width - 1) : Nat) else (2 ^ width : Nat)
  if lo ≤ v && v < hi then .ok (v % (2 ^ width : Nat)).toNat else .error "a value outside its field"

/-! ### Literals (R65, R229) -/

/-- A sign, and the rest. -/
def cutSign : Text → Bool × Text
  | '-' :: r => (true, r)
  | '+' :: r => (false, r)
  | r => (false, r)

/-- A signed decimal integer. -/
def exponentOf (t : Text) : Option Int :=
  let (neg, r) := cutSign t
  (digits 10 r).map fun n => if neg then -(n : Int) else n

/-- Digits of a base with at most one point: their number without it, and how many follow it. -/
def pointed (base : Nat) (t : Text) : Option (Nat × Nat) :=
  let (a, r) := t.span (· != '.')
  (digits base (a ++ r.drop 1)).map fun n => (n, r.length - 1)

/-- A literal cut at its exponent's letter; without one the exponent is 0. -/
def cutExponent (letter : Char → Bool) (t : Text) : Option (Text × Int) :=
  match t.span (!letter ·) with
  | (m, []) => some (m, 0)
  | (m, _ :: r) => (exponentOf r).map fun e => (m, e)

/-- A decimal literal: sign, coefficient, and exponent of ten. -/
def decimalLit (t : Text) : Option (Bool × Nat × Int) :=
  let (neg, t) := cutSign t
  (cutExponent (fun c => c == 'e' || c == 'E') t).bind fun p =>
    (pointed 10 p.1).map fun q => (neg, q.1, p.2 - q.2)

/-- A hexadecimal literal after its 0x: coefficient, and exponent of two. -/
def hexLit (t : Text) : Option (Nat × Int) :=
  (cutExponent (fun c => c == 'p' || c == 'P') t).bind fun p =>
    (pointed 16 p.1).map fun q => (q.1, p.2 - 4 * q.2)

/-- A float literal rounded to nearest even in a format; overflow is an error (R65). -/
def floatLit (f : Fmt) (t : Text) : Except String Nat :=
  let done := fun (r : Nat × Flags) => if r.2 &&& fOf != 0 then .error "a literal overflows" else .ok r.1
  let (neg, u) := cutSign t
  match u with
  | '0' :: 'x' :: r | '0' :: 'X' :: r =>
    match hexLit r with
    | some (n, e) => done (f.value false .rne neg n 1 e)
    | none => .error "not a literal"
  | _ =>
    match decimalLit t with
    | some (neg, n, e) => done (f.value false .rne neg (n * 10 ^ e.toNat) (10 ^ (-e).toNat) 0)
    | none => .error "not a literal"

/-- A decimal64 literal with the cohort of its written exponent; one that is not exact is an error (R65, R229). -/
def decLit (t : Text) : Except String Nat :=
  match decimalLit t with
  | some (neg, c, q) => if 10 ^ 16 ≤ c || q < -398 || 369 < q then .error "a literal is not exact" else .ok (decNum neg c q)
  | none => .error "not a literal"

end Sys2Proof.Machine.Asm
end

