-- ==== Sys2Proof/Machine/AsmOp.lean ====
section
/-! DEFINITION. The assembler's operations: mnemonics, suffixes and operands of a slot word (R48 to R56, R63, R116, R122,
R124, R126, R133 to R141, R194 to R221, R236 to R249, R264). -/

namespace Sys2Proof.Machine.Asm

/-! ### Operands -/

/-- An operand of an operation, with the place of its field in the word. -/
inductive Opnd where
  /-- A register of a file: its letters, how many there are, its field's lowest bit. -/
  | reg (letters : String) (count pos : Nat)
  /-- An expression; one written as one more than its field; the label of a PREP. -/
  | imm (pos width : Nat) (signed : Bool)
  | less1 (pos width : Nat)
  | target (pos : Nat)
  /-- One of some values, the field holding its index. -/
  | oneOf (values : List Int) (pos : Nat)
  /-- A name of a table, or an expression. -/
  | named (table : List (String × Nat)) (pos width : Nat)
  /-- A field of a generator, alone or after the generator's name. -/
  | genField (pos : Nat)
  | genWithField (gpos pos : Nat)
  /-- A column, and whether it advances. -/
  | column (pos step : Nat)
  /-- A system register. -/
  | sysReg (pos : Nat)
  /-- One to four vector registers in parentheses, and their number less 1. -/
  | regList (poss : List Nat) (npos : Nat)
  /-- The arrival word's generator with its aw bit. -/
  | arrival (pos aw : Nat)
  deriving DecidableEq, Repr

/-- A trailing element mask: none; one that may stand, or must, with the bit that says so; one with no such bit. -/
inductive MaskForm where
  | never
  | may (pos bit : Nat)
  | must (pos bit : Nat)
  | field (pos : Nat)
  deriving DecidableEq, Repr

/-- What an operation is written with: operands, those that may be left out, its mask, the lowest bits of the fields
that suffixes set, and bits that are fixed. -/
structure Form where
  opnds : List Opnd := []
  may : List Opnd := []
  mask : MaskForm := .never
  ty : Option Nat := none
  rm : Option Nat := none
  sat : Option Nat := none
  sx : Option Nat := none
  fmt : Option Nat := none
  bits : Nat := 0
  deriving DecidableEq, Repr

/-- Format codes by name (R67, R203, R237, R248, R271). -/
def formatNames : List (String × Nat) :=
  [("f32", 1), ("bf16", 2), ("f16", 3), ("e4m3", 4), ("e5m2", 5), ("i8", 6), ("i4g", 7), ("mxf8", 8), ("mxf4", 9),
   ("d64", 0xB), ("f64", 0xC), ("i32", 0xD), ("i64", 0xE)]
/-- Element types and rounding modes by suffix (R48, R63). -/
def typeNames : List (String × Nat) :=
  [("f32", 0), ("bf16", 1), ("f16", 2), ("f64", 3), ("i32", 4), ("i64", 5), ("i8", 6), ("d64", 7)]
def modeNames : List (String × Nat) := [("rne", 0), ("rtz", 1), ("rup", 2), ("rdn", 3)]
/-- Fields of a generator (R116). -/
def genFields : List (String × Nat) :=
  [("space", 0), ("base", 1), ("step", 2), ("stride0", 3), ("stride1", 4), ("stride2", 5), ("stride3", 6),
   ("stride4", 7), ("stride5", 8), ("limit", 9)]
/-- Conditions of MSTAT (R249). -/
def condNames : List (String × Nat) := [("mmad", 0), ("mma", 1), ("idle", 2), ("room", 3)]
/-- System registers (R51). -/
def sysNames : List (String × Nat) :=
  [("sr.mode", 0), ("sr.fpsr", 1), ("sr.ftrapen", 2), ("sr.dfpsr", 3), ("sr.dtrapen", 4), ("sr.drm", 5),
   ("sr.event", 6), ("sr.tvec", 7), ("sr.clkdiv", 8), ("sr.refclass", 9), ("sr.group", 0xA), ("sr.pcc", 0x10),
   ("sr.icc", 0x11), ("sr.lcc.cl", 0x12), ("sr.lcc.dl0", 0x13), ("sr.lcc.dl1", 0x14), ("sr.lcc.dl2", 0x15),
   ("sr.lcc.dl3", 0x16), ("sr.ptp", 0x17)]

/-! ### Forms (R48, R49) -/

def sR (pos : Nat) : Opnd := .reg "s" 32 pos
def pR (pos : Nat) : Opnd := .reg "p" 8 pos
def gR (pos : Nat) : Opnd := .reg "ag" 16 pos
def vR (pos : Nat) : Opnd := .reg "v" 384 pos
def mR (pos : Nat) : Opnd := .reg "m" 16 pos
def aR (pos : Nat) : Opnd := .reg "acc" 64 pos
def qR (pos : Nat) : Opnd := .reg "q" 4 pos
def tR (pos : Nat) : Opnd := .reg "t" 8 pos
def lR (pos : Nat) : Opnd := .reg "l" 6 pos
def bR (pos : Nat) : Opnd := .reg "b" 32 pos
def dqR (pos : Nat) : Opnd := .reg "dq" 4 pos
def dfR (pos : Nat) : Opnd := .reg "df" 2 pos

def memSize : Opnd := .oneOf [1, 2, 4, 8] 38

def bare : Form := { }
/-- The S forms. -/
def formSR : Form := { opnds := [sR 45, sR 40, sR 35] }
def formSR1 : Form := { opnds := [sR 45, sR 40] }
def formSI : Form := { opnds := [sR 45, sR 40, .imm 0 40 true] }
def formSP : Form := { opnds := [pR 47, sR 42, sR 37] }
def formSPI : Form := { opnds := [pR 47, sR 42, .imm 0 40 true] }
def formSQ : Form := { opnds := [pR 47, pR 44, pR 41] }
def formLd : Form := { opnds := [sR 45, gR 41, memSize], sx := some 37 }
def formSt : Form := { opnds := [gR 41, sR 32, memSize] }
def formRet : Form := { opnds := [sR 45, gR 41, sR 32, memSize] }

/-- The V forms. -/
def formV (os : List Opnd) (mask : MaskForm := .may 10 9) : Form :=
  { opnds := os, mask := mask, ty := some 4, rm := some 7 }
def formVR : Form := formV [vR 41, vR 32, vR 23]
def formVR1 : Form := formV [vR 41, vR 32]
def formVR3 : Form := formV [vR 41, vR 32, vR 23, vR 14]
def formVK : Form := { opnds := [mR 46, vR 37, vR 28], mask := .may 24 23, ty := some 20 }
def formVQ : Form := { opnds := [mR 46, mR 42, mR 38], ty := some 30 }
def formVL : Form := { opnds := [vR 41, gR 37, .less1 18 2], mask := .may 24 23, ty := some 20 }
def formVM : Form := { opnds := [vR 41, gR 37, vR 28], mask := .may 24 23, ty := some 20 }
def formVC (os : List Opnd) (bits : Nat := 0) : Form :=
  { opnds := [vR 41, vR 32] ++ os, mask := .may 17 16, rm := some 22, sat := some 21, bits := bits }
def fromCode : Opnd := .named formatNames 28 4
def toCode : Opnd := .named formatNames 24 4
def formVD (mask : MaskForm) : Form := { opnds := [dqR 48, .regList [39, 30, 21, 12] 10], mask := mask }

/-- The C forms. -/
def units : Opnd := .less1 26 16
def formCW : Form := { opnds := [gR 46, gR 42, units], may := [.arrival 18 17] }
def formCF : Form := { opnds := [gR 46, gR 42, units], may := [.arrival 18 17], fmt := some 22 }

/-- The X forms. -/
def formXV (os : List Opnd) : Form := { opnds := [vR 17, vR 8] ++ os }

/-! ### The opcode maps (R50 to R56) -/

/-- Mnemonics of consecutive opcodes, with one form. -/
def run (opcode : Nat) (f : Form) (ms : List String) : List (String × Nat × Form) :=
  ms.mapIdx fun k m => (m, opcode + k, f)

def opsS : List (String × Nat × Form) :=
  [("nop", 0, bare)]
  ++ run 0x010 formSR ["add", "sub", "mul", "mulhs", "mulhu", "div", "divu", "rem", "remu", "and", "or", "xor", "andn",
      "shl", "shr", "sar", "rol", "min", "max", "minu", "maxu"]
  ++ run 0x025 formSR1 ["clz", "ctz", "popc", "bswap"]
  ++ run 0x050 formSI ["addi", "subi", "muli", "mulhsi", "mulhui", "divi", "divui", "remi", "remui", "andi", "ori",
      "xori", "andni", "shli", "shri", "sari", "roli", "mini", "maxi", "minui", "maxui"]
  ++ [("lih", 0x070, formSI)]
  ++ run 0x080 formSP ["cmpeq", "cmpne", "cmplt", "cmple", "cmpltu", "cmpleu"]
  ++ run 0x088 formSPI ["cmpeqi", "cmpnei", "cmplti", "cmplei", "cmpltui", "cmpleui"]
  ++ run 0x090 formSQ ["pand", "por", "pxor"]
  ++ [("pnot", 0x093, { opnds := [pR 47, pR 44] }),
      ("agset", 0x0A0, { opnds := [gR 46, .genField 42, sR 37, .imm 0 37 true] }),
      ("agget", 0x0A1, { opnds := [sR 37, .genWithField 46 42] }),
      ("loop", 0x0B0, { opnds := [lR 47, sR 42, .imm 10 32 false] }),
      ("prep", 0x0C0, { opnds := [tR 47, .target 0] }),
      ("prepr", 0x0C1, { opnds := [tR 47, sR 42, .imm 0 42 true] }),
      ("ld", 0x100, formLd), ("st", 0x101, { formLd with sx := none })]
  ++ run 0x110 formSt ["stadd", "stand", "stor", "stxor", "stmin", "stmax", "stminu", "stmaxu", "stfadd", "stfmin",
      "stfmax"]
  ++ run 0x130 formRet ["ldadd", "ldand", "ldor", "ldxor", "ldmin", "ldmax", "ldminu", "ldmaxu", "ldfadd", "ldfmin",
      "ldfmax", "swp", "cas"]
  ++ [("albegin", 0x140, { opnds := [gR 46] }), ("alend", 0x141, bare),
      ("waita", 0x150, { opnds := [sR 45, gR 41, sR 32], bits := 3 * 2 ^ 38 }),
      ("mfsr", 0x180, { opnds := [sR 45, .sysReg 33] })]
  ++ run 0x181 { opnds := [.sysReg 33, sR 45] } ["mtsr", "mssr", "mcsr"]
  ++ [("mode", 0x1C0, { opnds := [.imm 49 1 false], may := [.imm 48 1 false] }),
      ("clkdiv", 0x1C1, { opnds := [.imm 48 2 false, .less1 45 3] }),
      ("fence", 0x1C2, { opnds := [.imm 48 2 false] }), ("waits", 0x1C3, { opnds := [.imm 46 4 false] }),
      ("end", 0x1C4, bare), ("trap", 0x1C5, { opnds := [.imm 34 16 false] }), ("tret", 0x1C6, bare),
      ("yieldchk", 0x1C7, { opnds := [pR 47, .imm 44 3 false] })]

def opsV : List (String × Nat × Form) :=
  [("nop", 0, bare)]
  ++ run 0x010 formVR ["vadd", "vsub", "vmul"] ++ run 0x013 formVR3 ["vfma", "vfms", "vfnma"]
  ++ run 0x016 formVR ["vmin", "vmax"] ++ run 0x018 formVR1 ["vabs", "vneg"] ++ run 0x01A formVR ["vdiv"]
  ++ run 0x01B formVR1 ["vsqrt", "vrcp", "vrsq", "vexp2", "vlog2"]
  ++ run 0x030 formVR ["viadd", "visub", "vimul", "vimin", "vimax", "viminu", "vimaxu", "vand", "vor", "vxor", "vshl",
      "vshr", "vsar", "viadds", "visubs", "vadd128"]
  ++ run 0x040 formVK ["vcmpeq", "vcmpne", "vcmplt", "vcmple", "vcmpun", "vicmplt", "vicmpltu"]
  ++ run 0x050 formVQ ["mand", "mor", "mxor"]
  ++ [("mnot", 0x053, { formVQ with opnds := [mR 46, mR 42] }), ("mpop", 0x054, { formVQ with opnds := [sR 33, mR 42] }),
      ("mset", 0x055, { formVQ with opnds := [mR 46, sR 33] }),
      ("vsel", 0x060, { formVR with mask := .must 10 9 }), ("vperm", 0x061, formVR),
      ("vbcst", 0x062, formV [vR 41, sR 32]),
      ("vcompact", 0x063, { formVR1 with mask := .must 10 9 }), ("vexpand", 0x064, { formVR1 with mask := .must 10 9 }),
      ("vmovs", 0x065, formV [vR 41, sR 32, sR 23] .never)]
  ++ run 0x070 formVR1 ["vrsum", "vrmax", "vrmin", "vscan", "virsum"]
  ++ [("vcvt", 0x080, formVC [fromCode, toCode]), ("vqnt", 0x081, { formVC [fromCode, toCode] with mask := .never })]
  ++ run 0x090 formVL ["vld", "vst"] ++ run 0x092 formVM ["vgath", "vscat"]
  ++ run 0x0A0 formVM ["vstadd", "vstmin", "vstmax", "vstfadd", "vstfmin", "vstfmax"]
  ++ run 0x0A8 formVM ["vldadd", "vldmin", "vldmax"]
  ++ [("vrng", 0x0B0, formVR), ("defer", 0x0C0, formVD (.field 6)), ("drain", 0x0C1, formVD .never),
      ("drainp", 0x0C2, formVD (.field 6))]
  ++ run 0x0D0 formVR ["dadd", "dsub", "dmul", "ddiv", "dqua"] ++ run 0x0D8 formVK ["dcmpeq", "dcmplt", "dcmple"]
  ++ [("dcvtb", 0x0DC, formVC [toCode] (0xB * 2 ^ 28)), ("dcvtd", 0x0DD, formVC [fromCode] (0xB * 2 ^ 24))]

def opsM : List (String × Nat × Form) :=
  [("nop", 0, bare), ("mgath", 0x010, { opnds := [vR 41, gR 37] }), ("mldw", 0x011, { opnds := [gR 37], fmt := some 33 }),
   ("mma", 0x020, { opnds := [aR 44], fmt := some 40 }), ("mmad", 0x030, { opnds := [aR 44, qR 42, gR 38] }),
   ("mrd", 0x040, { opnds := [vR 35, aR 44], fmt := some 31, rm := some 29 }),
   ("mwr", 0x041, { opnds := [vR 35, aR 44], fmt := some 31, rm := some 29 }), ("mzero", 0x042, { opnds := [aR 44] }),
   ("mstat", 0x050, { opnds := [pR 47, .named condNames 44 3] })]

def opsC : List (String × Nat × Form) :=
  [("nop", 0, bare)] ++ run 0x010 formCW ["cloc", "cisl", "cgrd", "cgwr"]
  ++ [("cfill", 0x014, { opnds := [gR 46, gR 42, units, gR 18, .imm 9 8 false] }), ("cxpos", 0x015, formCF),
      ("cdec", 0x016, formCF), ("cfeed", 0x017, { opnds := [dfR 7, gR 42, units] }),
      ("cgath", 0x018, { opnds := [gR 46, gR 42, units, gR 18] })]

def opsD : List (String × Nat × Form) :=
  [("nop", 0, bare), ("act", 1, { opnds := [bR 22, .imm 9 13 false] }),
   ("rd", 2, { opnds := [bR 22, gR 18, .column 14 13] }), ("wr", 3, { opnds := [bR 22, gR 18, .column 14 13] }),
   ("pre", 4, { opnds := [bR 22] }), ("prea", 5, bare), ("refpb", 6, { opnds := [bR 22] })]

def opsX : List (String × Nat × Form) :=
  [("nop", 0, bare), ("xunp4", 1, formXV [.oneOf [32, 64, 128] 6]),
   ("xdrf", 2, { opnds := [dfR 25, qR 23, .less1 20 3] }), ("xpose", 3, { formXV [] with ty := some 5 }),
   ("xcvt", 4, formXV [.named formatNames 4 4, .named formatNames 0 4]), ("xmx", 5, formXV [.imm 7 1 false])]

/-- The operations of a slot, and the lowest bit of its opcode (R48, R49). -/
def opsOf : Slot → List (String × Nat × Form) × Nat
  | .s => (opsS, 54)
  | .v0 | .v1 => (opsV, 54)
  | .m => (opsM, 54)
  | .c0 | .c1 => (opsC, 54)
  | .d => (opsD, 27)
  | .x => (opsX, 26)

/-! ### One operation (R63) -/

/-- Fields of a word in the making, by lowest bit, and the address that its PREP names. -/
structure Fields where
  parts : List (Nat × Nat) := []
  prep : Option Int := none
  deriving DecidableEq, Repr

def one (pos v : Nat) : Fields := { parts := [(pos, v)] }
def Fields.and (a b : Fields) : Fields := { parts := a.parts ++ b.parts, prep := a.prep.orElse fun _ => b.prep }

/-- The number of a register written with its letters. -/
def regNo (letters : String) (count : Nat) (t : Text) : Except String Nat :=
  let w := t.map Char.toLower
  let n := letters.toList.length
  match if w.take n = letters.toList then digits 10 (w.drop n) else none with
  | some k => if k < count then .ok k else .error ("no such register: " ++ str t)
  | none => .error ("expected a register " ++ letters ++ ", found " ++ str t)

/-- A name of a table. -/
def nameNo (table : List (String × Nat)) (t : Text) : Option Nat := table.lookup (low t)

/-- The fields that an operand sets. The operand of PREP may be any expression; the bundle that it names is a target even
where no label names it (log entry 82). -/
def Opnd.read (env : Env) (t : Text) : Opnd → Except String Fields
  | .reg letters count pos => (regNo letters count t).map (one pos)
  | .imm pos width signed => (value env t).bind fun v => (fit width signed v).map (one pos)
  | .less1 pos width => (value env t).bind fun v => (fit width false (v - 1)).map (one pos)
  | .target pos =>
    (value env t).bind fun v =>
      if (v - env.dot) % 8 ≠ 0 then .error "a target that is no multiple of 8 away"
      else (fit 42 true ((v - env.dot) / 8)).map fun n => { parts := [(pos, n)], prep := some v }
  | .oneOf values pos =>
    (value env t).bind fun v => match values.findIdx? (· == v) with
      | some k => .ok (one pos k)
      | none => if env.final then .error ("a value that the operation does not take: " ++ str t) else .ok { }
  | .named table pos width =>
    match nameNo table t with
    | some k => .ok (one pos k)
    | none => (value env t).bind fun v => (fit width false v).map (one pos)
  | .genField pos =>
    match t with
    | '.' :: r => match nameNo genFields r with
      | some k => .ok (one pos k)
      | none => .error "no field of a generator"
    | _ => .error "expected a field of a generator"
  | .genWithField gpos pos =>
    let (g, r) := t.span (· != '.')
    (regNo "ag" 16 g).bind fun n => match nameNo genFields (r.drop 1) with
      | some k => .ok { parts := [(gpos, n), (pos, k)] }
      | none => .error "no field of a generator"
  | .column pos step =>
    let plus := t.getLast? == some '+'
    (regNo "c" 16 (if plus then t.dropLast else t)).map fun n => { parts := [(pos, n), (step, plus.toNat)] }
  | .sysReg pos =>
    match nameNo sysNames t with
    | some k => .ok (one pos k)
    | none => .error ("no system register: " ++ str t)
  | .regList poss npos =>
    match t with
    | '(' :: r =>
      let rs := items (r.takeWhile (· != ')'))
      if r.getLast? ≠ some ')' || rs.isEmpty || poss.length < rs.length then .error "expected one to four registers"
      else (rs.mapM (regNo "v" 384)).map fun ns => { parts := (npos, rs.length - 1) :: poss.zip ns }
    | _ => .error "expected registers in parentheses"
  | .arrival pos aw => (regNo "ag" 16 t).map fun n => { parts := [(pos, n), (aw, 1)] }

/-- A trailing mask, taken off the operands where the form has one. -/
def MaskForm.read (f : MaskForm) (need : Nat) (ts : List Text) : Except String (Fields × List Text) :=
  let last := (ts[need]?).map fun t => regNo "m" 16 t
  match f with
  | .never => .ok ({ }, ts)
  | .may pos bit =>
    match last with
    | none => .ok ({ }, ts)
    | some r => r.map fun k => ({ parts := [(pos, k), (bit, 1)] }, ts.take need ++ ts.drop (need + 1))
  | .must pos bit =>
    match last with
    | none => .error "expected an element mask"
    | some r => r.map fun k => ({ parts := [(pos, k), (bit, 1)] }, ts.take need ++ ts.drop (need + 1))
  | .field pos =>
    match last with
    | none => .error "expected a mask"
    | some r => r.map fun k => (one pos k, ts.take need ++ ts.drop (need + 1))

/-- The decimal mnemonics that are of type 7 with or without a suffix (R194). -/
def isDecimal (m : String) : Bool :=
  ["dadd", "dsub", "dmul", "ddiv", "dqua", "dcmpeq", "dcmplt", "dcmple"].contains m

/-- What one suffix sets: a kind, so that none is written twice, with its field. -/
def suffix (m : String) (f : Form) (x : Text) : Except String (Nat × Fields) :=
  let w := low x
  let put := fun (kind : Nat) (pos : Option Nat) (v : Option Nat) =>
    match pos, v with
    | some p, some v => some (kind, one p v)
    | _, _ => none
  let found :=
    (put 0 f.rm (modeNames.lookup w)).orElse fun _ =>
    (put 1 f.sat (if w = "sat" then some 1 else none)).orElse fun _ =>
    (put 2 f.sx (if w = "sx" then some 1 else none)).orElse fun _ =>
    (put 3 f.fmt (formatNames.lookup w)).orElse fun _ =>
    if isDecimal m then (if w = "d64" then some (3, { }) else none) else put 3 f.ty (typeNames.lookup w)
  match found with
  | some r => .ok r
  | none => .error ("a suffix that the operation does not take: " ++ str x)

/-- An operation as written: guard, mnemonic, suffixes and operands. -/
structure OpText where
  guard : Option (Bool × Nat)
  mnemonic : String
  suffixes : List Text
  operands : List Text
  deriving DecidableEq, Repr

/-- The parts of a text between dots. -/
def splitDots : Text → Text → List Text
  | [], cur => [cur.reverse]
  | c :: r, cur => if c = '.' then cur.reverse :: splitDots r [] else splitDots r (c :: cur)

/-- A predicate, or its negation. -/
def predicate (t : Text) : Except String (Bool × Nat) :=
  match trim t with
  | '!' :: r => (regNo "p" 8 (trim r)).map fun k => (true, k)
  | r => (regNo "p" 8 r).map fun k => (false, k)

/-- An operation's text read (R63). -/
def readOp (t : Text) : Except String OpText :=
  let body := fun (g : Option (Bool × Nat)) (t : Text) =>
    let (w, r) := cutName (skip t)
    match splitDots w [] with
    | m :: xs =>
      if m.isEmpty then .error "no mnemonic"
      else .ok { guard := g, mnemonic := low m, suffixes := xs, operands := items r }
    | [] => .error "no mnemonic"
  match skip t with
  | '(' :: r =>
    let (p, r) := r.span (· != ')')
    (predicate p).bind fun g => body (some g) (r.drop 1)
  | r => body none r

/-- The word of an operation in a slot, and the address that a PREP of it names (R46, R48, R49, R63). -/
def assembleOp (env : Env) (slot : Slot) (t : Text) : Except String (Word × Option Int) :=
  (readOp t).bind fun o =>
  let (ops, pos) := opsOf slot
  match ops.lookup o.mnemonic with
  | none => .error ("no operation of this slot: " ++ o.mnemonic)
  | some (opcode, f) =>
    let narrow := slot == .d || slot == .x
    match o.guard with
    | some _ => if narrow then .error "a D or X operation has no guard" else go env o opcode pos f
    | none => go env o opcode pos f
where
  /-- The word from its fields. -/
  go (env : Env) (o : OpText) (opcode pos : Nat) (f : Form) : Except String (Word × Option Int) :=
    let need := f.opnds.length
    (f.mask.read need o.operands).bind fun r =>
    let (m, ts) := r
    if ts.length < need || need + f.may.length < ts.length then .error ("wrong number of operands: " ++ o.mnemonic)
    else
      ((ts.zip (f.opnds ++ f.may)).mapM fun (p : Text × Opnd) => p.2.read env p.1).bind fun fs =>
      (o.suffixes.mapM (suffix o.mnemonic f)).bind fun xs =>
      if (xs.map (·.1)).eraseDups.length < xs.length then .error "a suffix that is written twice"
      else
        let g : Fields := match o.guard with
          | some (neg, k) => { parts := [(53, neg.toNat), (50, k)] }
          | none => { }
        let dec : Fields := match f.ty with
          | some p => if isDecimal o.mnemonic then one p 7 else { }
          | none => { }
        let all := (fs ++ xs.map (·.2) ++ [m, g, dec]).foldl Fields.and { }
        let n := all.parts.foldl (fun acc e => acc + e.2 * 2 ^ e.1) (opcode * 2 ^ pos + f.bits)
        .ok (BitVec.ofNat 64 n, all.prep)

end Sys2Proof.Machine.Asm
end

