-- ==== Sys2Proof/Machine/AsmSource.lean ====
section
/-! DEFINITION. The assembler's bundles, directives and images (R36, R40, R62, R65, R66). -/

namespace Sys2Proof.Machine.Asm

/-! ### Bundles (R62) -/

/-- Slots by name. -/
def slotNames : List (String × Slot) :=
  [("s", .s), ("v0", .v0), ("v1", .v1), ("m", .m), ("c0", .c0), ("c1", .c1), ("d", .d), ("x", .x)]

/-- A slot name with its colon, and what follows. -/
def cutSlot (t : Text) : Option (Slot × Text) :=
  let (w, r) := (skip t).span Char.isAlphanum
  match slotNames.lookup (low w), skip r with
  | some sl, ':' :: r => some (sl, r)
  | _, _ => none

/-- The operations between braces: apart by lines, or by a bar that a slot name follows (log entry 82). -/
def splitOps : Text → Text → List Text
  | [], cur => [cur.reverse]
  | c :: r, cur =>
    if c = '\n' || (c = '|' && (cutSlot r).isSome) then cur.reverse :: splitOps r []
    else splitOps r (c :: cur)

/-- The slots and texts of a bundle's operations; none is named twice. -/
def readOps (t : Text) : Except String (List (Slot × Text)) := do
  let ops ← ((splitOps t []).filter fun o => !(skip o).isEmpty).mapM fun (o : Text) =>
    match cutSlot o with
    | some r => Except.ok r
    | none => .error "an operation without its slot"
  if (ops.map Prod.fst).eraseDups.length < ops.length then .error "a slot that is named twice" else .ok ops

/-- Words of a text. -/
def words (t : Text) : List Text := ((t.splitBy fun a b => isBlank a == isBlank b).map trim).filter (!·.isEmpty)

/-- A head in the making, with what attributes it has had: rep, transfer, iteration, loop end, kind. -/
structure Attrs where
  head : Head := Head.ofBits 0
  seen : List Nat := []
  deriving DecidableEq, Repr

/-- An attribute written; one of a kind that is written twice is an error (log entry 82). -/
def Attrs.set (a : Attrs) (kind : Nat) (h : Head) : Except String Attrs :=
  if a.seen.contains kind then .error "a head attribute that is written twice" else .ok { head := h, seen := kind :: a.seen }

/-- A jump or a call: tK, then if and a predicate. -/
def readTransfer (a : Attrs) (kind : BitVec 2) (t : Text) : Except String Attrs :=
  let (w, r) := (skip t).span (!isBlank ·)
  (regNo "t" 8 w).bind fun k =>
  let h := { a.head with xkind := kind, xt := BitVec.ofNat 3 k }
  let r := skip r
  if r.isEmpty then a.set 1 h
  else if low (r.takeWhile Char.isAlphanum) = "if" then
    (predicate (r.dropWhile Char.isAlphanum)).bind fun p => a.set 1 { h with xp := BitVec.ofNat 3 p.2, xn := p.1 }
  else .error "expected if and a predicate"

/-- One head attribute (R62). -/
def readAttr (env : Env) (a : Attrs) (t : Text) : Except String Attrs :=
  let (w, r) := (skip t).span (!isBlank ·)
  let key := low w
  let h := a.head
  let alone := fun (k : BitVec 2) =>
    if (skip r).isEmpty then a.set 4 { h with kind := k } else .error "more than the attribute takes"
  if key = "rep" then
    (value env r).bind fun n =>
      if n < 1 || 256 < n then .error "rep outside 1 to 256" else a.set 0 { h with reps := BitVec.ofInt 8 (n - 1) }
  else if key = "jump" then readTransfer a 1 r
  else if key = "call" then readTransfer a 2 r
  else if key = "first" || key = "last" then
    (regNo "l" 6 (trim r)).bind fun k =>
      a.set 2 { h with iter := if key = "first" then 1 else 2, ilev := BitVec.ofNat 3 k }
  else if key = "end" then
    ((words r).mapM (regNo "l" 6)).bind fun ks =>
      if ks.isEmpty then .error "end without a level"
      else a.set 3 { h with lend := ks.foldl (fun m k => m ||| BitVec.twoPow 6 k) 0 }
  else if key = "sync" then
    (value env r).bind fun n => (fit 3 false n).bind fun k => a.set 4 { h with kind := 1, slev := BitVec.ofNat 3 k }
  else if key = "yield" then alone 2
  else if key = "rplan" then alone 3
  else .error ("no head attribute: " ++ key)

/-- The attributes after a bundle's closing brace. -/
def readAttrs (env : Env) (t : Text) : Except String Head :=
  match skip t with
  | [] => .ok (Head.ofBits 0)
  | ',' :: r =>
    ((items r).foldlM (readAttr env) { }).bind fun a =>
      if a.head.kind != 0 && a.head.reps != 0 then .error "a kind with rep above 1" else .ok a.head
  | _ => .error "text after a bundle"

/-- The granules of a bundle, and the addresses that its PREP names (R39, R40). -/
def assembleBundle (env : Env) (ops : List (Slot × Text)) (attrs : Text) : Except String (List Word × List Int) :=
  (readAttrs env attrs).bind fun h =>
  (ops.mapM fun (o : Slot × Text) => (assembleOp env o.1 o.2).map fun r => (o.1, r)).bind fun rs =>
  let word := fun (sl : Slot) => (rs.lookup sl).map (·.1)
  let present := rs.foldl (fun (m : BitVec 8) r => m ||| BitVec.twoPow 8 (7 - r.1.num)) 0
  let wide := [Slot.s, .v0, .v1, .m, .c0, .c1].filterMap word
  let narrow := [Slot.d, .x].filterMap word
  let pair := match narrow with
    | [] => []
    | [a] => [a]
    | a :: b :: _ => [a ||| b <<< 32]
  .ok ({ h with present := present }.bits :: wide ++ pair, rs.filterMap (·.2.2))

/-- Granules of a bundle with some slots (R40). -/
def bundleSize (ops : List (Slot × Text)) : Nat :=
  let n := ops.countP fun o => o.1 == .d || o.1 == .x
  1 + (ops.length - n) + (n + 1) / 2

/-! ### What a pass gathers -/

/-- Code that stands together: the shared code, or a variant's own. -/
structure Section where
  key : Option Word := none
  line : Nat := 0
  gran : Nat := 1
  /-- Bundles by address, the last first. -/
  bundles : List (Nat × List Word) := []
  /-- Functions by name and address, marked addresses, and those that PREPs name. -/
  funcs : List (Text × Nat) := []
  marks : List Nat := []
  preps : List Int := []
  labels : List (Text × Int) := []
  start : Option Text := none
  ckpt : Option Text := none
  deriving DecidableEq, Repr

/-- The names that a pass has defined: by .equ and as data labels, and the labels of each section. -/
structure Names where
  file : List (Text × Int) := []
  sections : List (List (Text × Int)) := []
  deriving DecidableEq, Repr

/-- A pass over the source. -/
structure Pass where
  final : Bool
  known : Names
  shared : Section := { }
  /-- The variants, the last first. -/
  variants : List Section := []
  file : List (Text × Int) := []
  /-- Labels that wait for their bundle or datum. -/
  pending : List Text := []
  /-- The address of the next datum, after .stage. -/
  staging : Option Nat := none
  /-- Preload regions, the last first. -/
  data : List (Nat × List Byte) := []
  target : Bool := false
  inFunc : Bool := false
  /-- The text of a bundle whose closing brace has not come. -/
  buffer : Option Text := none
  deriving DecidableEq, Repr

def Pass.current (p : Pass) : Section := p.variants.headD p.shared
def Pass.onCurrent (p : Pass) (f : Section → Section) : Pass :=
  match p.variants with
  | v :: r => { p with variants := f v :: r }
  | [] => { p with shared := f p.shared }

def Section.here (s : Section) : Nat := s.line * 128 + s.gran * 8
/-- The next fetch line, if this one has begun. -/
def Section.padded (s : Section) : Section := if s.gran = 1 then s else { s with line := s.line + 1, gran := 1 }

/-- The address of the next bundle or datum. -/
def Pass.here (p : Pass) : Nat := p.staging.getD p.current.here

/-- The names that stand where the pass has come to: those of this pass, then those of the pass before. -/
def Pass.env (p : Pass) : Env :=
  let old := fun (k : Nat) => p.known.sections.getD k []
  { names := p.file ++ p.current.labels ++ p.shared.labels ++ p.known.file ++ old p.variants.length ++ old 0
    dot := p.here, final := p.final }

/-- A name defined, once. -/
def Pass.fresh (p : Pass) (t : Text) : Except String Pass :=
  if !isName t || t = ['.'] then .error ("not a name: " ++ str t)
  else if ((p.file ++ p.current.labels ++ p.shared.labels).lookup t).isSome then .error ("defined twice: " ++ str t)
  else .ok p

/-- The waiting labels name the address of the bundle or the datum that comes next, whatever directives stand between (R61):
labels of data belong to the file, those of bundles to their section. -/
def Pass.bind (p : Pass) (a : Nat) : Except String Pass :=
  p.pending.foldlM (fun p t => (p.fresh t).map fun p =>
    if p.staging.isSome then { p with file := (t, (a : Int)) :: p.file }
    else p.onCurrent fun s => { s with labels := (t, (a : Int)) :: s.labels }) { p with pending := [] }

/-- A bundle placed: in this line, or at g1 of the next (R66). -/
def Pass.bundle (p : Pass) (body attrs : Text) : Except String Pass :=
  if p.staging.isSome then .error "a bundle outside code"
  else
    (readOps body).bind fun ops =>
    let size := bundleSize ops
    let p := p.onCurrent fun s => if 16 < s.gran + size then { s with line := s.line + 1, gran := 1 } else s
    let a := p.current.here
    if Config.codeBytes < a + 8 * size then .error "code past 4 MiB"
    else
      (p.bind a).bind fun p =>
      (if p.final then assembleBundle p.env ops attrs else .ok ([], [])).map fun (r : List Word × List Int) =>
      { p.onCurrent (fun s =>
          { s with
            gran := s.gran + size, bundles := (a, r.1) :: s.bundles, preps := s.preps ++ r.2
            marks := if p.target then a :: s.marks else s.marks }) with target := false }

/-! ### Directives (R65) -/

/-- Data put at the staging address. -/
def Pass.put (p : Pass) (bs : List Byte) : Except String Pass :=
  match p.staging, p.data with
  | some a, (b, d) :: r =>
    if p.final && Config.stagingBytes < a + bs.length then .error "staging data past 1 MiB"
    else (p.bind a).map fun p => { p with staging := some (a + bs.length), data := (b, d ++ bs) :: r }
  | _, _ => .error "data outside .stage"

/-- Items of a data directive, each put as it is read. -/
def Pass.putAll (p : Pass) (t : Text) (n : Nat) (read : Env → Text → Except String Nat) : Except String Pass :=
  if (items t).isEmpty then .error "data without an item"
  else (items t).foldlM (fun p i => (read p.env i).bind fun v => p.put (leBytes n v)) p

/-- An integer of some bytes: it fits signed or unsigned, which the last pass checks. -/
def integer (n : Nat) (env : Env) (t : Text) : Except String Nat :=
  (value env t).bind fun v => if !env.final then .ok 0 else if v < 0 then fit (8 * n) true v else fit (8 * n) false v

/-- A name alone. -/
def nameOf (t : Text) : Except String Text := if isName t then .ok t else .error ("not a name: " ++ str t)

/-- A number of bytes of staging: below a limit, which the last pass checks. -/
def Pass.bytes (p : Pass) (t : Text) (limit : Nat) (msg : String) : Except String Nat :=
  (value p.env t).bind fun v =>
    if 0 ≤ v && v < limit then .ok v.toNat else if p.final then .error msg else .ok 0

/-- A directive. A .target marks the next bundle also across .variant (R65). A .start or .ckpt replaces one before it in its section; the directives that concern code are errors after
.stage (log entry 82). -/
def Pass.directive (p : Pass) (d : String) (t : Text) : Except String Pass :=
  let code := fun (r : Except String Pass) => if p.staging.isSome then .error (d ++ " outside code") else r
  if d = ".func" then code
    (if p.inFunc then .error ".func without .funcend"
     else (nameOf t).bind fun n => (p.fresh n).map fun p =>
      { p.onCurrent (fun s =>
          let s := s.padded
          { s with labels := (n, (s.here : Int)) :: s.labels, funcs := (n, s.here) :: s.funcs }) with
        target := true, inFunc := true })
  else if d = ".funcend" then code
    (if p.inFunc && t.isEmpty then .ok { p with inFunc := false } else .error ".funcend without .func")
  else if d = ".align" then code (.ok (p.onCurrent Section.padded))
  else if d = ".target" then code (.ok { p with target := true })
  else if d = ".equ" then
    match items t with
    | [n, e] => (p.fresh n).bind fun p => (value p.env e).map fun v => { p with file := (n, v) :: p.file }
    | _ => .error ".equ takes a name and an expression"
  else if d = ".variant" then
    if p.inFunc then .error ".func without .funcend"
    else (value p.env t).map fun v =>
      { p with
        variants := { key := some (BitVec.ofInt 64 v), line := p.shared.padded.line } :: p.variants
        staging := none }
  else if d = ".start" then (nameOf t).map fun n => p.onCurrent fun s => { s with start := some n }
  else if d = ".ckpt" then (nameOf t).map fun n => p.onCurrent fun s => { s with ckpt := some n }
  else if d = ".stage" then
    (p.bytes t Config.stagingBytes ".stage at or above 1 MiB").map fun a =>
      { p with staging := some a, data := (a, []) :: p.data }
  else if d = ".text" then .ok { p with staging := none }
  else if d = ".byte" then p.putAll t 1 (integer 1)
  else if d = ".half" then p.putAll t 2 (integer 2)
  else if d = ".word" then p.putAll t 4 (integer 4)
  else if d = ".dword" then p.putAll t 8 (integer 8)
  else if d = ".fp16" then p.putAll t 2 fun _ => floatLit fp16
  else if d = ".bf16" then p.putAll t 2 fun _ => floatLit bf16
  else if d = ".fp32" then p.putAll t 4 fun _ => floatLit fp32
  else if d = ".fp64" then p.putAll t 8 fun _ => floatLit fp64
  else if d = ".dec64" then p.putAll t 8 fun _ => decLit
  else if d = ".zero" then
    (p.bytes t (Config.stagingBytes + 1) "a count outside staging").bind fun n => p.put (List.replicate n 0)
  else .error ("no such directive: " ++ d)

/-! ### Source lines (R61) -/

def openBrace : Char := Char.ofNat 123
def closeBrace : Char := Char.ofNat 125

/-- A line without its comment. -/
def uncomment : Text → Text
  | [] => []
  | c :: r => if c = ';' || (c = '/' && r.head? == some '/') then [] else c :: uncomment r

/-- The labels at the start of a line, and what follows them. -/
def cutLabels : Nat → Text → List Text × Text
  | 0, t => ([], t)
  | k + 1, t =>
    let (w, r) := cutName (skip t)
    match skip r with
    | ':' :: r => if isName w then let (ls, r) := cutLabels k r; (w :: ls, r) else ([], t)
    | _ => ([], t)

/-- The text of a bundle from its opening brace on; without its closing brace, it goes on with the next line. -/
def Pass.braces (p : Pass) (t : Text) : Except String Pass :=
  if t.contains closeBrace then
    let (body, r) := t.span (· != closeBrace)
    { p with buffer := none }.bundle (body.drop 1) (r.drop 1)
  else .ok { p with buffer := some (t ++ ['\n']) }

/-- One source line. -/
def Pass.line (p : Pass) (raw : Text) : Except String Pass :=
  let t := uncomment raw
  match p.buffer with
  | some b => p.braces (b ++ t)
  | none =>
    let (ls, t) := cutLabels t.length t
    let p := { p with pending := p.pending ++ ls }
    match skip t with
    | [] => .ok p
    | c :: r =>
      if c = openBrace then p.braces (c :: r)
      else if c = '.' then
        let (d, r) := cutName (c :: r)
        p.directive (low d) (trim r)
      else .error "neither a bundle nor a directive"

/-- The lines of a text. -/
def linesOfText : Text → Text → List Text
  | [], cur => [cur.reverse]
  | c :: r, cur => if c = '\n' then cur.reverse :: linesOfText r [] else linesOfText r (c :: cur)

/-- A pass over all lines; an error tells its line. -/
def Pass.run (p : Pass) (ls : List Text) : Except (Nat × String) Pass :=
  let r := ls.foldlM (fun (s : Nat × Pass) l =>
    match s.2.line l with
    | .ok p => Except.ok (s.1 + 1, p)
    | .error e => .error (s.1, e)) (1, p)
  r.bind fun s =>
    let p := s.2
    if p.buffer.isSome then .error (s.1, "a bundle without its closing brace")
    else if p.inFunc then .error (s.1, ".func without .funcend")
    else match p.bind p.here with
      | .ok p => .ok p
      | .error e => .error (s.1, e)

/-- The names that a pass has found. -/
def Pass.names (p : Pass) : Names :=
  { file := p.file, sections := p.shared.labels :: p.variants.reverse.map (·.labels) }

/-! ### Images (R66) -/

/-- A variant's code as the assembler gives it (R22, R65); a file without .variant has one with no key. -/
structure Output where
  key : Option Word
  code : List Word
  start : Nat
  ckpt : Nat
  deriving DecidableEq, Repr

/-- The granules of a line: its header, its bundles, and zeros (R36). -/
def lineGranules (bundles : List (Nat × List Word)) (marks : List Nat) (entry : Bool) : List Word :=
  if bundles.isEmpty then List.replicate 16 0
  else
    let bitsOf := fun (as : List Nat) => as.foldl (fun n a => n + 2 ^ (a % 128 / 8)) 0
    let starts := bundles.map (·.1)
    let header := bitsOf starts * 2 ^ 48 + bitsOf (starts.filter marks.contains) * 2 ^ 32 + entry.toNat * 2 ^ 31
    let cells : List (Nat × Word) := bundles.flatMap fun b => b.2.mapIdx fun k w => (b.1 % 128 / 8 + k, w)
    BitVec.ofNat 64 header :: (List.range 15).map fun k => (cells.lookup (k + 1)).getD 0

/-- The code of some sections together: every line up to the last that holds a bundle. -/
def codeOf (ss : List Section) (preps : List Int) : List Word :=
  let bundles := ss.flatMap (·.bundles)
  let marks := ss.flatMap (·.marks) ++ preps.map Int.toNat
  let entries := ss.flatMap fun s => s.funcs.map (·.2)
  let last := bundles.foldl (fun n b => max n (b.1 / 128 + 1)) 0
  (List.range last).flatMap fun l =>
    lineGranules (bundles.filter fun b => b.1 / 128 == l) marks (entries.contains (128 * l + 8))

/-- An entry named by .start or .ckpt: a function of the variant or of the shared code. -/
def entryNamed (ss : List Section) (t : Text) : Except String Nat :=
  match (ss.flatMap (·.funcs)).lookup t with
  | some a => .ok a
  | none => .error ("no function of the variant: " ++ str t)

/-- One variant. -/
def Pass.output (p : Pass) (own : Option Section) : Except String Output :=
  let ss := own.toList ++ [p.shared]
  let preps : List Int := (p.shared :: p.variants).flatMap Section.preps
  let pick := fun (f : Section → Option Text) => (ss.filterMap f).head?
  match pick (·.start) with
  | none => .error "a variant without a start entry"
  | some n =>
    (entryNamed ss n).bind fun start =>
    (match pick (·.ckpt) with
      | some n => entryNamed ss n
      | none => .ok 0).map fun ckpt =>
    { key := own.bind (·.key), code := codeOf ss (ss.flatMap Section.preps ++ preps.filter
        fun (a : Int) => (p.shared.bundles.lookup a.toNat).isSome), start := start, ckpt := ckpt }

/-- Whether two of some regions overlap. -/
def overlap : List (Nat × List Byte) → Bool
  | [] => false
  | r :: rs => (rs.any fun q => decide (r.1 < q.1 + q.2.length) && decide (q.1 < r.1 + r.2.length)) || overlap rs

/-- The names that passes come to, each made with those of the pass before, until they stay the same. Names that .equ defines
only by each other stay at 0, without an error (log entry 82). -/
def settledNames (ls : List Text) : Nat → Names → Except (Nat × String) Names
  | 0, known => .ok known
  | n + 1, known =>
    (({ final := false, known := known } : Pass).run ls).bind fun p =>
      if p.names = known then .ok known else settledNames ls n p.names

/-- A source file assembled: the variants and the preloads of its image (R61 to R66). Passes lay it out until its names
settle, a last one writes it; an error tells the line at which it was found, 0 for one of the whole file. -/
def assemble (source : Text) : Except (Nat × String) (List Output × List (Nat × List Byte)) :=
  let ls := linesOfText source []
  (settledNames ls (ls.length + 2) { }).bind fun known =>
  (({ final := true, known := known } : Pass).run ls).bind fun p =>
  let data := (p.data.filter fun r => !r.2.isEmpty).reverse
  if p.names ≠ known then .error (0, "names that do not settle")
  else if overlap data then .error (0, "preload regions that overlap")
  else
    let outs := if p.variants.isEmpty then [p.output none] else p.variants.reverse.map fun v => p.output (some v)
    match outs.mapM id with
    | .ok os => .ok (os, data)
    | .error e => .error (0, e)

end Sys2Proof.Machine.Asm
end

