-- ==== Sys2Proof/Tests/Slice0.lean ====
section
/-! SUPPORT. Tests: ill-formed terms, words from the spec's encodings, one step on small states, and states and operands that
meet the hypotheses of the statements. -/

namespace Sys2Proof.Tests

open Sys2Proof.Machine

set_option Elab.async false

/-! ### Well-formedness: a term that each check refuses -/

theorem test_wf_vector_register : (Instr.vadd { d := 384, a := 0, b := 0, c := 0, m := 0, me := false, rm := 0, ty := 0 }).wf = false := by decide
theorem test_wf_element_mask : (Instr.vadd { d := 0, a := 0, b := 0, c := 0, m := 1, me := false, rm := 0, ty := 0 }).wf = false := by decide
theorem test_wf_unused_operand : (Instr.vsqrt { d := 0, a := 0, b := 1, c := 0, m := 0, me := false, rm := 0, ty := 0 }).wf = false := by decide
theorem test_wf_float_type : (Instr.vadd { d := 0, a := 0, b := 0, c := 0, m := 0, me := false, rm := 0, ty := 7 }).wf = false := by decide
theorem test_wf_integer_type : (Instr.viadd { d := 0, a := 0, b := 0, c := 0, m := 0, me := false, rm := 0, ty := 0 }).wf = false := by decide
theorem test_wf_mask_field : (Instr.mand { md := 0, ma := 0, mb := 0, d := 1, ty := 0 }).wf = false := by decide
theorem test_wf_count_type : (Instr.mpop { md := 0, ma := 0, mb := 0, d := 1, ty := 7 }).wf = false := by decide
theorem test_wf_gather_type : (Instr.vgath { d := 0, g := 0, x := 0, m := 0, me := false, ty := 1, n := 0 }).wf = false := by decide
theorem test_wf_compare_register : (Instr.vcmpeq { md := 0, a := 400, b := 0, m := 0, me := false, ty := 0 }).wf = false := by decide
theorem test_wf_system_register : (Instr.mfsr { d := 1, sys := 0x00B }).wf = false := by decide
theorem test_wf_atomic_size : (Instr.ldadd { d := 1, g := 0, size := 0, sx := false, b := 0 }).wf = false := by decide
theorem test_wf_atomic_no_return : (Instr.stadd { d := 1, g := 0, size := 3, sx := false, b := 0 }).wf = false := by decide
theorem test_wf_shift_immediate : (Instr.shli { d := 1, a := 1, imm := 64 }).wf = false := by decide
theorem test_wf_lih_immediate : (Instr.lih { d := 1, a := 1, imm := 0x1000000 }).wf = false := by decide
theorem test_wf_clz_operand : (Instr.clz { d := 1, a := 1, b := 1 }).wf = false := by decide
theorem test_wf_pnot_operand : (Instr.pnot { pd := 1, pa := 1, pb := 1 }).wf = false := by decide
theorem test_wf_loop_level : (Instr.loop { k := 6, a := 0, imm := 2 }).wf = false := by decide
theorem test_wf_waits_status : (Instr.waits 5).wf = false := by decide
theorem test_wf_mma_format : (Instr.mma { acc := 0, fmt := 1 }).wf = false := by decide
theorem test_wf_copy_arrival : (Instr.cloc { gd := 0, ga := 1, n := 1, fmt := 0, gw := 1, aw := false, fill := 0, df := 0 }).wf = false := by decide
theorem test_wf_deferral_registers : (Instr.drain { q := 0, a := 0, b := 1, c := 0, e := 0, n := 0, m := 0 }).wf = false := by decide
theorem test_wf_conversion_code : (Instr.vcvt { d := 0, a := 0, src := 0, dst := 1, rm := 0, sat := false, m := 0, me := false }).wf = false := by decide
theorem test_wf_tile : (Instr.yield 1536).wf = false := by decide
theorem test_wf_island : (Instr.islandClockStretch 96).wf = false := by decide
theorem test_wf_port : (Instr.lanternLinkLoss 2).wf = false := by decide
theorem test_wf_link : (Instr.linkLockLoss 16).wf = false := by decide

/-! ### Decoding, from the spec's worked encodings -/

/-- ST s5, ag2, 8: opcode 0x101, d = 5, g = 2, size 3. -/
theorem test_decode_st : decodeWord .s 0x4040A4C000000000 = .ok (.st { d := 5, g := 2, size := 3, sx := false, b := 0 }) := by decide
/-- LOOP l5, s0, 2 (R118). -/
theorem test_decode_loop : decodeWord .s 0x2C02800000000800 = .ok (.loop { k := 5, a := 0, imm := 2 }) := by decide
/-- CMPLTI p2, s4, 100 (R123). -/
theorem test_decode_cmplti : decodeWord .s 0x2281100000000064 = .ok (.cmplti { pd := 2, a := 4, imm := 100 }) := by decide
/-- VADD.f32 v10, v11, v12: opcode 0x010, d = 10, a = 11, b = 12, in both V slots. -/
theorem test_decode_vadd : decodeWord .v1 0x0400140B06000000
    = .ok (.vadd { d := 10, a := 11, b := 12, c := 0, m := 0, me := false, rm := 0, ty := 0 }) := by decide
/-- ACT b2, row 0x123 (R66). -/
theorem test_decode_act : decodeWord .d 0x08824600 = .ok (.act { bank := 2, row := 0x123 }) := by decide
/-- RD b9, ag4, 5: op 0x02, bank 9, g 4, col 5. -/
theorem test_decode_rd : decodeWord .d 0x12514000 = .ok (.rd { bank := 9, g := 4, col := 5, cstep := false }) := by decide
/-- MMA: opcode 0x020, acc 3, format 2 (R53). -/
theorem test_decode_mma : decodeWord .m (0b0000100000#10 ++ 0#4 ++ 0b000011#6 ++ 0b0010#4 ++ 0#40) = .ok (.mma { acc := 3, fmt := 2 }) := by decide
/-- CLOC: opcode 0x010, gd 1, ga 2, n 8 (R54). -/
theorem test_decode_cloc : decodeWord .c1 (0b0000010000#10 ++ 0#4 ++ 0b0001#4 ++ 0b0010#4 ++ 8#16 ++ 0#26)
    = .ok (.cloc { gd := 1, ga := 2, n := 8, fmt := 0, gw := 0, aw := false, fill := 0, df := 0 }) := by decide
/-- XPOSE: op 0x03, d 5, a 7 (R56). -/
theorem test_decode_xpose : decodeWord .x (0#32 ++ 0b000011#6 ++ 5#9 ++ 7#9 ++ 0#8) = .ok (.xpose { d := 5, a := 7, low := 0 }) := by decide
/-- XPOSE with its unused bit 0 set: a reserved bit (R49, R57). -/
theorem test_decode_xpose_low : decodeWord .x (0#32 ++ 0b000011#6 ++ 5#9 ++ 7#9 ++ 1#8) = .error .reservedField := by decide
/-- DADD: opcode 0x100 of a V slot, type decimal64. -/
theorem test_decode_dadd : (decodeWord .v0 ((encodeFields (.dadd { d := 1, a := 2, b := 3, c := 0, m := 0, me := false, rm := 0, ty := 7 })).map
    fun e => e.1 ++ 0#4 ++ e.2).get!).toOption.isSome = true := by decide
/-- An opcode without an instruction is 0x01, a reserved bit 0x04, an operand out of range 0x05 (R57, R58). -/
theorem test_decode_undefined : decodeWord .s 0x0040000000000000 = .error .undefinedOpcode := by decide
theorem test_decode_reserved : decodeWord .s 0x0400000000000001 = .error .reservedField := by decide
theorem test_decode_operand : decodeWord .s 0x2C03000000000800 = .error .operandOutOfRange := by decide
theorem test_decode_guard : guardOf .s 0x043C000000000000 = ⟨true, 7⟩ := by decide
/-- The word of an instruction with a guard is read back. -/
theorem test_encode_guard : encode ⟨true, 2⟩ (.add { d := 1, a := 2, b := 3 }) = some 0x0428221800000000 := by decide

/-! ### One step on a small state -/

/-- A state in which the next step runs a word: ADDI s3, s0, 7 (opcode 0x050) leaves 7 in flight to s3, the tile's own issue
recorded (R27, R112). -/
def afterAddi : Host.Outcome State Fault Refusal := step (State.reset.withFetchWord 64 0x1400600000000007)
theorem test_step_addi : (match afterAddi with
    | .next u => ((u.tile 0).seq.flights.map fun f => (f.writes, f.bound)) == [([.s 3 7], 1)] && (u.tile 0).seq.issuedAt == 0
    | _ => false) = true := by decide +kernel
/-- A reserved bit takes trap 0x04 of slot S (R58): the tile stops issuing. -/
theorem test_step_trap : (match step (State.reset.withFetchWord 64 0x0400000000000001) with
    | .next u => ((u.tile 0).seq.trap.map fun r => (r.req.code, r.req.slot)) == some (4, 0) | _ => false) = true := by decide +kernel

/-! ### Small states that statements' hypotheses hold in -/

/-- A record: class 2, three levels of tile, package and pod domain, every bank owned, room in every queue. -/
def words : List Word :=
  [0x0050000000000000, 0, 0x000200017FFFFFFF, 0x0040004000400040, 0x0000000000800080, 0, 0, 0, 0,
    0, 0x6000000000000000, 0x8000000000000000, 0, 0, 0, 0, 0]
def task0 : Task := { serial := 1, role := 0, record := words, variant := 0 }
def sub0 : Submission := { record := words, root := 0, param := 0, session := 0 }
def launch0 : Launch := { sub := sub0, disp := 0, state := .running, tiles := [0] }
/-- The owner's port, with its session. -/
def port0 : Port := { up := true, had := true, session := some 3 }
/-- A ready package on cycle 100 with one launch of one role, owned by port 0. -/
def base : State :=
  { boot := .ready, pcc := 100, owner := some 0, ports := vset (Vector.replicate 2 { }) 0 port0, launches := [(1, launch0)] }
/-- Its tile 0 running the task, changed as said. -/
def on0 (f : Tile → Tile) (s : State := base) : State :=
  s.onTile 0 fun x => f { x with task := some task0, seq := { x.seq with phase := .running } }
def seq0 (f : Seq → Seq) (s : State := base) : State := on0 (fun x => { x with seq := f x.seq }) s
def eng0 (f : Engines → Engines) : State := on0 fun x => { x with eng := f x.eng }
def vault0 (f : Vault → Vault) : State := on0 fun x => { x with vault := f x.vault }
/-- The launch in another state. -/
def launched (st : LState) (s : State := base) : State := { s with launches := [(1, { launch0 with state := st })] }

theorem owns_base : Owns base 0 := by unfold Owns; decide

/-- The checks of every operation let it go in some state: where its bundle's issue has made them. -/
theorem witness_goes (i : Instr) : Goes i { base with focus := { checked := true } } := .inl rfl
/-- And where they are made now: ADD in open mode. -/
theorem witness_goes_unchecked : Goes (.add { d := 1, a := 2, b := 3 }) base := .inr (by decide +kernel)
theorem witness_stall : verdict (on0 fun x => { x with
      sys := { x.sys with gm := true }
      seq := { x.seq with flights := [{ id := 1, slot := 0, issue := 90, ready := 91, bound := 200, dests := [.s 2], writes := [.s 2 7] }] } })
    { t := 0, slot := 0, index := 0, addr := 0, now := 100 } (.add { d := 1, a := 2, b := 3 }) = .stall := by decide +kernel
theorem witness_trap : verdict (seq0 fun q => { q with divFree := 120 }) { t := 0, slot := 0, index := 0, addr := 0, now := 100 }
    (.div { d := 1, a := 2, b := 3 }) = .trap (trapOf 0 0x06) := by decide +kernel

/-! ### Scalar checks -/

theorem witness_ScalarIssueConditions_open : (base.tile base.focus.tile).sys.gm = false ∧ (base.tile 0).eng.region = none ∧
    (base.tile 0).seq.divFree ≤ base.icc 0 ∧ base.focus.checked = false := by decide +kernel
theorem witness_ScalarIssueConditions_st : let s := base
    let g := s.gen (s.ctx (.st { d := 1, g := 0, size := 3, sx := false, b := 0 })) 0
    g.1.space.toNat < 2 ∧ g.2.toNat % 8 = 0 ∧ g.1.inRange g.2 = false := by decide +kernel
theorem witness_ScalarIssueConditions_st_goes :
    let s := on0 fun x => { x with regs := { x.regs with ag := Vector.replicate 16 (Gen.mk 0 64 0 (Vector.replicate 6 0) 4096) } }
    let g := s.gen (s.ctx (.st { d := 1, g := 0, size := 3, sx := false, b := 0 })) 0
    g.1.space = 0 ∧ g.2.toNat % 8 = 0 ∧ g.1.inRange g.2 = true ∧ s.readFault 0 (readsAt 101 [(64, 8)]) = none ∧
      opStalls s (s.ctx (.ld { d := 1, g := 0, size := 3, sx := false, b := 0 })) (.ld { d := 1, g := 0, size := 3, sx := false, b := 0 }) 0
        = false := by decide +kernel
theorem witness_ScalarIssueConditions_space : let s := on0 fun x => { x with regs := { x.regs with ag := Vector.replicate 16 (Gen.mk 2 64 0 (Vector.replicate 6 0) 4096) } }
    2 ≤ (s.gen (s.ctx (.st { d := 1, g := 0, size := 3, sx := false, b := 0 })) 0).1.space.toNat := by decide +kernel
theorem witness_ScalarIssueConditions_handler : let s := on0 fun x => { x with sys := { x.sys with hnd := true } }
    s.focus.checked = false ∧ (s.tile s.focus.tile).sys.hnd = true := by decide +kernel
theorem witness_LihRule : (0xFFFFFF#40).extractLsb' 24 16 = 0 ∧ (0x1000000#40).extractLsb' 24 16 ≠ 0 := by decide
theorem witness_MaskOperationRule : (Slot.v0 = .v0) ∧ (7 : BitVec 3) ≠ 0 := by decide
theorem witness_RegisterWrites : 0 < 31 ∧ 31 < 32 ∧ 0 < 7 ∧ 7 < 8 ∧ 15 < 16 := by decide
/-- Writes of a system register and of a divisor that are to take effect, the flags that land beside; and sr.drm asked for 4 and for 5. -/
theorem witness_SystemRegisterResults : let w : SrWrite := { sys := 1, how := 2, x := 0x3F }
    let x := (on0 fun x => { x with seq := { x.seq with srPend := [w] } }).tile 0
    let y := (on0 fun x => { x with seq := { x.seq with divPend := [(3, 8)] } }).tile 0
    x.seq.srPend = [w] ∧ x.seq.divPend = [] ∧ x.seq.phase = .running ∧ y.seq.divPend = [(3, 8)] ∧ y.seq.inHand = false ∧ y.seq.after = [] ∧
    y.seq.srPend = [] ∧ ((4 : Word) &&& 7).toNat < 5 ∧ 5 ≤ ((5 : Word) &&& 7).toNat := by decide +kernel
/-- A flag that lands on the cycle of a clearing write stays (R78); sr.event.sfail is cleared by writing 1 (R144). -/
theorem test_system_write : let x : Tile := { sys := { fpsr := 0x3F }, seq := { srPend := [{ sys := 1, how := 2, x := 0x3F }], landedB := 2 } }
    x.takeEffect.sys.fpsr = 2 ∧ (({ sfail := true } : Sys).write { sys := 6, how := 1, x := 0x10 }).sfail = false := by decide +kernel
theorem witness_StagingAccessResults_region : ((eng0 fun e => { e with region := some (128, []) }).tile 0).eng.region = some (128, []) := by
  decide +kernel

/-- Copies of both C slots that go, and the uses of the reads that they make. -/
theorem witness_CopyResults : (∀ k ∈ [GKind.grd, .dec, .feed, .gath], k ≠ .gwr) ∧ (14 : Nat) < 15 ∧ 63 < 64 ∧ 7 < 64 / 8 ∧
    (List.replicate 4096 (0 : Byte)).length = 4096 ∧
    verdict (on0 fun x => { x with regs := { x.regs with ag := vset x.regs.ag 1 { limit := 4096 } } }) { t := 0, slot := 5, index := 0, addr := 0, now := 100 }
      (.cloc { gd := 1, ga := 1, n := 1, fmt := 0, gw := 0, aw := false, fill := 0, df := 0 }) = .go := by decide +kernel
/-- A fill of four units whose window is the second and the third: two are copied, and two are padded (R267). -/
theorem test_copy_fill : let g : Gen := { base := 64, limit := 192 }
    let s := on0 fun x => { x with regs := { x.regs with ag := vset (vset x.regs.ag 1 { limit := 4096 }) 2 g } }
    let u := s.copyFill { t := 0, slot := 4, index := 0, addr := 0, now := 100 }
      { gd := 1, ga := 1, n := 3, fmt := 0, gw := 2, aw := false, fill := 9, df := 0 }
    ((u.tile 0).seq.stReads.map fun r => (r.cycle, r.addr)) = [(102, 64), (102, 128)] ∧
    ((u.tile 0).seq.stWrites.map fun w => (w.cycle, w.addr, w.bytes.headD 0)) = [(105, 0, 9), (105, 192, 9)] := by decide +kernel

/-! ### The step -/

theorem witness_Step_turn : let s : State := { seq0 (fun q => { q with nextAt := 1000 }) with turn := [0] }
    s.agenda = [] ∧ s.eventDue = false ∧ s.turn = 0 :: [] ∧
      (match exec (.bundleIssue 0 .clean) (({ s with turn := [] } : State).afterIssue 0) with | .next u => u.out == [] | _ => false) = true := by
  decide +kernel
/-- The issue of a placed ADDI has sent out that one operation. -/
theorem witness_Step_issue : let s := State.reset.withFetchWord 64 0x1400600000000007
    s.agenda = [] ∧ s.eventDue = false ∧ s.turn = 0 :: [] ∧
      (match exec (.bundleIssue 0 .clean) (({ s with turn := [] } : State).afterIssue 0) with
        | .next u => u.out == [(0, 0, .addi { d := 3, a := 0, imm := 7 })] | _ => false) = true := by decide +kernel
theorem witness_Step_event : let s : State := { base with inbox := [(100, .lanternLinkReturn 0)] }
    s.agenda = [] ∧ s.eventDue = true ∧ isSlotOp (.lanternLinkReturn 0) = false := by decide +kernel
theorem witness_Step_plan : decodeWord .s 0x1400600000000007 = .ok (.addi { d := 3, a := 0, imm := 7 }) ∧
    base.guardPasses 0 .s 0x1400600000000007 = true ∧ isNop (.addi { d := 3, a := 0, imm := 7 }) = false := by decide +kernel
theorem witness_Canonical : Canonical base := by
  refine ⟨rfl, rfl, rfl, fun t => ?_⟩
  show Memory.wf (look ({ } : Tile) t []).st = true
  rfl

/-! ### Bundles -/

theorem witness_BundleIssueSteps : let s := State.reset.withFetchWord 64 0x1400600000000007
    let b := s.onTile 0 fun x => x.newDivisors.newEntries
    s.mayIssue 0 = true ∧ (s.tile 0).seq.checks = [] ∧ (s.tile 0).seq.inHand = false ∧
    (b.tile 0).seq.holds (s.tile 0).seq.pc = true ∧
    let s' := b.beginBundle 0
    let q := (s'.tile 0).seq
    let h := s'.headAt 0 q.pc
    let ls := if s'.isEntry 0 q.pc then q.latches.map fun _ => { } else q.latches
    let ws := (h.words (s'.granulesAt 0 q.pc h)).1
    let ps := s'.planAll 0 ls ws
    s'.headFault 0 q.pc = none ∧ headAdmits h q.loops = true ∧ s'.kindFault 0 h ls = none ∧ s'.planWaits 0 ls ws = false ∧
    s'.planSources 0 q.pc ps = false ∧ s'.planDecode 0 q.pc ps = none ∧ s'.planStalls 0 q.pc ps = false ∧ s'.planFault 0 q.pc ps = none := by decide +kernel
/-- A head whose first-iteration flag is not met: the level is active and past its first iteration (R43). -/
theorem witness_BundleIssueSteps_suppressed : let s0 := State.reset.withFetchWord 64 0x1400600000000007
    let s : State := { s0.onSeq 0 fun q => { q with loops := vset q.loops 5 { active := true, lc := 3, l := 1 } } with
      mem := writeBytes s0.mem (codeAddr 0 8) (leBytes 8 (2 ^ 63 + 2 ^ 37 + 5 * 2 ^ 34)) }
    let b := s.onTile 0 fun x => x.newDivisors.newEntries
    let s' := b.beginBundle 0
    let q := (s'.tile 0).seq
    s.mayIssue 0 = true ∧ (s.tile 0).seq.checks = [] ∧ (s.tile 0).seq.inHand = false ∧ (b.tile 0).seq.holds (s.tile 0).seq.pc = true ∧
    s'.headFault 0 q.pc = none ∧ headAdmits (s'.headAt 0 q.pc) q.loops = false := by decide +kernel
theorem witness_TransferSteps : let s := seq0 fun q => { q with after := [.transferJump 0 3 2 true], targets := Vector.replicate 8 { addr := 136, fill := .filled } }
    s.transferWaits 0 2 = false ∧ s.comesTo 0 (.transferJump 0 3 2 true) false = true ∧ s.predRead 0 2 ≠ true ∧
    (s.tile 0).eng.region = none ∧ (vget { } (s.tile 0).seq.targets 3).fill = .filled ∧ s.isMarked 0 136 = false := by decide +kernel
theorem witness_TransferSteps_marked : let s := (State.reset.withFetchWord 64 0).onTile 0 fun x => { x with seq := { x.seq with after := [.transferCall 0 3 2 true], targets := Vector.replicate 8 { addr := 8, fill := .filled } } }
    s.comesTo 0 (.transferCall 0 3 2 true) false = true ∧ s.isMarked 0 8 = true := by decide +kernel
theorem witness_TransferSteps_not_taken : let s := seq0 fun q => { q with after := [.transferCall 0 0 0 true] }
    s.transferWaits 0 0 = false ∧ s.comesTo 0 (.transferCall 0 0 0 true) false = true ∧ s.predRead 0 0 = true ∧
    (vget { } (s.tile 0).seq.targets 0).fill = .empty := by decide +kernel
theorem witness_TransferSteps_filling : let s := seq0 fun q => { q with after := [.transferJump 0 3 2 true], targets := Vector.replicate 8 { addr := 136, fill := .filling 90 } }
    s.comesTo 0 (.transferJump 0 3 2 true) false = true ∧ s.transferWaits 0 2 = false ∧ s.predRead 0 2 = !true ∧
    (vget { } (s.tile 0).seq.targets 3).fill = .filling 90 ∧ (s.tile 0).seq.after ≠ [.transferJump 0 3 0 false] := by decide +kernel
/-- A transfer that stands while its entry fills, and whose entry is then filled. -/
theorem witness_TransferSteps_stands : let s := seq0 fun q => { q with after := [.transferJump 0 3 0 false], targets := Vector.replicate 8 { addr := 136, fill := .filling 90 } }
    let f := (State.reset.withFetchWord 64 0).onTile 0 fun x => { x with seq := { x.seq with after := [.transferJump 0 3 0 false], targets := Vector.replicate 8 { addr := 8, fill := .filled } } }
    s.comesTo 0 (.transferJump 0 3 0 false) false = true ∧ s.transferWaits 0 0 = false ∧ s.predRead 0 0 = !false ∧
    (s.tile 0).eng.region = none ∧ (vget { } (s.tile 0).seq.targets 3).fill = .filling 90 ∧
    f.comesTo 0 (.transferJump 0 3 0 false) false = true ∧ f.transferWaits 0 0 = false ∧ f.predRead 0 0 = !false ∧
    (f.tile 0).eng.region = none ∧ (vget { } (f.tile 0).seq.targets 3).fill = .filled ∧ f.isMarked 0 8 = true := by decide +kernel
theorem witness_TransferSteps_waits : let s := on0 fun x => { x with
      sys := { x.sys with gm := true }
      seq := { x.seq with issuedAt := 99, after := [.transferJump 0 3 2 true], flights := [{ id := 1, slot := 0, issue := 90, ready := 91, bound := 200, dests := [.p 2], writes := [.p 2 true] }] } }
    s.comesTo 0 (.transferJump 0 3 2 true) false = true ∧ s.transferWaits 0 2 = true ∧ (s.tile 0).seq.xpHeld = none ∧
    (s.tile 0).seq.flights.filter (fun f => f.issue < (s.tile 0).seq.issuedAt && f.dests.contains (.p (2 : BitVec 3).toNat)) =
      [] ++ [{ id := 1, slot := 0, issue := 90, ready := 91, bound := 200, dests := [.p 2], writes := [.p 2 true] }] ∧
    ((s.holdPred 0 2).tile 0).seq.xpHeld = some true := by decide +kernel
/-- A call that is taken in its bundle's own issue, and one that is taken later. -/
theorem witness_TransferSteps_call : ((seq0 fun q => { q with issuedAt := 100 }).tile 0).seq.issuedAt = base.icc 0 ∧
    ((seq0 fun q => { q with issuedAt := 90 }).tile 0).seq.issuedAt < base.icc 0 ∧ ((seq0 fun q => q).tile 0).seq.flights = [] := by decide +kernel
theorem witness_TransferSteps_region : let s := on0 fun x => { x with eng := { x.eng with region := some (0, []) }, seq := { x.seq with after := [.transferCall 0 3 2 true] } }
    s.comesTo 0 (.transferCall 0 3 2 true) false = true ∧ s.transferWaits 0 2 = false ∧ s.predRead 0 2 = !true ∧
    (s.tile 0).eng.region ≠ none := by decide +kernel
theorem witness_LoopEndSteps : let s := seq0 fun q => { q with after := [.loopEnd 0 0b100000], last := 8, loops := vset q.loops 5 { active := true, lc := 3, l := 1, body := 8 } }
    s.comesTo 0 (.loopEnd 0 0b100000) false = true ∧ loopMisuse (s.tile 0).seq.loops 0b100000 = false ∧
    (loopAdvance 0b100000 [5, 4, 3, 2, 1, 0] (s.tile 0).seq.loops).2 = some (5, 8) := by decide +kernel
theorem witness_LoopEndSteps_out : let s := (State.reset.withFetchWord 64 0).onTile 0 fun x => { x with seq := { x.seq with after := [.loopEnd 0 0b100000], last := 8, loops := vset x.seq.loops 5 { active := true, lc := 3, l := 2, body := 8 } } }
    s.comesTo 0 (.loopEnd 0 0b100000) false = true ∧ loopMisuse (s.tile 0).seq.loops 0b100000 = false ∧
    (loopAdvance 0b100000 [5, 4, 3, 2, 1, 0] (s.tile 0).seq.loops).2 = none ∧ s.successor 0 8 = .ok 24 := by decide +kernel
theorem witness_LoopEndSteps_misuse : let s := seq0 fun q => { q with after := [.loopEnd 0 1] }
    s.comesTo 0 (.loopEnd 0 1) false = true ∧ loopMisuse (s.tile 0).seq.loops 1 = true := by decide +kernel
theorem witness_BundleKindSteps_sync : let s := seq0 fun q => { q with after := [.sync 0 1] }
    s.comesTo 0 (.sync 0 1) true = true ∧ (s.tile 0).eng.region = none := by decide +kernel
theorem witness_BundleKindSteps_yield : let s := seq0 fun q => { q with after := [.yield 0] }
    s.comesTo 0 (.yield 0) true = true ∧ (s.tile 0).eng.region = none ∧ (s.tile 0).sys.pre = false := by decide +kernel
theorem witness_BundleKindSteps_rplan : let s := seq0 fun q => { q with after := [.rplan 0] }
    s.comesTo 0 (.rplan 0) true = true ∧ (s.tile 0).eng.region = none ∧ (s.tile 0).sys.rcls = false := by decide +kernel
/-- A variant with schedules for two classes and one re-plan point, and a task whose class has fallen. -/
def planned : Variant :=
  { key := 0, table := [0], links := [], scheds := [(2, []), (0, [])], start := 8, ckpt := 0
    replans := [[{ cls := 2, addr := 8, bodies := [], targets := [] }, { cls := 0, addr := 136, bodies := [], targets := [] }]] }
theorem witness_BundleKindSteps_switch :
    let s : State := { (on0 fun x => { x with
        sys := { x.sys with rcls := true }, vault := { x.vault with sched := 2 }, seq := { x.seq with after := [.rplan 0], last := 8 } }) with
      images := [(0, { variants := [planned], stage := [] })] }
    s.comesTo 0 (.rplan 0) true = true ∧ (s.tile 0).sys.pre = false ∧ (s.tile 0).sys.rcls = true ∧
    (s.tile 0).task.bind s.variantOf = some planned ∧ schedFor planned (effOf (s.tile 0).vault (s.tile 0).own).toNat = some (0, []) ∧
    pointAt planned (s.tile 0).vault.sched.toNat (s.tile 0).seq.last 0 = some { cls := 0, addr := 136, bodies := [], targets := [] } := by
  decide +kernel
theorem witness_BundleKindSteps_line : let s := seq0 fun q => { q with window := [{ addr := 128, asked := 90, here := false }] }
    (s.tile 0).seq.window.find? (fun e => e.addr == 128 && !e.here) = some { addr := 128, asked := 90, here := false } ∧
    90 < s.icc 0 ∧ s.homeFree 0 = true := by decide +kernel
theorem witness_BundleKindSteps_region : let s := on0 fun x => { x with eng := { x.eng with region := some (0, []) }, seq := { x.seq with after := [.sync 0 1] } }
    (s.tile 0).eng.region ≠ none ∧ s.comesTo 0 (.sync 0 1) true = true := by decide +kernel
theorem witness_BundleKindSteps_arrival : let s := seq0 fun q => { q with stall := .arriving 1 }
    (s.tile 0).seq.stall = .arriving 1 ∧ (s.tile 0).task = some task0 ∧ (s.tile 0).seq.phase = .running ∧ (s.tile 0).seq.issuedAt < s.icc 0 ∧
    s.arrivalReady 0 (task0.scope 1) = true ∧ 1 ∉ (s.tile 0).bar.lost := by decide +kernel
theorem witness_BundleKindSteps_entry : let s := seq0 fun q => { q with targets := Vector.replicate 8 { addr := 8, fill := .filling 40 } }
    (vget { } (s.tile 0).seq.targets (7 : BitVec 3).toNat).fill = .filling 40 ∧ 40 < s.icc 0 ∧
    s.homeFree 0 = true := by decide +kernel

/-! ### Landings, waits and traps -/

def flight7 : Flight := { id := 7, slot := 0, issue := 90, ready := 91, bound := 100, dests := [.s 3], writes := [.s 3 5] }
theorem witness_LandingSteps : let s := seq0 fun q => { q with flights := [flight7] }
    (s.tile 0).seq.flights.find? (fun f => f.id == 7) = some flight7 ∧ (s.tile 0).mayLand flight7 (s.icc 0) = true ∧
    flight7.check = none ∧ (s.tile 0).seq.checks = [] := by decide +kernel
/-- A result lands in its register, and no other changes. -/
theorem test_landing : (match exec (.resultLanding 0 7) (seq0 fun q => { q with flights := [flight7] }) with
    | .next u => (vget 0 (u.tile 0).regs.s 3 == 5) && (vget 0 (u.tile 0).regs.s 4 == 0) && (u.tile 0).seq.flights == []
    | _ => false) = true := by decide +kernel
def read9 : RdFlight := { id := 9, cycle := 100, bank := 2, row := 1, col := 3, addr := 64, bytes := List.replicate 64 1 }
theorem witness_LandingSteps_rd : let s := vault0 fun v => { v with reads := [read9] }
    (s.tile 0).vault.reads.find? (fun e => e.id == 9) = some read9 ∧ read9.cycle = s.icc 0 ∧ read9.written = false := by decide +kernel
theorem witness_LandingSteps_written : let s := vault0 fun v => { v with reads := [{ read9 with written := true }] }
    (s.tile 0).vault.reads.find? (fun e => e.id == 9) = some { read9 with written := true } ∧ read9.cycle = s.icc 0 := by decide +kernel
theorem witness_LandingSteps_own : let w : StWrite := { cycle := 100, tile := 0, slot := 0, addr := 64, bytes := [7], issue := 99 }
    let s := seq0 fun q => { q with stWrites := [w] }
    (s.tile 0).vault.reads = [] ∧ (s.tile 0).seq.stWrites = [w] ∧ w.slot < 16 ∧ w.cycle ≤ s.icc 0 ∧ w.arrival = none := by decide +kernel
theorem witness_StallEndSteps_waita : let s := seq0 fun q => { q with stall := .waita 5 64 1 }
    (s.tile 0).seq.stall = .waita 5 64 1 ∧ (s.tile 0).task = some task0 ∧ (s.tile 0).seq.issuedAt < s.icc 0 ∧
    genAt (s.tile 0).st 64 ≠ 1 := by decide +kernel
theorem witness_StallEndSteps_waits : let s := seq0 fun q => { q with stall := .waits 0 5 }
    (s.tile 0).seq.stall = .waits 0 5 ∧ (s.tile 0).seq.issuedAt < s.icc 0 ∧
    ((s.tile 0).eng.mmad.reqs.all fun r => 5 ≤ r.id) = true ∧ (s.tile 0).eng.copiesDone 5 (fun _ => true) = true := by decide +kernel
theorem witness_StallEndSteps_fence : let s := seq0 fun q => { q with stall := .fence 1 5 }
    (s.tile 0).seq.stall = .fence 1 5 ∧ (s.tile 0).fenced 1 5 (s.icc 0) = true ∧ (s.tile 0).seq.issuedAt < s.icc 0 := by decide +kernel
theorem witness_StallEndSteps_mode : let s := seq0 fun q => { q with stall := .modeDrain true false }
    (s.tile 0).seq.stall = .modeDrain true false ∧ (s.tile 0).drained = true ∧ (s.tile 0).seq.checks = [] := by decide +kernel
theorem witness_StallEndSteps_end : let s := seq0 fun q => { q with stall := .ending }
    (s.tile 0).seq.stall = .ending ∧ (s.tile 0).eng.region = none ∧ (s.tile 0).quiet (s.icc 0) = true := by decide +kernel
def trapRec (d : Nat) : TrapRec :=
  { req := { code := 0x06, slot := 0 }, disp := d, addr := 8, next := 24, issue := 0, rest := false, icc := 90, pcc := 90
    banks := Vector.replicate 32 (0, 0), phase := 0 }
theorem witness_TrapSteps_stop : let s := seq0 fun q => { q with phase := .trapping, trap := some (trapRec 0) }
    (s.tile 0).seq.phase = .trapping ∧ (s.tile 0).seq.trap = some (trapRec 0) ∧ (trapRec 0).disp ≠ 1 ∧
    (s.tile 0).stopDrained = true := by decide +kernel
theorem witness_TrapSteps_handler : let s := seq0 fun q => { q with phase := .trapping, trap := some (trapRec 1) }
    (s.tile 0).seq.phase = .trapping ∧ (s.tile 0).seq.trap = some (trapRec 1) ∧ (trapRec 1).disp = 1 ∧ (s.tile 0).drained = true ∧
    (s.tile 0).seq.haltBy = none := by decide +kernel
theorem witness_TrapSteps_halted : let s := seq0 fun q => { q with phase := .trapping, trap := some (trapRec 1), haltBy := some 3 }
    (s.tile 0).seq.phase = .trapping ∧ (s.tile 0).seq.trap = some (trapRec 1) ∧ (s.tile 0).drained = true ∧
    (s.tile 0).seq.haltBy = some 3 := by decide +kernel
/-- Entering the handler sets sr.mode.hnd and goes on at its address (R153). -/
theorem test_handler_entry : (match exec (.handlerEntry 0) (on0 fun x => { x with
      sys := { x.sys with handler := 3, en := true }, seq := { x.seq with phase := .trapping, trap := some (trapRec 1) } }) with
    | .next u => (u.tile 0).sys.hnd && (u.tile 0).seq.pc == 24 && (u.tile 0).seq.phase == .running
    | _ => false) = true := by decide +kernel
theorem witness_TrapSteps_tret : let s := seq0 fun q => { q with stall := .tretDrain }
    (s.tile 0).seq.stall = .tretDrain ∧ (s.tile 0).seq.phase = .running ∧ (s.tile 0).drained = true ∧ (s.tile 0).seq.held = [] := by
  decide +kernel
theorem witness_TrapSteps_tret_held : let r : TrapReq := { code := 0x42, slot := 7 }
    let s := seq0 fun q => { q with stall := .tretDrain, held := [r] }
    (s.tile 0).seq.stall = .tretDrain ∧ (s.tile 0).seq.phase = .running ∧ (s.tile 0).drained = true ∧
    (s.tile 0).seq.ceasing = false ∧ (s.tile 0).seq.held = [r] := by
  decide +kernel
/-- A MODE still owed by the bundle that trapped; and a frame whose bundle at 8 is a sync of level 3, whose arrival had been made. -/
theorem witness_TrapSteps_tret_owed : let s := seq0 fun q => { q with stall := .tretDrain, owed := [some (.modeDrain true false)] }
    (s.tile 0).seq.stall = .tretDrain ∧ (s.tile 0).seq.phase = .running ∧ (s.tile 0).drained = true ∧ (s.tile 0).seq.held = [] ∧
    s.frameWait 0 (vaultAddr 0 31 0) = none ∧ readNat s.mem (vaultAddr 0 31 0) 8 / 2 ^ 33 % 2 ≠ 1 ∧
    (s.tile 0).seq.owed.headD none = some (.modeDrain true false) := by decide +kernel
theorem witness_TrapSteps_tret_wait : let m := writeBytes [] (vaultAddr 0 31 0) (leBytes 8 (2 ^ 40) ++ leBytes 8 (8 * 2 ^ 32 + 8))
    let s : State := { seq0 (fun q => { q with stall := .tretDrain }) with mem := writeBytes m (codeAddr 0 8) (leBytes 8 (2 ^ 26 + 3 * 2 ^ 23)) }
    (s.tile 0).seq.stall = .tretDrain ∧ (s.tile 0).drained = true ∧ (s.tile 0).seq.held = [] ∧
    s.frameWait 0 (vaultAddr 0 31 0) = some (8, 1) ∧ (s.headAt 0 8).slev = 3 := by decide +kernel
theorem witness_TrapSteps_arrival_lost : let s := on0 fun x => { x with bar := { x.bar with lost := [1] }, seq := { x.seq with stall := .arriving 1 } }
    (s.tile 0).seq.stall = .arriving 1 ∧ (s.tile 0).task = some task0 ∧ (s.tile 0).seq.phase = .running ∧
    (s.tile 0).seq.issuedAt < s.icc 0 ∧ s.arrivalReady 0 (task0.scope 1) = true ∧ 1 ∈ (s.tile 0).bar.lost := by decide +kernel
/-- With yield_max 0 and replan_max 0 the intervals have passed by cycle 100. -/
theorem witness_TrapSteps_intervals : let s := seq0 (fun q => q) { base with pcc := 70000 }
    (s.tile 0).task = some task0 ∧ (s.tile 0).seq.counts = true ∧ task0.yieldMax < s.icc 0 - (s.tile 0).seq.yieldAt ∧
    task0.replanMax * 1750 < s.pcc - (s.tile 0).seq.replanAt ∧ 65536 ≤ s.icc 0 - (s.tile 0).bar.linkAt := by decide +kernel
theorem witness_TrapSteps_lost : let s := on0 fun x => { x with bar := { x.bar with lost := [1] }, seq := { x.seq with stall := .released 1 } }
    (s.tile 0).seq.stall = .released 1 ∧ 1 ∈ (s.tile 0).bar.lost ∧ (s.tile 0).seq.phase.live = true := by decide +kernel
theorem witness_TrapSteps_faults : let s := seq0 fun q => { q with faults := [(100, { code := 0x42, slot := 7 })] }
    (s.tile 0).seq.faults = [(100, { code := 0x42, slot := 7 })] ∧ 100 ≤ s.icc 0 ∧ 0x42 ∈ [0x42, 0x45, 0x46, 0x47, 0x48] := by
  decide +kernel

/-! ### Barriers and links -/

def wide (l : Launch) (s : State := base) : State := { s with launches := [(1, l)] }
theorem witness_BarrierSteps_island : let s : State := { base with barriers := [{ serial := 1, lev := 0, group := 0, last := some 90 }] }
    s.launch 1 = some launch0 ∧ s.barriers.find? (fun b => b.isOf 1 0 0) = some { serial := 1, lev := 0, group := 0, last := some 90 } ∧
    launch0.tiles[(launch0.group 0 0).headD 0]? = some 0 ∧ launch0.domain 0 = 0 ∧ 90 + 1 ≤ s.icc 0 := by decide +kernel
theorem witness_BarrierSteps_base : let b : Barrier := { serial := 1, lev := 1, group := 0, last := some 90 }
    let s : State := { base with barriers := [b] }
    s.barriers.find? (fun b => b.isOf 1 1 0) = some b ∧ 2 ≤ launch0.domain 1 ∧ b.known launch0 = true ∧ b.base = none := by decide +kernel
theorem witness_BarrierSteps_signal : let b : Barrier := { serial := 1, lev := 1, group := 0, last := some 80, base := some 90, toResume := [0] }
    let s : State := { base with barriers := [b] }
    s.barriers.find? (fun b => b.isOf 1 1 0) = some b ∧ 0 ∈ b.toResume ∧ (s.island 0).stretch = false ∧
    90 + launch0.sigOffset (launch0.phaseOf 0) ≤ s.pcc := by decide +kernel
theorem witness_BarrierSteps_release : let s := on0 fun x => { x with
      bar := { x.bar with arrived := some 1 }, seq := { x.seq with stall := .released 1 } }
    launch0.tiles[0]? = some 0 ∧ (s.tile 0).runs 1 = true ∧ (s.tile 0).seq.phase = .running ∧ (s.tile 0).seq.stall = .released 1 ∧
    (s.tile 0).bar.arrived = some 1 := by decide +kernel
theorem witness_BarrierSteps_exit : let l := { launch0 with ends := [0] }
    let s := seq0 (fun q => { q with stall := .exiting, nextAt := 100 }) (wide l)
    let gang := (List.range l.roles).filter fun r => match l.tiles[r]? with | some t => t / 16 == 0 | none => false
    gang = [0] ∧ (∀ r ∈ gang, r ∈ l.ends) ∧ (s.tile 0).runs 1 = true ∧ (s.tile 0).seq.nextAt ≤ s.icc 0 := by decide +kernel
/-- A variant of one link, from role 0 to itself at level 0: 2 lines, windows at 0 and 4,096. -/
def linked : Variant :=
  { key := 0, table := [0], links := [0, 0x0000000040000100], scheds := [(2, [])], start := 8, ckpt := 0, replans := [] }
def imaged (s : State) : State := { s with images := [(0, { variants := [linked], stage := [] })] }
def entry0 : LinkEntry := { srole := 0, rrole := 0, lev := 0, lines := 2, sbase := 0, rbase := 4096, ranks := none, rsv := false }
theorem witness_PaddedLinkSteps_accept : let m : Mark := { cycle := 90, addr := 0, chan := 0, line := 1, by_ := [none] }
    let s := imaged (on0 fun x => { x with bar := { x.bar with marks := [m] } })
    (s.tile 0).bar.nextMark = some m ∧ (s.channels task0).find? (fun e => e.1 == 0) = some (0, entry0) ∧ m.chan = 0 ∧
    (s.tile 0).bar.portAt ≤ s.icc 0 ∧ m.cycle < s.icc 0 ∧ s.linkDown (launch0.route entry0 0).2 = false := by decide +kernel
theorem witness_PaddedLinkSteps_links : base.linkDown none = false ∧
    ({ base with links := Vector.replicate 16 { up := false } } : State).linkDown (some 15) = true := by decide +kernel
theorem witness_PaddedLinkSteps_delivery :
    let e : LinkLine := { seq := 3, src := 0, serial := 1, chan := 0, line := 1, bytes := [], due := 100, link := none }
    let s := imaged (on0 (fun x => x) { base with lines := [e] })
    s.lines.find? (fun e => e.seq == 3) = some e ∧ s.linkDown e.link = false ∧
    (∀ f ∈ s.lines, f.seq < 3 → f.serial = e.serial → f.chan ≠ e.chan) ∧ s.lineTarget e = some (0, 4096) := by decide +kernel
theorem witness_PaddedLinkSteps_landing : let e : Landing := { tile := 0, addr := 4096, line := { seq := 3, src := 0, serial := 1, chan := 0, line := 1, bytes := [7], due := 100, link := none } }
    ({ base with landings := [e] } : State).landings = [e] ∧ e.tile ∈ [0] ∧ e.tile < Config.tiles := by decide +kernel
theorem witness_PaddedLinkSteps_failure :
    let e : LinkLine := { seq := 3, src := 0, serial := 1, chan := 0, line := 1, bytes := [], due := 100, link := some 15 }
    let s : State := { base with lines := [e], links := Vector.replicate 16 { up := false } }
    s.lines.find? (fun e => e.seq == 3) = some e ∧ s.linkDown e.link = true ∧ e.src < Config.tiles := by decide +kernel
theorem witness_PaddedLinkSteps_barrier : launch0.domain 2 = 4 ∧ 2 < launch0.levels ∧ launch0.podRank ≠ 2 ∧ base.parentUp launch0 = true ∧
    ({ base with links := Vector.replicate 16 { up := false } } : State).parentUp { launch0 with parent := some 3 } = false := by decide +kernel
/-- A line whose receiver is suspended on its tile, and one whose receiver has gone. -/
theorem witness_PaddedLinkSteps_gone :
    let e : LinkLine := { seq := 3, src := 0, serial := 1, chan := 0, line := 1, bytes := [], due := 100, link := none }
    let s := imaged (seq0 (fun q => q) { base with lines := [e] })
    let w := s.onSeq 0 fun q => { q with phase := .suspended }
    w.lineTarget e = none ∧ w.lineWaits e = true ∧ (imaged { base with lines := [e] }).lineTarget e = none ∧
    (imaged { base with lines := [e] }).lineWaits e = false := by decide +kernel
/-- A root that waits for the last of two packages, one that has heard it, and a tree cut at a child's link. -/
theorem witness_PaddedLinkSteps_learn : let b : Barrier := { serial := 1, lev := 2, group := 0, last := some 90 }
    let l := { launch0 with routes := [(0, 3, 1)] }
    launch0.domain b.lev = 4 ∧ launch0.root = true ∧ b.last ≠ none ∧ b.learned = none ∧ launch0.podN = 2 ∧
    launch0.podN ≤ ({ b with heard := [0] } : Barrier).heard.length + 1 ∧ b.heard.length + 1 < launch0.podN ∧
    ({ base with links := Vector.replicate 16 { up := false } } : State).treeCut l [] = true ∧ base.heardOf 1 2 = [] ∧
    base.launch 1 = some launch0 := by decide +kernel

/-! ### Decoder and denomination path -/

theorem witness_DecoderSteps_decode :
    let q : DrfReq := { id := 1, f := 0, q := 0, ratio := 8, issue := 90 }
    let s := eng0 fun e => { e with df := vset e.df 0 (List.replicate 64 0), drf := { reqs := [q] } }
    ((s.tile 0).drfReady.map (·.1)) = some q := by decide +kernel
theorem witness_DecoderSteps_emit :
    let q : DrfReq := { id := 1, f := 0, q := 0, ratio := 8, issue := 90 }
    let r : DrfRow := { stage := 2, emit := [5], charge := 3 }
    let s := eng0 fun e => { e with drf := { reqs := [q], row := some r } }
    (s.tile 0).working = true ∧ (s.tile 0).eng.drf.row = some r ∧ r.charge < q.ratio * 256 ∧
    (vget [] (s.tile 0).eng.q 0).length + (s.tile 0).eng.pops.count (s.icc 0, 0) < task0.qOcc 0 := by decide +kernel
theorem witness_DecoderSteps_header : (0x3000 : Nat) % 2 ^ 11 = 0 ∧ 0x3000 / 2 ^ 11 % 2 = 0 ∧ (0x3001 : Nat) % 2 ^ 11 ≠ 0 := by decide
/-- A block whose charge stands at the ratio, and positions in and beyond a block of 64, one of them seen. -/
theorem witness_DecoderSteps_ratio : let q : DrfReq := { id := 1, f := 0, q := 0, ratio := 8, issue := 90 }
    let r : DrfRow := { stage := 2, emit := [5], charge := 2048, k := 64, seen := BitVec.twoPow _ 9 }
    let s := eng0 fun e => { e with drf := { reqs := [q], row := some r } }
    (s.tile 0).working = true ∧ (s.tile 0).eng.drf.row = some r ∧ q.ratio * 256 ≤ r.charge ∧ r.k ≤ 64 ∧ 63 < r.k ∧
    r.seen.getLsbD 9 = true ∧ 9 < r.k ∧ r.seen.getLsbD 63 = false := by decide +kernel
def mmad0 : MmadReq := { id := 1, acc := 2, row := 0, q := 0, base := 0, lim := 4096, issue := 90 }
theorem witness_DenominationPathSteps_start : let s := eng0 fun e => { e with mmad := { reqs := [mmad0] } }
    (s.tile 0).working = true ∧ (s.tile 0).eng.mmad.started = false ∧ (s.tile 0).pending (s.icc 0) (.acc 2) = false := by decide +kernel
theorem witness_DenominationPathSteps_busy : let s := on0 fun x => { x with
      eng := { x.eng with mmad := { reqs := [mmad0] } }
      seq := { x.seq with flights := [{ id := 1, slot := 3, issue := 90, ready := 91, bound := 200, dests := [.acc 2], writes := [] }] } }
    (s.tile 0).working = true ∧ (s.tile 0).eng.mmad.reqs = [mmad0] ∧ (s.tile 0).pending (s.icc 0) (.acc 2) = true := by decide +kernel
theorem witness_DenominationPathSteps_read : let s := eng0 fun e => { e with
      mmad := { reqs := [mmad0], started := true, chunk := [(5, none)], sums := List.replicate 32 0 } }
    (s.tile 0).working = true ∧ (s.tile 0).eng.mmad.started = true ∧ mmad0.base + 64 * 5 + 64 ≤ mmad0.lim ∧
    (∃ e ∈ (s.tile 0).eng.mmad.chunk, e.1 = 5 ∧ e.2 = none) := by decide +kernel
theorem witness_DenominationPathSteps_pop : let s := eng0 fun e => { e with
      q := vset e.q 0 [63, 0x40000001, 0x80000000], mmad := { reqs := [mmad0], started := true, sums := List.replicate 32 0 } }
    (s.tile 0).working = true ∧ vget [] (s.tile 0).eng.q mmad0.q = [63, 0x40000001, 0x80000000] ∧
    ((63 : BitVec 32).extractLsb' 30 2 = 0 ∧ mmad0.base + 64 * 63 + 64 ≤ mmad0.lim) ∧
    (mmad0.lim < mmad0.base + 64 * 64 + 64) ∧ (0x40000001 : BitVec 32).extractLsb' 30 2 = 1 ∧
    (0x80000000 : BitVec 32).extractLsb' 30 2 = 2 := by decide +kernel

/-- The last row of a tile and its last column of 32, a chunk of one position read ahead, and a position not read. -/
theorem witness_DenominationPathSteps_sums : let x := (eng0 fun e => { e with
      mmad := { reqs := [{ mmad0 with row := 31 }], started := true, chunk := [(5, none)], ahead := [(6, 1)], sums := List.replicate 32 0 } }).tile 0
    (31 : Nat) < 32 ∧ x.eng.mmad.chunk ≠ [] ∧ find 6 x.eng.mmad.ahead = some 1 ∧ find 5 x.eng.mmad.ahead = none ∧
    ((30 ≠ 31 ∨ 32 ≤ 0) ∧ (31 ≠ 31 ∨ 32 ≤ 63)) := by decide +kernel

/-! ### Global memory -/

def leaf2 : Leaf := { va := 0, entry := 0xCA00000000000020, level := 1 }
/-- A page of 64 KiB of the pooled tier. -/
def leaf0 : Leaf := { va := 0, entry := 0xA200000000000000, level := 0 }
def copy5 : GCopy := { id := 5, slot := 4, kind := .grd, src := 0, srcSpace := 2, dst := 0, units := 1, issue := 90 }
theorem witness_GlobalUnitSteps_walk : let s := eng0 fun e => { e with copies := [copy5] }
    (s.tile 0).eng.copies.find? (fun g => g.id == 5) = some copy5 ∧ copy5.fault = none ∧ (s.tile 0).working = true ∧
    copy5.walked < copy5.units ∧ copy5.nextWalk = some (0, 0) := by decide +kernel
/-- A table region over the first frames of the pooled tier. -/
def tabled : State := { base with regions := [(0, 0xA000000000000000, 0xF)] }
/-- An empty table maps nothing: code 0x20 (R252). -/
theorem witness_GlobalUnitSteps_unmapped (w : Want) : (tabled.translate 0 w 0).1 = .error 0x20 := by
  have h : (tabled.walk (stackOf 0) (tabled.rootOf 0) 0).1 = .error 0x20 := by
    unfold State.walk State.walkFrom State.entryAt
    simp only [show tabled.caches = [] from rfl, List.filter_nil, List.map_nil, List.length_nil, Nat.zero_add, Nat.mod_one]
    decide +kernel
  unfold State.translate
  simp only [h]
theorem witness_GlobalUnitSteps_unit : let g := { copy5 with walked := 1, leaves := [leaf0] }
    let s := eng0 fun e => { e with copies := [g] }
    (s.tile 0).eng.copies.find? (fun g => g.id == 5) = some g ∧ 0 < g.walked ∧ g.past 0 = false ∧ (s.tile 0).lineWait g 0 = false ∧
    s.unitFault 0 g 0 = none ∧ (s.tile 0).eng.acks = [] ∧ s.unitHomes g 0 = [0] ∧ s.homeFree 0 = true := by decide +kernel
theorem witness_GlobalUnitSteps_ack : let s := eng0 fun e => { e with acks := [{ copy := 5, unit := 0, slot := 4, va := 0, pcc := 90 }] }
    ∃ a ∈ (s.tile 0).eng.acks, a.copy = 5 ∧ a.unit = 0 ∧ a.failed = false := by decide +kernel
/-- A write unit whose host has not answered for 10 ms. -/
theorem witness_GlobalUnitSteps_late : let a : HostAck := { copy := 5, unit := 0, slot := 4, va := 0, pcc := 90 }
    let s : State := { eng0 fun e => { e with acks := [a] } with pcc := 17500090 }
    (s.tile 0).seq.faults = [] ∧ ((s.tile 0).eng.acks.find? fun a => (0x26 : Nat) == 0x26 && a.copy == 5 && !a.failed && a.pcc + 17500000 ≤ s.pcc) = some a ∧
    ((s.tile 0).eng.acks.find? fun a => (0x28 : Nat) == 0x26 && a.copy == 5 && !a.failed && a.pcc + 17500000 ≤ s.pcc) = none := by decide +kernel
theorem witness_GlobalUnitSteps_write : let g : GCopy := { copy5 with kind := .gwr, srcSpace := 0, walked := 1, leaves := [leaf2], data := [(0, List.replicate 64 1)] }
    g.leafAt (g.dst + 64 * 0) = some leaf2 ∧ find 0 g.data = some (List.replicate 64 1) ∧ leaf2.ep = false := by decide +kernel
/-- A page with writer tags: a line without a tag, and one with that of the current epoch's role 5, written by role 3. -/
theorem witness_GlobalUnitSteps_tagged : let l : Leaf := { va := 0, entry := 0xCB00000000000020, level := 1 }
    let g : GCopy := { copy5 with kind := .gwr, srcSpace := 0, walked := 1, leaves := [l], data := [(0, List.replicate 64 1)] }
    let s := on0 fun x => x
    let a : Actor := s.actor 0
    let w := { s with tags := [(l.phys 0 / 64, ({ a with role := a.role + 5 } : Actor).tag false)] }
    g.leafAt (g.dst + 64 * 0) = some l ∧ find 0 g.data = some (List.replicate 64 1) ∧ l.ep = true ∧
    (s.tagWrite a (l.phys 0 / 64) 0).1 = true ∧ (w.tagWrite a (l.phys 0 / 64) 0).1 = false := by decide +kernel
theorem witness_GlobalUnitSteps_feed : let g : GCopy := { copy5 with kind := .feed, srcSpace := 0 }
    let s := eng0 fun e => { e with copies := [g] }
    (s.tile 0).eng.copies.find? (fun g => g.id == 5) = some g ∧ g.ticks (s.icc 0) = true ∧ vget 0 (s.tile 0).eng.dfAt g.fifo ≤ s.icc 0 ∧
    (vget [] (s.tile 0).eng.df g.fifo).length + 64 ≤ task0.dfOcc g.fifo := by decide +kernel
theorem witness_GlobalUnitSteps_fault : let r : TrapReq := { code := 0x20, slot := 4 }
    let s := seq0 fun q => { q with faults := [(100, r)] }
    (s.tile 0).seq.faults = [(100, r)] ∧ 100 ≤ s.icc 0 ∧ isGlobalCode r.code = true ∧ r.slot < 8 := by decide +kernel
def atomic6 : Atomic := { id := 6, va := 0, kind := .scalar .add 8 1 0 none, issue := 90, flight := none }
theorem witness_AtomicSteps_walk : let s := eng0 fun e => { e with atomics := [atomic6] }
    (s.tile 0).eng.copies.find? (fun g => g.id == 6) = none ∧ (s.tile 0).eng.atomics.find? (fun a => a.id == 6) = some atomic6 ∧
    atomic6.stopped = false ∧ atomic6.leaf = none := by decide +kernel
theorem witness_AtomicSteps_perform : let a := { atomic6 with leaf := some leaf0 }
    let s := eng0 fun e => { e with atomics := [a] }
    (s.tile 0).eng.atomics.find? (fun a => a.id == 6) = some a ∧ s.behind 0 6 0 = false ∧ s.homeFault leaf0 0 = none ∧
    s.portFree (s.homeOf leaf0 0) = true := by decide +kernel
theorem witness_AtomicSteps_value : let a : Atomic := { id := 6, va := 0, kind := .scalar .add 8 1 0 (some 3), issue := 90, flight := some 7 }
    let s := on0 fun x => { x with eng := { x.eng with atomics := [a] }, seq := { x.seq with flights := [{ id := 7, slot := 0, issue := 90, ready := 0, bound := 2000, dests := [.s 3], writes := [] }] } }
    (∃ f ∈ ((s.finishAtomic 0 a leaf2).tile 0).seq.flights, f.id = 7) ∧ a.flight = some 7 := by decide +kernel
/-- A line region of a store and a load, which both complete. -/
def accesses6 : List LineAccess :=
  [{ store := true, off := 8, size := 4, reg := 0, sx := false, data := 9 },
   { store := false, off := 8, size := 4, reg := 3, sx := false, data := 0, flight := some 7 }]
def region6 : Atomic := { id := 6, va := 0, kind := .line accesses6, issue := 90, flight := none }
/-- The line has been written under the key that the page names. -/
def regional : State := on0 (fun x => { x with
  eng := { x.eng with atomics := [region6] }
  seq := { x.seq with flights := [{ id := 7, slot := 0, issue := 90, ready := 0, bound := 2000, dests := [.s 3], writes := [] }] } })
  { base with lineKeys := [(0, 0)] }
theorem witness_AtomicSteps_line :
    ((regional.performLine leaf0 0 accesses6).1.map fun p => (p.1.flight, p.2)) = [(some 7, 9)] := by decide +kernel
theorem witness_AtomicSteps_line_writes :
    (((regional.finishAtomic 0 region6 leaf0).tile 0).seq.flights.map fun f => (f.id, f.writes)) = [(7, [.s 3 9])] := by decide +kernel
/-- An atomic whose home has moved its line of the cycle, behind which one waits whose bound has come. -/
theorem witness_AtomicSteps_pressed : let a := { atomic6 with leaf := some leaf0 }
    let b : Atomic := { id := 9, va := 0, kind := .scalar .add 8 1 0 (some 3), issue := 90, flight := some 7 }
    let s : State := { eng0 fun e => { e with atomics := [a, b] } with pcc := 2000 }
    (s.tile 0).eng.atomics.find? (fun a => a.id == 6) = some a ∧ s.behind 0 6 0 = false ∧ s.pressed 0 6 0 = true := by decide +kernel
theorem witness_AtomicSteps_vector :
    let a : VAtomic := { id := 8, slot := 1, op := .add, size := 4, lanes := [(0, 0, 1)], total := 1, flight := none, issue := 90 }
    let s := eng0 fun e => { e with vatomics := [a] }
    (s.tile 0).eng.vatomics = [a] ∧ a.stopped = false ∧ (s.tile 0).working = true ∧ a.lanes ≠ [] ∧ s.behind 0 8 0 = false := by decide +kernel
theorem witness_AtomicSteps_vector_end :
    let a : VAtomic := { id := 8, slot := 1, op := .add, size := 4, lanes := [], total := 1, flight := none, issue := 90, started := true }
    ((eng0 fun e => { e with vatomics := [a] }).tile 0).eng.vatomics = [a] ∧ a.started = true ∧ a.lanes = [] := by decide +kernel

/-- Operands of 32 and 64 bits, no NaN, one, the other, and both. -/
theorem witness_AtomicSteps_float : (32, fp32) ∈ [(32, fp32), (64, fp64)] ∧ (fp32.unpack 0x7FC00001).isNan = true ∧ (fp32.unpack 0).isNan = false ∧
    (fp64.unpack 0x7FF8000000000000).isNan = true ∧ (fp64.unpack 0).isNan = false ∧
    (fp32.firstNan [fp32.unpack 0x7FC00001]).isSome = true := by decide +kernel
/-- FP minimum at the home: of a NaN and a number the number, and of two NaNs the memory's (R107). -/
theorem test_atomic_fmin : AOp.apply .fmin 32 0x7F800001 0x3F800000 0 = 0x3F800000 ∧ AOp.apply .fmin 32 0x7FC00001 0xFFC00002 0 = 0x7FC00001 ∧
    AOp.apply .min 32 1 0xFFFFFFFF 0 = 0xFFFFFFFF ∧ AOp.apply .fadd 64 0x3FF0000000000000 0x3FF0000000000000 0 = 0x4000000000000000 := by
  decide +kernel

/-! ### The owner -/

theorem witness_OwnerTableSteps : base.inFlight = [] ∧ base.idle 1535 = true ∧ (base.tile 1535).saved = none ∧ base.commander ≠ some 1 ∧
    bitsOf (0 : Word) 60 59 < 2 := by decide +kernel
/-- An atomic on its way to frame 0 of the pooled tier: a region over the frame, and one beside it; and a tile with a saved task. -/
theorem witness_OwnerTableSteps_flight : let s := eng0 fun e => { e with atomics := [{ atomic6 with leaf := some leaf0 }] }
    s.inFlight = [(0, 0)] ∧ regionCovers 0x8000000000000000 0xF 0 0 = true ∧ regionCovers 0x8000000000000001 0xF 0 0 = false ∧
    regionCovers 0 0 0 0 = false ∧ 2 ≤ bitsOf (0x1000000000000000 : Word) 60 59 ∧ s.idle 0 = false := by decide +kernel
theorem witness_OwnerTableSteps_others : base.heard 1 = false ∧
    (let s : State := { base with ports := Vector.replicate 2 port0 }
     s.heard 1 = true ∧ s.commander ≠ some 1) := by decide +kernel
theorem witness_OwnerTableSteps_key : let s : State := { base with ports := Vector.replicate 2 { up := true, session := some 3 }, ownerSecure := true }
    (vget { } s.ports 0).session = some 3 ∧ s.rights = true := by decide +kernel
def record0 : ConfigRecord :=
  { version := 1, grade := 0, helper := [], identity := 0, minFirmware := 2, cxl := false, keys := [(7, true)], trims := [], sig := 0 }
/-- A signature that holds: the neutral point's, under the key that is the neutral point. -/
theorem ed_zero_times (n k : Nat) : EdPoint.zero.times n k = .zero := by
  have h : EdPoint.zero.add .zero = .zero := by decide +kernel
  induction n generalizing k with
  | zero => rfl
  | succ n ih => simp only [EdPoint.times, ih, h, ite_self]
theorem ed_base_times (n : Nat) : EdPoint.base.times n 0 = .zero := by
  have h : EdPoint.zero.add .zero = .zero := by decide +kernel
  induction n with
  | zero => rfl
  | succ n ih => simp only [EdPoint.times, Nat.zero_div, ih, h, Nat.zero_mod, zero_ne_one, if_false]
theorem ed_decode_one : edDecode 1 = some .zero := by decide +kernel
theorem witness_signature (msg : List Byte) : ed448Valid 1 msg 1 = true := by
  have h1 : 1 % 2 ^ 456 = 1 := by norm_num
  have h2 : 1 / 2 ^ 456 = 0 := by norm_num
  unfold ed448Valid
  simp only [h1, h2, ed_decode_one, ed_zero_times, Nat.mul_zero, Nat.zero_mod, ed_base_times]
  decide +kernel
theorem witness_OwnershipSteps_claim : let s : State := { base with owner := none, record := some { record0 with keys := [(1, true)] } }
    s.heard 0 = true ∧ ed448Valid 1 s.claimText 1 = true :=
  ⟨by decide +kernel, witness_signature _⟩
theorem witness_OwnershipSteps : let s : State := { base with owner := none, record := some record0 }
    s.heard 0 = true ∧ s.heard 1 = false ∧ s.record = some record0 ∧ record0.keys.find? (fun k => k.1 == 7) = some (7, true) ∧ record0.keys.find? (fun k => k.1 == 8) = none ∧
    s.owner = none := by decide +kernel
theorem witness_OwnershipSteps_other : let s : State := { base with owner := some 1, handover := some (7, 200) }
    s.owner = some 1 ∧ s.handover = some (7, 200) ∧ s.pcc < 200 ∧ (vget { } s.ports 1).lossTold = false := by decide +kernel
theorem witness_OwnershipSteps_refused : let s : State := { base with owner := some 1, record := some record0 }
    s.heard 0 = true ∧ s.owner = some 1 ∧ s.handover = none ∧ (vget { } s.ports 1).lossTold = false ∧
    ¬ ∃ b, s.ownerWas = some (s.pcc, none, b) := by
  refine ⟨by decide +kernel, rfl, rfl, by decide +kernel, ?_⟩
  rintro ⟨b, h⟩; cases (show (none : Option (Nat × Option Nat × Bool)) = _ from h)
theorem witness_OwnershipSteps_reset : let s : State := { base with resetting := true }
    s.resetting = true ∧ (∃ e ∈ s.launches, e.2.state.final = false) ∧
    ∀ e ∈ ({ s with launches := [(1, { launch0 with state := .ended })] } : State).launches, e.2.state.final = true := by decide +kernel
theorem witness_OwnershipSteps_loss : let s : State := { base with pcc := 3500000001, ports := Vector.replicate 2 { lostAt := some 1 } }
    s.owner = some 0 ∧ (vget { } s.ports 0).up = false ∧ (vget { } s.ports 0).lossTold = false ∧
    (vget { } s.ports 0).lostAt = some 1 ∧ 1 + 3500000000 ≤ s.pcc := by decide +kernel
theorem witness_LanternSteps : let s : State := { base with ports := Vector.replicate 2 { up := true } }
    (vget { } s.ports 1).up = true ∧ s.boot ≠ .off ∧ (vget { } s.ports 1).session = none ∧ s.windows.length < 64 := by decide +kernel
theorem witness_LanternSteps_heard : let s : State := { base with ports := Vector.replicate 2 port0 }
    s.heard 0 = true ∧ s.heard 1 = true ∧ (vget { } s.ports 1).session = some 3 ∧ s.commander = some 0 ∧ s.owner = some 0 ∧
    ({ s with windows := List.replicate 64 (0, 0, 0) } : State).windows.length = 64 := by decide +kernel
/-- A throttle command for the last island and not for the first, whose tile 0 runs a task. -/
theorem witness_LanternSteps_throttle : (95 : Nat) ∈ [95] ∧ 95 < Config.islands ∧ 0 ∉ [95] ∧ ((on0 fun x => x).tile 0).noticed = true := by decide +kernel
theorem witness_BootSteps : State.reset.boot = .off ∧ ({ base with boot := .firmware, record := some record0 } : State).boot = .firmware ∧
    ({ base with boot := .failed 0x81 } : State).boot = .failed 0x81 ∧ (∀ p ∈ ({ base with ports := Vector.replicate 2 { } } : State).ports.toList, p.up = false ∧ p.lostAt = none) := by decide +kernel
/-- The firmware stage, with light on the waking port alone, with a refused image, and with room in the log. -/
theorem witness_BootSteps_ports : let s : State := { base with boot := .firmware, record := some record0, ports := Vector.replicate 2 { up := true } }
    s.waking = 0 ∧ (vget { } s.ports 1).up = true ∧ s.pushRefused = false ∧ (vget { } base.ports 1).up = false ∧
    ({ s with pushRefused := true } : State).pushRefused = true ∧ s.log.length < 4096 := by decide +kernel
/-- A flit of each kind: its fields, its CRC, and a route for pod rank 5. -/
theorem witness_OutsideAccessSteps_flit : let f := flitOf 3 5 0 0 [] .done
    let s : State := { base with routes := [(5, 2, 0)] }
    f.kind = 3 ∧ f.dest = 5 ∧ (15 : Nat) < 16 ∧ (65535 : Nat) < 65536 ∧ (4095 : Nat) < 4096 ∧
    s.linkTo f.dest = some 2 ∧ base.linkTo f.dest = none ∧ (vget { up := false } s.links 2).up = true ∧
    (vget { up := false } s.links 16).up = false ∧
    (flitOf 4 5 0 0 [] .none).kind = 4 ∧ (flitOf 0 5 0 0 [] .none).kind = 0 := by decide +kernel
/-- A flit that bears its CRC, and one that bears another. -/
theorem witness_OutsideAccessSteps_crc (kind dest chan seq : Nat) (payload : List Byte) (means : FlitUse) :
    let f := flitOf kind dest chan seq payload means
    crc64 f.covered = f.crc ∧ crc64 (Flit.covered { f with crc := f.crc + 1 }) ≠ f.crc + 1 := by
  unfold flitOf Flit.covered
  dsimp only
  refine ⟨rfl, fun h => ?_⟩
  generalize crc64 _ = c at h
  bv_omega
/-- A line flit for the one channel of a running pod launch. -/
theorem witness_OutsideAccessSteps_line :
    let v := { linked with links := [0, 0x0000000040000102, 0x0000000100000000] }
    let s : State := { base with images := [(0, { variants := [v], stage := [] })] }
    let f := flitOf 1 5 0 7 [1] .none
    f.kind = 1 ∧ f.channel = 0 ∧ s.linkTo f.dest = none ∧ (s.podChannel f.channel).isSome = true := by decide +kernel
/-- The window of the member with pod rank 5 begins at 6 × 2^53. -/
theorem witness_OutsideAccessSteps_member : let s : State := { base with routes := [(5, 2, 0)] }
    2 ^ 53 ≤ 6 * 2 ^ 53 ∧ s.linkTo (6 * 2 ^ 53 / 2 ^ 53 - 1) = some 2 ∧ 2 ^ 53 - 1 < 2 ^ 53 ∧ base.linkTo (2 ^ 53 / 2 ^ 53 - 1) = none := by
  decide +kernel
theorem witness_OutsideAccessSteps : base.outsideFault 0x10000 false true 4503599627370496 8 = some 0x20 ∧
    base.outsideFault 0x10000 false true 0 0 = none ∧ (physOf 0).1 = 0 ∧ base.inTables 0 0 8 = false ∧
    ({ base with regions := [(0, 0xA000000000000000, 0xF)] } : State).inTables 0 0 8 = true ∧
    (vget { } base.links 15).up = true ∧ (vget { } ({ base with links := Vector.replicate 16 { up := false, retrain := some 9 } } : State).links 15).retrain
      = some 9 := by decide +kernel
/-- A table region that is secure, and a session without secure rights; and an open aperture. -/
theorem witness_OutsideAccessSteps_hidden : let s : State := { base with regions := [(0, 0xE000000000000000, 0xF)], aperture := some (2 ^ 60, 0x10000) }
    s.inTables 0 0 8 = true ∧ s.hidden 0 0 0 8 = true ∧ tabled.hidden 0 0 0 8 = false ∧
    s.aperture = some (2 ^ 60, 0x10000) ∧ 2 ^ 60 ≤ 2 ^ 60 + 8 ∧ 2 ^ 60 + 8 + 4 ≤ 2 ^ 60 + 2 ^ 55 := by decide +kernel
theorem witness_OutsideAccessSteps_pod :
    let v := { linked with links := [0, 0x0000000040000102, 0x0000000100000000] }
    let s : State := { base with images := [(0, { variants := [v], stage := [] })] }
    (s.podChannel 0).map (·.1) = some 1 := by decide +kernel

/-! ### Vaults, sensors and failures -/

theorem witness_VaultUpkeepSteps_due : base.isDue 0 0 = true ∨ ({ base with pcc := 0 } : State).isDue 0 0 = true := by decide +kernel
theorem witness_VaultUpkeepSteps_owns : ((on0 fun x => x).tile 0).owns 30 = true := by decide +kernel
theorem witness_VaultUpkeepSteps_keeps : let s := vault0 fun v => { v with keeper := true, banks := vset v.banks 30 { opened := true } }
    (s.tile 0).keeps 30 = true ∧ (vget { } (s.tile 0).vault.banks 30).opened = true ∧
    (∀ e ∈ constraints (s.tile 0).vault (s.icc 0) .pre 30, e.need ≤ e.age) ∧ (vget { } (s.tile 0).vault.banks 0).opened = false ∧
    (∀ e ∈ constraints (s.tile 0).vault (s.icc 0) .refpb 0, e.need ≤ e.age) ∧ s.turnAhead 0 = false ∧
    (s.tile 0).channelBusy (s.icc 0) = false := by decide +kernel
/-- A first reading, an unchanged one, one that has not changed while the compute die has, and a failed sensor. -/
theorem witness_VaultUpkeepSteps_readings : let l : Layer := { reading := some 320, stillSince := 0, compute := some 300 }
    ((on0 fun x => x).tile 0).vault.layers.toList.all (fun l => !l.sfail && l.reading.isNone) = true ∧
    stuckAt 174999999 l.compute (some 400) = false ∧ stuckAt 175000000 l.compute (some 316) = true ∧ stuckAt 175000000 l.compute (some 315) = false ∧
    (521 : Int) > 520 ∧ (-81 : Int) < -80 ∧ ((320 : Int) - 311).natAbs = 9 ∧
    (vget { } ((vault0 fun v => { v with layers := vset v.layers 3 { sfail := true } }).tile 0).vault.layers 3).sfail = true := by decide +kernel
theorem witness_VaultUpkeepSteps_sensor : let s := vault0 fun v => { v with
      layers := vset v.layers 3 { reading := some 396, suspect := true, leads := [(90, 2)] } }
    (vget { } (s.tile 0).vault.layers 3).sfail = false ∧ (vget { } (s.tile 0).vault.layers 3).reading = some 396 ∧
    (vget { } (s.tile 0).vault.layers 3).suspect = true ∧ (vget { } (s.tile 0).vault.layers 3).leads = [(90, 2)] ∧ 90 ≤ s.lcc 0 4 ∧
    (400 : Int) ≠ 396 ∧ ((400 : Int) - 396).natAbs ≤ 8 := by decide +kernel
theorem witness_VaultUpkeepSteps_island : let s : State := { base with isl := [(0, { suspect := true })] }
    (s.island 0).suspect = true ∧ (s.island 0).failed = false := by decide +kernel
/-- The first reading of 115 °C, at the owner's package. -/
theorem witness_PackageFailureSteps_first : (base.island 95).hot = 0 ∧ base.owner = some 0 ∧ (460 : Int) ≤ 460 ∧ (419 : Int) < 420 := by decide +kernel
theorem witness_PackageFailureSteps : (base.island 95).failed = false ∧ (({ base with isl := [(0, { hot := 1 })] } : State).island 0).hot = 1 ∧
    3 ∉ base.unitsDown ∧ (base.tile 1535).vault.failed = false ∧ (base.island 0).stretchAt = none := by decide +kernel
theorem witness_PackageFailureSteps_base : let s : State := { base with baseDie := [(0, 200)], isl := [(0, { failed := true })] }
    (s.island 0).failed = true ∧ find (stackOfIsland 0) s.baseDie = some 200 ∧ (200 : Int) + 40 < 460 := by decide +kernel
theorem witness_PackageFailureSteps_units : let s : State := { base with record := some record0, unitsDown := [3] }
    s.record = some record0 ∧ record0.cxl = false ∧ 23 < 24 ∧ 23 ∉ s.unitsDown ∧ 3 ∈ s.unitsDown ∧ ({ record0 with cxl := true }).cxl = true := by
  decide +kernel
/-- A tile with a saved task, of no launch kept, of one no tile of which runs, and of one of which another tile runs. -/
theorem witness_PackageFailureSteps_saved : let s := base.onTile 0 fun x => { x with saved := some task0 }
    let w := (on0 (fun x => x) (wide { launch0 with tiles := [0, 1] })).onTile 1 fun x => { x with saved := some { task0 with role := 1 } }
    (s.tile 0).vault.failed = false ∧ (s.tile 0).saved = some task0 ∧ ({ s with launches := [] } : State).launch 1 = none ∧
    s.launch 1 = some launch0 ∧ (∀ v ∈ launch0.tiles, (s.tile v).runs 1 = false) ∧
    (w.tile 1).saved = some { task0 with role := 1 } ∧ w.launch 1 = some { launch0 with tiles := [0, 1] } ∧ (w.tile 0).runs 1 = true ∧
    ((vault0 fun v => { v with failed := true }).tile 0).vault.failed = true := by decide +kernel
theorem witness_PackageFailureSteps_copy : let s := vault0 fun v => { v with layers := vset v.layers 3 { lostShadow := true } }
    (vget { } (s.tile 0).vault.layers 3).lostShadow = true ∧ (s.tile 0).saved = none := by decide +kernel

/-! ### Launches -/

theorem witness_SubmissionSteps_notice : let s : State := { (on0 fun x => x) with notices := [(0, .pre, 90)], delivered := [(0, .hold)] }
    (s.tile 0).noticed = true ∧ s.notices.find? (fun e => e.1 == 0 && e.2.1 == .pre) = some (0, .pre, 90) ∧
    (0, Notice.hold) ∈ s.delivered := by decide +kernel
/-- A throttle notice for a task that runs, one for a tile without a task, and none. -/
theorem witness_SubmissionSteps_throttle : let n : Notice := .thr 2 1 1 1
    let s : State := { (on0 fun x => x) with notices := [(0, n, 90), (1, n, 90)] }
    s.notices.find? (fun e => e.1 == 0 && e.2.1 == n) = some (0, n, 90) ∧ (s.tile 0).noticed = true ∧
    s.notices.find? (fun e => e.1 == 1 && e.2.1 == n) = some (1, n, 90) ∧ (s.tile 1).noticed = false ∧
    s.notices.find? (fun e => e.1 == 0 && e.2.1 == .pre) = none ∧
    (∀ k, k < 4 → vget 1 (base.island 0).throttle k < 16 ∧ vget 1 (base.island 0).floors k < 16) ∧ (base.island 0).floorNotice = .thr 1 1 1 1 := by
  decide +kernel
theorem witness_BindingSteps_start : let s := seq0 (fun q => { q with phase := .starting, pc := 8, window := [{ addr := 0, asked := 0, here := true }] }) (launched .binding)
    let s' := s.onSeq 0 fun q => { q with phase := .starting }
    (s'.tile 0).runs 1 = true ∧ s'.memberReady 0 = true ∧ (s'.tile 0).saves 1 = false := by decide +kernel
theorem witness_BindingSteps_save : let s := seq0 (fun q => q)
    let s' := s.onSeq 0 fun q => { q with phase := .suspending }
    (s'.tile 0).task = some task0 ∧ s'.suspendReady 0 = true ∧ ¬ (task0.disp = true) ∧ (s'.tile 0).saved = none := by decide +kernel
/-- A record with the checkpoint path asked for, of class 2. -/
def taskC : Task := { task0 with record := (0x0052000000000000 : Word) :: words.tail }
theorem witness_BindingSteps_checkpoint : let s := (imaged base).onTile 0 fun x => { x with task := some taskC, seq := { x.seq with phase := .suspending } }
    (s.tile 0).task = some taskC ∧ s.variantOf taskC = some linked ∧ s.suspendReady 0 = true ∧ taskC.disp = true ∧ 2 ≤ taskC.cls ∧
    taskC.holding = false := by decide +kernel
theorem witness_BindingSteps_resume : let l := { launch0 with state := .resuming, granted := [0] }
    let s := (wide l).onTile 0 fun x => { x with saved := some task0 }
    s.launch 1 = some l ∧ 0 ∈ l.granted ∧ (s.tile 0).saved = some task0 ∧ s.raised [0] = true := by decide +kernel
/-- A variant without links, for the one tile, whose key is the package's signature (R22), and a launch granted that tile. -/
def fit : Variant := { linked with key := base.signature, links := [] }
def binding0 : Launch := { launch0 with state := .binding }
def fitted : State := { base with images := [(0, { variants := [fit], stage := [] })], launches := [(1, binding0)] }
theorem fitted_selected : fitted.selected binding0 = some (0, fit) := by
  have h : fitted.signature = base.signature := rfl
  have f : fitted.imageOf binding0 = some { variants := [fit], stage := [] } := rfl
  unfold State.selected; rw [f]
  simp [h, fit]
theorem witness_BindingSteps_bind : fitted.launch 1 = some binding0 ∧ binding0.state = .binding ∧
    (∀ t ∈ binding0.tiles, (fitted.tile t).runs 1 = false) ∧ fitted.raised binding0.tiles = true ∧
    lowest (fitted.variantCodes binding0) = 0 ∧ fitted.selected binding0 = some (0, fit) ∧
    (fitted.evacuate binding0.own binding0.tiles).isSome = true ∧ tilesOf fit = binding0.tiles := by
  refine ⟨rfl, rfl, by decide +kernel, by decide +kernel, ?_, fitted_selected, by decide +kernel, by decide +kernel⟩
  unfold State.variantCodes
  rw [fitted_selected]
  decide +kernel
/-- Without a variant that fits, the code is 0x01. -/
theorem witness_BindingSteps_refused : let s : State := { fitted with images := [(0, { variants := [], stage := [] })] }
    s.launch 1 = some binding0 ∧ lowest (s.variantCodes binding0) = 0x01 := by decide +kernel
theorem witness_HeldLaunchSteps : let s := launched .held (on0 fun x => { x with seq := { x.seq with phase := .stopped } })
    s.launch 1 = some { launch0 with state := .held } ∧ (s.tile 0).runs 1 = true ∧ (s.tile 0).seq.phase ≠ .trapping ∧
    LState.held.final = false ∧ LState.failed.final = true := by decide +kernel
theorem witness_HeldLaunchSteps_restart : let s := launched .held (seq0 fun q => { q with phase := .stopped, trap := some { trapRec 0 with req := { code := 0x20, slot := 0 } } })
    s.launch 1 = some { launch0 with state := .held } ∧ (s.tile 0).runs 1 = true ∧ s.restarts 0 = true := by decide +kernel
theorem witness_HeldLaunchSteps_read : let s := on0 fun x => { x with frames := true, seq := { x.seq with phase := .stopped } }
    s.mayRead 0 = true ∧ s.launch 1 = some launch0 ∧ launch0.acked = false ∧ (s.tile 0).runs 1 = true ∧ (s.tile 0).frames = true ∧
    s.framesGo 0 = true := by decide +kernel
theorem witness_HeldLaunchSteps_frames : let s := base.onTile 0 fun x => { x with frames := true }
    (s.tile 0).frames = true ∧ (s.tile 0).task = none := by decide +kernel
/-- A repeating bundle in hand of a cancelled launch, and one whose last issue has gone out. -/
theorem witness_HeldLaunchSteps_ceasing : let s := seq0 fun q => { q with ceasing := true }
    (s.tile 0).seq.ceasing = true ∧ (s.tile 0).seq.inHand = false ∧ (s.tile 0).runs 1 = true ∧ 0 ∈ launch0.tiles := by decide +kernel
theorem witness_HeldLaunchSteps_expiry : let l := { launch0 with state := .failed, leftAt := some 1 }
    let s := wide l ((on0 (fun x => { x with frames := true }) { base with pcc := 17500000001 }))
    (s.tile 0).task = some task0 ∧ s.launch 1 = some l ∧ (s.tile 0).frames = true ∧ 1 + 17500000000 ≤ s.pcc := by decide +kernel
theorem witness_ImageAndSessionSteps : find 7 base.images = none ∧ (∀ e, find 3 base.sessions = some e → e.opened = false) ∧
    variantOk { linked with scheds := [] } = false ∧ (0 : Word).getLsbD 63 = false ∧
    (0x8000000000000000 : Word).getLsbD 63 = true ∧ entryStart (0, 0) < ({ base with ptpNs := 1 } : State).ptpNs := by
  refine ⟨rfl, fun e h => ?_, by decide +kernel, by decide, by decide, by decide +kernel⟩
  cases (show (none : Option Session) = some e from h)
theorem witness_ImageAndSessionSteps_image : variantOk { linked with scheds := [(2, (oneWordLine .s 0) ++ List.replicate 12 0)] } = true := by
  decide +kernel
theorem witness_ImageAndSessionSteps_fire : let e : Word × Word := (0, 0x8000000000000000)
    let s : State := { base with timed := [(0, e)], slots := [(0, sub0)], ptpNs := 5 }
    find (0 * 512 + 0) s.timed = some e ∧ e.2.getLsbD 63 = true ∧ entryStart e ≤ s.ptpNs ∧ find (0 * 256 + entrySlot e) s.slots = some sub0 := by
  decide +kernel
theorem witness_ImageAndSessionSteps_again : find 7 ({ base with images := [(7, { variants := [], stage := [] })] } : State).images =
    some { variants := [], stage := [] } := rfl
theorem witness_ImageAndSessionSteps_open : let s : State := { base with sessions := [(3, { replay := false })] }
    find 3 s.sessions = some { replay := false } := by decide +kernel
theorem witness_OperatingPointSteps : (base.island 0).tgt = (base.island 0).cur ∧ (base.island 0).step = none := by decide +kernel
/-- A request held for a grant, and the word that clears sup. -/
theorem witness_OperatingPointSteps_held : let s : State := { base with isl := [(0, { hv := true, held := 3, sup := true })] }
    (s.island 0).hv = true ∧ (s.island 0).tgt = (s.island 0).cur ∧ s.grantWaits 0 = false ∧ 6 ≤ 2 ^ 52 + 1 ∧ (2 : Nat) ^ 52 + 1 ≠ 2 ^ 52 := by
  decide +kernel
theorem witness_OperatingPointSteps_ramp : let s : State := { base with isl := [(0, { cur := 3, tgt := 2, step := some 90 }), (1, { cur := 2, tgt := 3 })] }
    (s.island 0).hv = false ∧ (s.island 0).tgt < (s.island 0).cur ∧ (s.island 0).step = some 90 ∧ 90 ≤ s.pcc ∧
    (s.island 1).cur < (s.island 1).tgt ∧ s.applied 1 (s.island 1).tgt = true := by decide +kernel
/-- Three tables of the second tier that map one 2 MiB page of that tier. -/
def paged : State :=
  { base with
    capacity := 1000
    regions := [(0, 0xA800000000000000, 3)]
    mem2 := writeBytes (writeBytes (writeBytes [] 0 (leBytes 8 0x8800000000000100)) 0x10000 (leBytes 8 0x8800000000000200))
      0x20000 (leBytes 8 0xCA00000000000020) }
theorem witness_OperatingPointSteps_page : let p : Page := { tier := 1, addr := 0x20000, leaf := leaf2 }
    paged.pages.find? (fun p => p.addr == 0x20000) = some p ∧ p.leaf.tier < 2 ∧ wholePage paged.pages p.leaf = true ∧
    pinned paged.pages p.leaf = false ∧ paged.frameFree paged.pages p.leaf 1 64 = true := by decide +kernel
theorem witness_SubmissionSteps_consider : let s := launched .queued
    s.launch 1 = some { launch0 with state := .queued } ∧ s.replayLets launch0 = true ∧ s.usable 1 launch0 0 = true ∧
    look 1 0 s.reserved = 1 ∧ (s.evacuate launch0.own [0]).isSome = true ∧ tilesOf linked = [0] := by decide +kernel

/-! The assembler. -/

/-- Text between braces. -/
def braced (t : String) : Asm.Text := [Asm.openBrace] ++ t.toList ++ [Asm.closeBrace]
/-- The line worked in chapter 3 after R60: the function of two bundles. -/
def workedLine : Asm.Text :=
  ".func main\n".toList ++ braced " D: ACT b2, 0x0123 " ++ ['\n'] ++ braced ""
    ++ ", rep 4, jump t3 if p2\n.funcend\n.start main".toList
set_option maxRecDepth 20000 in
/-- Its granules are those of chapter 3 (R36, R60, R62, R66). -/
theorem test_assembler_worked_line :
    (match Asm.assemble workedLine with
      | .ok ([o], []) => (o.code.take 4).map BitVec.toNat ++ [o.code.length, o.start]
      | _ => []) = [0x000A000280000000, 0x0200000000000000, 0x08824600, 0x00035A0000000000, 16, 8] := by decide +kernel
set_option maxRecDepth 20000 in
/-- The word of R195's example. -/
theorem test_assembler_vfma :
    (match Asm.assembleOp ⟨[], 0, true⟩ .v0 "VFMA.f32 v10, v11, v12, v13, m2".toList with
      | .ok r => r.1.toNat
      | .error _ => 0) = 0x04C0140B06034A00 := by decide +kernel
/-- 65,520 to FP16 under RTZ and RNE, worked in chapter 6 (R72). -/
theorem test_overflow_modes : fp16.value false .rtz false 65520 1 0 = (0x7BFF, fOf ||| fNx) ∧
    fp16.value false .rne false 65520 1 0 = (0x7C00, fOf ||| fNx) := by decide +kernel

end Sys2Proof.Tests
end

section
/-! PROOFS. System registers, MODE, CLKDIV and YIELDCHK: what a write makes of each bit of its register (R2, R77, R142 to R145),
when it is in force (R78), and the divisors of the next bundle (R30, R146, R334). -/

namespace Sys2Proof.Machine

/-! ### One bit of a written register -/

/-- What MTSR, MSSR or MCSR with an operand bit `b` makes of a register's bit `o` (R142). -/
def putBit (how : Nat) (o b : Bool) : Bool := if how = 0 then b else if how = 1 then o || b else o && !b

theorem getLsbD_rmw {w i : Nat} (h : i < w) (how : Nat) (old x : BitVec w) :
    (rmw how old x).getLsbD i = putBit how (old.getLsbD i) (x.getLsbD i) := by
  unfold rmw putBit
  split
  · rfl
  · split <;> simp [h]

/-- The bits of a field whose operand stands at `a` in the word. -/
theorem getLsbD_rmw_field {w i : Nat} (h : i < w) (how a : Nat) (old : BitVec w) (x : Word) :
    (rmw how old (x.extractLsb' a w)).getLsbD i = putBit how (old.getLsbD i) (x.getLsbD (a + i)) := by
  rw [getLsbD_rmw h, BitVec.getLsbD_extractLsb', decide_eq_true h, Bool.true_and]

/-- A field of one bit, which the model holds as a Boolean. -/
theorem rmw_bit_beq_one (how i : Nat) (b : Bool) (x : Word) :
    (rmw how (BitVec.ofBool b) (x.extractLsb' i 1) == 1#1) = putBit how b (x.getLsbD i) := by
  have beq_one : ∀ c : BitVec 1, (c == 1#1) = c.getLsbD 0 := by decide
  rw [beq_one, getLsbD_rmw_field Nat.one_pos]
  simp

/-- A field in the low bits of its register: the write of the field is the write of the register, its other bits 0. -/
theorem setWidth_rmw {w : Nat} (how : Nat) (old : BitVec w) (x : Word) :
    (rmw how old (x.extractLsb' 0 w)).setWidth 64 =
      rmw how (old.setWidth 64) x &&& (BitVec.allOnes w).setWidth 64 := by
  refine BitVec.eq_of_getLsbD_eq fun i hi => ?_
  by_cases h : i < w
  · rw [BitVec.getLsbD_and, getLsbD_rmw hi, BitVec.getLsbD_setWidth, getLsbD_rmw_field h]
    simp [h, hi]
  · simp [BitVec.getLsbD_of_ge _ _ (Nat.le_of_not_lt h)]

/-- The write of a register, seen through a mask of one bit. -/
theorem rmw_and_twoPow {i : Nat} (h : i < 64) (how : Nat) (old x : Word) :
    rmw how old x &&& BitVec.twoPow 64 i =
      if putBit how (old.getLsbD i) (x.getLsbD i) then BitVec.twoPow 64 i else 0 := by
  rw [BitVec.and_twoPow, getLsbD_rmw h]; rfl

/-! ### The registers' words -/

theorem modeWord_getLsbD_er (y : Sys) : (modeWord y).getLsbD 1 = y.er := by
  cases y
  dsimp only [modeWord]
  decide +revert

theorem modeWord_with_er (y : Sys) (b : Bool) :
    modeWord { y with er := b } = (modeWord y &&& 5) ||| if b then 2 else 0 := by
  cases y
  dsimp only [modeWord]
  decide +revert

theorem eventWord_clear_sfail (y : Sys) (svc b : Bool) :
    eventWord { y with sfail := y.sfail && !b } svc = eventWord y svc &&& ~~~(if b then 0x10 else 0) := by
  cases y
  dsimp only [eventWord]
  decide +revert

theorem toNat_append_eq_add {m n : Nat} (a : BitVec m) (b : BitVec n) :
    (a ++ b).toNat = a.toNat * 2 ^ n + b.toNat := by
  rw [BitVec.toNat_append, ← Nat.shiftLeft_add_eq_or_of_lt b.isLt, Nat.shiftLeft_eq]

/-- The fields of sr.tvec in their places (R145). -/
theorem tvecWord_eq_append (y : Sys) :
    tvecWord y = 0#20 ++ y.trec ++ 0#10 ++ y.handler ++ 0#2 ++ BitVec.ofBool y.en := by
  refine BitVec.eq_of_toNat_eq ?_
  have hen := y.en.toNat_lt
  have hhandler := y.handler.isLt
  have htrec := y.trec.isLt
  simp only [tvecWord, toNat_append_eq_add, BitVec.toNat_ofNat, BitVec.toNat_ofBool]
  omega

/-- sr.tvec bit by bit: en, handler, trec, and 0 elsewhere. -/
theorem tvecWord_getLsbD (y : Sys) (i : Nat) :
    (tvecWord y).getLsbD i = if i = 0 then y.en else if 3 ≤ i ∧ i < 22 then y.handler.getLsbD (i - 3)
      else if 32 ≤ i ∧ i < 44 then y.trec.getLsbD (i - 32) else false := by
  rw [tvecWord_eq_append]
  simp only [BitVec.getLsbD_append, BitVec.getLsbD_ofBool, BitVec.getLsbD_zero]
  grind

theorem tvecMask_getLsbD : ∀ i < 64, (0x00000FFF003FFFF9 : Word).getLsbD i =
    decide (i = 0 ∨ 3 ≤ i ∧ i < 22 ∨ 32 ≤ i ∧ i < 44) := by
  decide

/-! ### What a write makes of a register (R2, R77, R142 to R145) -/

theorem Sys.write_mode (y : Sys) (how : Nat) (x : Word) :
    y.write { sys := 0, how := how, x := x } = { y with er := putBit how y.er (x.getLsbD 1) } := by
  rw [← rmw_bit_beq_one]; rfl

/-- sr.mode: er alone is written. -/
theorem modeWord_write (y : Sys) (how : Nat) (x : Word) :
    modeWord (y.write { sys := 0, how := how, x := x }) = (modeWord y &&& 5) ||| (rmw how (modeWord y) x &&& 2) := by
  have two : (2 : Word) = BitVec.twoPow 64 1 := rfl
  rw [Sys.write_mode, modeWord_with_er, two, rmw_and_twoPow (by decide), modeWord_getLsbD_er]

/-- The number that a write asks sr.drm to hold, as the field and as the register have it. -/
theorem toNat_rmw_drm (y : Sys) (how : Nat) (x : Word) :
    (rmw how (y.drm.setWidth 64) x &&& 7).toNat = (rmw how y.drm (x.extractLsb' 0 3)).toNat := by
  have mask : (7 : Word) = (BitVec.allOnes 3).setWidth 64 := rfl
  rw [mask, ← setWidth_rmw, BitVec.toNat_setWidth_of_le (by decide)]

theorem Sys.write_drm_of_lt {y : Sys} {how : Nat} {x : Word} (h : (rmw how (y.drm.setWidth 64) x &&& 7).toNat < 5) :
    y.write { sys := 5, how := how, x := x } = { y with drm := rmw how y.drm (x.extractLsb' 0 3) } :=
  if_pos ((toNat_rmw_drm y how x).symm.trans_lt h)

/-- sr.drm: 0 to 4 are written, as the field's bits. -/
theorem drmWord_write {y : Sys} {how : Nat} {x : Word} (h : (rmw how (y.drm.setWidth 64) x &&& 7).toNat < 5) :
    (y.write { sys := 5, how := how, x := x }).drm.setWidth 64 = rmw how (y.drm.setWidth 64) x &&& 7 ∧
    { y.write { sys := 5, how := how, x := x } with drm := y.drm } = y := by
  rw [Sys.write_drm_of_lt h]
  exact ⟨setWidth_rmw how y.drm x, rfl⟩

/-- sr.drm: 5 to 7 change nothing (R77). -/
theorem Sys.write_drm_of_ge {y : Sys} {how : Nat} {x : Word} (h : 5 ≤ (rmw how (y.drm.setWidth 64) x &&& 7).toNat) :
    y.write { sys := 5, how := how, x := x } = y :=
  if_neg (Nat.not_lt.mpr (h.trans_eq (toNat_rmw_drm y how x)))

/-- sr.event: sfail alone is written, and cleared where the operand holds 1, whichever instruction writes. -/
theorem eventWord_write (y : Sys) (how : Nat) (x : Word) (svc : Bool) :
    eventWord (y.write { sys := 6, how := how, x := x }) svc = eventWord y svc &&& ~~~(x &&& 0x10) := by
  have sixteen : (0x10 : Word) = BitVec.twoPow 64 4 := rfl
  rw [sixteen, BitVec.and_twoPow]
  exact eventWord_clear_sfail y svc (x.getLsbD 4)

theorem Sys.write_tvec (y : Sys) (how : Nat) (x : Word) :
    y.write { sys := 7, how := how, x := x } =
      { y with en := putBit how y.en (x.getLsbD 0)
               handler := rmw how y.handler (x.extractLsb' 3 19)
               trec := rmw how y.trec (x.extractLsb' 32 12) } := by
  rw [← rmw_bit_beq_one]; rfl

/-- sr.tvec: en, handler and trec are written, and its other bits stay 0. -/
theorem tvecWord_write (y : Sys) (how : Nat) (x : Word) :
    tvecWord (y.write { sys := 7, how := how, x := x }) = rmw how (tvecWord y) x &&& 0x00000FFF003FFFF9 := by
  refine BitVec.eq_of_getLsbD_eq fun i hi => ?_
  rw [BitVec.getLsbD_and, getLsbD_rmw hi, tvecMask_getLsbD i hi, tvecWord_getLsbD, tvecWord_getLsbD, Sys.write_tvec]
  by_cases hen : i = 0
  · simp [hen]
  by_cases hhandler : 3 ≤ i ∧ i < 22
  · have inside : i - 3 < 19 := by omega
    have place : 3 + (i - 3) = i := by omega
    simp only [if_neg hen, if_pos hhandler, getLsbD_rmw_field inside, place]
    simp [hhandler]
  by_cases htrec : 32 ≤ i ∧ i < 44
  · have inside : i - 32 < 12 := by omega
    have place : 32 + (i - 32) = i := by omega
    simp only [if_neg hen, if_neg hhandler, if_pos htrec, getLsbD_rmw_field inside, place]
    simp [htrec]
  · simp [hen, hhandler, htrec]

theorem Sys.write_readOnly (y : Sys) (how : Nat) (x : Word) {n : Nat} (h : 8 ≤ n) :
    y.write { sys := n, how := how, x := x } = y := by
  unfold Sys.write
  simp only [show n ≠ 0 by omega, show n ≠ 1 by omega, show n ≠ 2 by omega, show n ≠ 3 by omega, show n ≠ 4 by omega,
    show n ≠ 5 by omega, show n ≠ 6 by omega, show n ≠ 7 by omega, if_false]

/-! ### Divisors (R30, R146, R334) -/

theorem Tile.newDivisors_of_none {x : Tile} (h : x.seq.divPend = []) : x.newDivisors.sys = x.sys := by
  unfold Tile.newDivisors; rw [h]; rfl

theorem Tile.newDivisors_of_one {x : Tile} {e n : Nat} (h : x.seq.divPend = [(e, n)]) :
    x.newDivisors.sys =
      { x.sys with div := vset x.sys.div e (max n (vget 1 x.sys.divFloor e)), divReq := vset x.sys.divReq e n } := by
  unfold Tile.newDivisors; rw [h]; rfl

/-! ### What takes effect with a cycle (R78, R142) -/

/-- The system registers with the writes of the cycle before and, beside a write, the flags that landed with it. -/
def Tile.written (x : Tile) : Sys :=
  let y := x.seq.srPend.foldl Sys.write x.sys
  if x.seq.srPend.isEmpty then y else { y with fpsr := y.fpsr ||| x.seq.landedB, dfpsr := y.dfpsr ||| x.seq.landedD }

/-- Whether divisors take effect: at a bundle boundary, in a trap's wait, and in a suspension. -/
def Tile.takesDivisors (x : Tile) : Bool :=
  (!x.seq.inHand && x.seq.after.isEmpty) || x.seq.phase == .trapping || x.seq.phase == .suspending

theorem Tile.takeEffect_sys (x : Tile) : x.takeEffect.sys =
    if x.takesDivisors then ({ x with sys := x.written } : Tile).newDivisors.sys else x.written := by
  unfold Tile.takeEffect Tile.takesDivisors Tile.written
  simp only
  split <;> split <;> rfl

theorem Tile.takeEffect_keeps (x : Tile) :
    x.takeEffect.seq.srPend = [] ∧ x.takeEffect.regs = x.regs ∧ x.takeEffect.st = x.st := by
  unfold Tile.takeEffect
  simp only
  split <;> split <;> exact ⟨rfl, rfl, rfl⟩

theorem Tile.written_of_none {x : Tile} (h : x.seq.srPend = []) : x.written = x.sys := by
  unfold Tile.written; rw [h]; rfl

theorem Tile.written_of_one {x : Tile} {w : SrWrite} (h : x.seq.srPend = [w]) :
    x.written = { x.sys.write w with fpsr := (x.sys.write w).fpsr ||| x.seq.landedB
                                     dfpsr := (x.sys.write w).dfpsr ||| x.seq.landedD } := by
  unfold Tile.written; rw [h]; rfl

/-- Between the issues of a bundle, and where no divisor is asked for, the writes alone change the system registers. -/
theorem Tile.takeEffect_sys_of_write {x : Tile} (hd : x.seq.inHand = true ∨ x.seq.divPend = []) (hp : x.seq.phase = .running) :
    x.takeEffect.sys = x.written := by
  rw [Tile.takeEffect_sys]
  rcases hd with hd | hd
  · have stays : x.takesDivisors = false := by simp [Tile.takesDivisors, hd, hp]
    rw [stays]; rfl
  · have same : ({ x with sys := x.written } : Tile).newDivisors.sys = x.written := Tile.newDivisors_of_none hd
    rw [same, ite_self]

/-- At a bundle boundary without writes the divisors alone change the system registers. -/
theorem Tile.takeEffect_sys_of_boundary {x : Tile} (hi : x.seq.inHand = false) (ha : x.seq.after = []) (hw : x.seq.srPend = []) :
    x.takeEffect.sys = x.newDivisors.sys := by
  have takes : x.takesDivisors = true := by simp [Tile.takesDivisors, hi, ha]
  rw [Tile.takeEffect_sys, if_pos takes, Tile.written_of_none hw]

/-! ### The effects at issue, and the whole (R136, R140 to R142) -/

/-- An operation whose meaning is the one form of a slot operation completes with its effect. -/
theorem issuesAs_of_runSlot {i : Instr} {eff : Ctx → State → State} (h : ∀ s, exec i s = runSlot i s eff) :
    IssuesAs i eff := fun s goes => (h s).trans (runSlot_of_goes goes)

/-- Settles O8: at issue each operation is its own arm of the one form; a register's word is written bit by bit; and the
writes and divisors asked for take effect with the next cycle and the next bundle. -/
theorem systemRegisterResults : Obligations.SystemRegisterResults := by
  unfold Obligations.SystemRegisterResults
  refine ⟨?mfsr, ?mtsr, ?mssr, ?mcsr, ?mode, ?clkdiv, ?yieldchk, ?writes, ?takeEffect, ?divisors⟩
  case mfsr | mtsr | mssr | mcsr => exact fun _ => issuesAs_of_runSlot fun _ => rfl
  case mode | clkdiv | yieldchk => exact fun _ _ => issuesAs_of_runSlot fun _ => rfl
  case writes =>
    intro y how x _
    exact ⟨modeWord_write y how x, rfl, setWidth_rmw how y.fpsr x, rfl, setWidth_rmw how y.ftrapen x, rfl,
      setWidth_rmw how y.dfpsr x, rfl, setWidth_rmw how y.dtrapen x, rfl, drmWord_write, Sys.write_drm_of_ge,
      eventWord_write y how x, rfl, tvecWord_write y how x, rfl, fun _ => y.write_readOnly how x⟩
  case takeEffect =>
    intro x w hw hd hp
    exact ⟨(Tile.takeEffect_sys_of_write hd hp).trans (Tile.written_of_one hw), x.takeEffect_keeps⟩
  case divisors =>
    intro x e n he h
    have sys := Tile.newDivisors_of_one h
    refine ⟨?inForce, ?requested, rfl, ?others, ?rest, rfl, rfl, Tile.takeEffect_sys_of_boundary⟩
    case rest => rw [sys]
    case inForce => rw [sys]; exact vget_vset_self _ _ _ he
    case requested => rw [sys]; exact vget_vset_self _ _ _ he
    case others => rw [sys]; exact fun j hj => ⟨vget_vset_of_ne _ _ _ hj, vget_vset_of_ne _ _ _ hj⟩

end Sys2Proof.Machine
end

section
/-! PROOFS. Register files: what a write changes and what it leaves (R27, R110), and the state right after reset (R25, R349). -/

namespace Sys2Proof.Machine

/-! ### Writes of registers -/

@[simp] theorem State.readS_zero (s : State) (c : Ctx) : s.readS c 0 = 0 := rfl
@[simp] theorem State.readP_zero (s : State) (c : Ctx) : s.readP c 0 = true := rfl
@[simp] theorem State.flightS_zero (s : State) (c : Ctx) (lat : Nat) (x : Word) : s.flightS c lat 0 x = s := rfl
@[simp] theorem State.flightP_zero (s : State) (c : Ctx) (lat : Nat) (b : Bool) : s.flightP c lat 0 b = s := rfl

theorem Regs.apply_s {k : Nat} (h : 0 < k) (r : Regs) (x : Word) : r.apply (.s k x) = { r with s := vset r.s k x } :=
  if_neg h.ne'

theorem Regs.apply_p {k : Nat} (h : 0 < k) (r : Regs) (b : Bool) : r.apply (.p k b) = { r with p := vset r.p k b } :=
  if_neg h.ne'

/-- An element of a vector file after a write of one. -/
theorem vset_changes_one {α : Type} {n k : Nat} (h : k < n) (d x : α) (v : Vector α n) :
    vget d (vset v k x) k = x ∧ ∀ j, j ≠ k → vget d (vset v k x) j = vget d v j :=
  ⟨vget_vset_self d x v h, fun _ hj => vget_vset_of_ne d x v hj⟩

/-- The same of a file that is kept as a table. -/
theorem put_changes_one {α : Type} [DecidableEq α] (d x : α) (k : Nat) (m : Table α) :
    look d k (put d k x m) = x ∧ ∀ j, j ≠ k → look d j (put d k x m) = look d j m :=
  ⟨by simp [look_put], fun j hj => by simp [look_put, hj]⟩

/-- A generator with field `f` written: 0 space, 1 base, 2 step, 3 to 8 the strides, 9 the limit (R116). -/
def Gen.withField (a : Gen) (f : Nat) (x : Word) : Gen :=
  if f = 0 then { a with space := x.setWidth 4 }
  else if f = 1 then { a with base := x }
  else if f = 2 then { a with step := x }
  else if f < 9 then { a with stride := vset a.stride (f - 3) x }
  else { a with limit := x }

theorem Regs.apply_ag (r : Regs) (g f : Nat) (x : Word) :
    r.apply (.ag g f x) = { r with ag := vset r.ag g ((vget { } r.ag g).withField f x) } := rfl

/-- A write of a field leaves the generator's other fields as they are. -/
theorem Gen.withField_changes_one (o : Gen) (f : Nat) (x : Word) :
    let a := o.withField f x
    (f = 0 → a.space = x.setWidth 4 ∧ { a with space := o.space } = o) ∧
    (f = 1 → a.base = x ∧ { a with base := o.base } = o) ∧
    (f = 2 → a.step = x ∧ { a with step := o.step } = o) ∧
    (3 ≤ f → f < 9 → vget 0 a.stride (f - 3) = x ∧ (∀ k, k ≠ f - 3 → vget 0 a.stride k = vget 0 o.stride k) ∧
      { a with stride := o.stride } = o) ∧
    (f = 9 → a.limit = x ∧ { a with limit := o.limit } = o) := by
  refine ⟨?space, ?base, ?step, ?stride, ?limit⟩
  case space | base | step | limit => rintro rfl; exact ⟨rfl, rfl⟩
  case stride =>
    intro low high
    have same : o.withField f x = { o with stride := vset o.stride (f - 3) x } := by
      simp [Gen.withField, high, show f ≠ 0 by omega, show f ≠ 1 by omega, show f ≠ 2 by omega]
    obtain ⟨here, others⟩ := vset_changes_one (show f - 3 < 6 by omega) 0 x o.stride
    rw [same]
    exact ⟨here, others, rfl⟩

/-- Settles O60: s0 and p0 are discarded by the definitions of reads, results and writes, and every other write is a write of
one element of one file. -/
theorem registerWrites : Obligations.RegisterWrites := by
  unfold Obligations.RegisterWrites
  refine ⟨fun s c => ⟨s.readS_zero c, s.readP_zero c⟩, fun s c lat x b => ⟨s.flightS_zero c lat x, s.flightP_zero c lat b⟩,
    fun _ _ _ => ⟨rfl, rfl⟩, ?s, ?p, ?ag, ?v, ?m, ?acc, fun _ _ _ => rfl, fun _ _ => rfl, fun _ _ => rfl⟩
  case s =>
    intro r k x pos lt
    obtain ⟨here, others⟩ := vset_changes_one lt 0 x r.s
    rw [Regs.apply_s pos]
    exact ⟨here, others, rfl⟩
  case p =>
    intro r k b pos lt
    obtain ⟨here, others⟩ := vset_changes_one lt false b r.p
    rw [Regs.apply_p pos]
    exact ⟨here, others, rfl⟩
  case ag =>
    intro r g f x lt
    obtain ⟨here, others⟩ := vset_changes_one lt ({ } : Gen) ((vget { } r.ag g).withField f x) r.ag
    rw [Regs.apply_ag]
    simp only [here]
    exact ⟨others, trivial, Gen.withField_changes_one _ f x⟩
  case v =>
    intro r k keep x
    obtain ⟨here, others⟩ := put_changes_one (0 : VReg) ((look 0 k r.v &&& keep) ||| (x &&& ~~~keep)) k r.v
    exact ⟨here, others, rfl⟩
  case m =>
    intro r k x lt
    obtain ⟨here, others⟩ := vset_changes_one lt 0 x r.m
    exact ⟨here, others, rfl⟩
  case acc =>
    intro r k x
    obtain ⟨here, others⟩ := put_changes_one (0 : AccTile) x k r.acc
    exact ⟨here, others, rfl⟩

/-! ### Right after reset -/

theorem vget_replicate {α : Type} {n i : Nat} (h : i < n) (d a : α) : vget d (Vector.replicate n a) i = a := by
  simp [vget, List.getD, h]

/-- Settles O53: no tile is listed, so each is the tile of the defaults, and no memory lists a byte. -/
theorem resetState : Obligations.ResetState := by
  unfold Obligations.ResetState
  refine ⟨rfl, rfl, rfl, rfl, rfl, rfl, rfl, rfl, fun t => ?tile, ?canonical⟩
  case tile =>
    have fresh : State.reset.tile t = { } := rfl
    rw [fresh]
    exact ⟨rfl, rfl, rfl, rfl, rfl, fun r hr => vget_replicate hr 1 0, fun r hr => vget_replicate hr true false, fun _ => rfl,
      fun r hr => vget_replicate hr 1 0, fun e he => vget_replicate he 0 1⟩
  case canonical => exact ⟨rfl, rfl, rfl, fun _ => rfl⟩

end Sys2Proof.Machine
end

section
/-! PROOFS. The issue of a slot operation: the one form that every meaning has, what it can answer (R28, R32, R58), and what
its effect leaves where it is (R27, R156). -/

namespace Sys2Proof.Machine

/-! ### What an issue leaves as it was -/

/-- What an issue on a tile leaves as it was: the tile's registers, system registers and staging, every other tile, every
memory, the launches and the log. -/
structure IssueFrame (t : Nat) (s u : State) : Prop where
  regs : (u.tile t).regs = (s.tile t).regs
  sys : (u.tile t).sys = (s.tile t).sys
  st : (u.tile t).st = (s.tile t).st
  others : ∀ v, v ≠ t → u.tile v = s.tile v
  mem : u.mem = s.mem
  mem2 : u.mem2 = s.mem2
  hostMem : u.hostMem = s.hostMem
  launches : u.launches = s.launches
  log : u.log = s.log

namespace IssueFrame

theorem refl (t : Nat) (s : State) : IssueFrame t s s :=
  ⟨rfl, rfl, rfl, fun _ _ => rfl, rfl, rfl, rfl, rfl, rfl⟩

theorem sameStores {t : Nat} {s u : State} (h : IssueFrame t s u) : SameStores s u where
  regs v := by
    by_cases e : v = t
    · rw [e, h.regs]
    · rw [h.others v e]
  sys v := by
    by_cases e : v = t
    · rw [e, h.sys]
    · rw [h.others v e]
  staging v a := by
    by_cases e : v = t
    · rw [e, h.st]
    · rw [h.others v e]
  mem a := by rw [h.mem]
  mem2 a := by rw [h.mem2]
  hostMem a := by rw [h.hostMem]

section
variable {t : Nat} {s u : State} (h : IssueFrame t s u)
include h

theorem onTile {f : Tile → Tile}
    (hf : ∀ x, (f x).regs = x.regs ∧ (f x).sys = x.sys ∧ (f x).st = x.st := by exact fun _ => ⟨rfl, rfl, rfl⟩) :
    IssueFrame t s (u.onTile t f) where
  regs := by rw [State.tile_onTile_self, (hf _).1, h.regs]
  sys := by rw [State.tile_onTile_self, (hf _).2.1, h.sys]
  st := by rw [State.tile_onTile_self, (hf _).2.2, h.st]
  others v hv := by rw [State.tile_onTile, if_neg hv, h.others v hv]
  mem := h.mem
  mem2 := h.mem2
  hostMem := h.hostMem
  launches := h.launches
  log := h.log

theorem onSeq (f : Seq → Seq) : IssueFrame t s (u.onSeq t f) := h.onTile

theorem onVault (f : Vault → Vault) : IssueFrame t s (u.onVault t f) := h.onTile

/-- New identifiers are no part of the frame. -/
theorem withNextId (n : Nat) : IssueFrame t s { u with nextId := n } :=
  ⟨h.regs, h.sys, h.st, h.others, h.mem, h.mem2, h.hostMem, h.launches, h.log⟩

theorem fresh : IssueFrame t s u.fresh.2 := h.withNextId _

theorem nextFree : IssueFrame t s u.nextFree :=
  ⟨h.regs, h.sys, h.st, h.others, h.mem, h.mem2, h.hostMem, h.launches, h.log⟩

end

/-! ### The shared operations of an issue -/

section
variable {c : Ctx} {s u : State} (h : IssueFrame c.t s u)
include h

/-- An operation put in flight changes the tile when it lands (R27). -/
theorem launched (f : Flight) : IssueFrame c.t s (u.fresh.2.onTile c.t (·.launchFlight f)) :=
  h.fresh.onTile

theorem flight (n : Nat) (ws : List Write) : IssueFrame c.t s (u.flight c n ws) := h.launched _

theorem flightTo (ds : List Loc) (m n : Nat) : IssueFrame c.t s (u.flightTo c ds m n) := h.launched _

theorem flightArith (n : Nat) (ws : List Write) (fl : List Flags) (dec : Bool) : IssueFrame c.t s (u.flightArith c n ws fl dec) :=
  h.launched _

theorem flightM (n : Nat) (ws : List Write) (fl : Flags) : IssueFrame c.t s (u.flightM c n ws fl) := by
  unfold State.flightM
  exact h.fresh.onTile

theorem flightV (i : Instr) (ws : List Write) : IssueFrame c.t s (u.flightV c i ws) := h.flight _ _

theorem flightS (n : Nat) (d : BitVec 5) (x : Word) : IssueFrame c.t s (u.flightS c n d x) := by
  unfold State.flightS
  split
  · exact h
  · exact h.flight _ _

theorem flightP (n : Nat) (d : BitVec 3) (b : Bool) : IssueFrame c.t s (u.flightP c n d b) := by
  unfold State.flightP
  split
  · exact h
  · exact h.flight _ _

theorem singleShot : IssueFrame c.t s (u.singleShot c) := h.onSeq _
theorem takeDivider : IssueFrame c.t s (u.takeDivider c) := h.onSeq _
theorem takeVector (i : Instr) : IssueFrame c.t s (u.takeVector c i) := by
  unfold State.takeVector
  exact h.onSeq _
theorem takeMatrix (g n : Nat) : IssueFrame c.t s (u.takeMatrix c g n) := h.onTile
theorem takeCopy (n : Nat) : IssueFrame c.t s (u.takeCopy c n) := h.onTile
theorem schedule (rs : List StRead) (ws : List StWrite) : IssueFrame c.t s (u.schedule c rs ws) := h.onSeq _
theorem stageLater (slot cycle : Nat) (ws : List (Nat × List Byte)) : IssueFrame c.t s (u.stageLater c slot cycle ws) := h.onSeq _

theorem listEntry (id : Nat) (glob : Bool) (a n lat : Nat) (arr : Option Arrival) :
    IssueFrame c.t s (u.listEntry c id glob a n lat arr) := by
  refine h.onTile fun x => ?_
  split <;> exact ⟨rfl, rfl, rfl⟩

end

/-! ### Scalar operations -/

section
variable (s : State) (c : Ctx)

theorem aluR (f : SR) (n : Nat) (op : Word → Word → Word) : IssueFrame c.t s (s.aluR c f n op) := (refl c.t s).flightS _ _ _
theorem aluI (f : SI) (n : Nat) (op : Word → Word → Word) : IssueFrame c.t s (s.aluI c f n op) := (refl c.t s).flightS _ _ _
theorem cmpR (f : SP) (p : Word → Word → Bool) : IssueFrame c.t s (s.cmpR c f p) := (refl c.t s).flightP _ _ _
theorem cmpI (f : SPI) (p : Word → Word → Bool) : IssueFrame c.t s (s.cmpI c f p) := (refl c.t s).flightP _ _ _
theorem sysWrite (f : SS) (how : Nat) : IssueFrame c.t s (s.sysWrite c f how) := ((refl c.t s).onSeq _).singleShot
theorem prepare (k : BitVec 3) (a : Word) : IssueFrame c.t s (s.prepare c k a) := ((refl c.t s).onSeq _).singleShot

theorem load (f : SM) : IssueFrame c.t s (s.load c f) := by
  unfold State.load
  extract_lets x dests
  split
  · split
    · exact ((refl c.t s).flightTo _ _ _).onTile
    · exact ((refl c.t s).flightTo _ _ _).onSeq _

theorem store (f : SM) : IssueFrame c.t s (s.store c f) := by
  unfold State.store
  split
  · extract_lets v
    split
    · exact (refl c.t s).onTile
    · exact (refl c.t s).onSeq _

theorem atomic (f : SM) (op : AOp) (ret : Bool) : IssueFrame c.t s (s.atomic c f op ret) := by
  unfold State.atomic
  refine onTile ?_
  split
  · exact ((refl c.t s).flightTo _ _ _).onSeq _
  · exact (refl c.t s).fresh

/-! ### Vector operations -/

theorem mapArith (i : Instr) (f : VR) (dec : Bool) (op : Nat → Nat → Nat → Nat × Flags) :
    IssueFrame c.t s (s.mapArith c i f dec op) := (refl c.t s).flightArith _ _ _ _

theorem fp1 (i : Instr) (f : VR) (op : Fmt → Bool → Rm → Fp → Nat × Flags) : IssueFrame c.t s (s.fp1 c i f op) := by
  unfold State.fp1
  exact mapArith s c i f _ _

theorem fp2 (i : Instr) (f : VR) (op : Fmt → Bool → Rm → Fp → Fp → Nat × Flags) : IssueFrame c.t s (s.fp2 c i f op) := by
  unfold State.fp2
  exact mapArith s c i f _ _

theorem mapBits (i : Instr) (f : VR) (op : Nat → Nat → Nat → Nat) : IssueFrame c.t s (s.mapBits c i f op) :=
  (refl c.t s).flightV _ _

theorem compare (i : Instr) (f : VK) (arith dec : Bool) (op : Nat → Nat → Nat → Bool × Flags) :
    IssueFrame c.t s (s.compare c i f arith dec op) := by
  unfold State.compare
  extract_lets
  split
  · exact (refl c.t s).flightArith _ _ _ _
  · exact (refl c.t s).flightV _ _

theorem fpCompare (i : Instr) (f : VK) (t : Test) : IssueFrame c.t s (s.fpCompare c i f t) := by
  unfold State.fpCompare
  split <;> exact compare s c _ _ _ _ _

theorem convertReg (i : Instr) (d a src dst : Nat) (rm : Rm) (sat : Bool) (act : MReg) :
    IssueFrame c.t s (s.convertReg c i d a src dst rm sat act) := by
  unfold State.convertReg
  extract_lets
  split
  · exact (refl c.t s).flightArith _ _ _ _
  · exact (refl c.t s).flightV _ _

theorem vectorLoad (i : Instr) (f : VM) : IssueFrame c.t s (s.vectorLoad c i f) := by
  unfold State.vectorLoad
  exact (refl c.t s).fresh.onTile

theorem gather (i : Instr) (f : VM) : IssueFrame c.t s (s.gather c i f) := by
  unfold State.gather
  exact (refl c.t s).fresh.onTile

theorem vectorAtomic (f : VM) (op : AOp) (ret : Bool) : IssueFrame c.t s (s.vectorAtomic c f op ret) := by
  unfold State.vectorAtomic
  cases ret <;> exact (refl c.t s).fresh.onTile

theorem defer (f : VD) : IssueFrame c.t s (s.defer c f) := by
  unfold State.defer
  extract_lets
  split
  · exact refl c.t s
  · split
    · exact refl c.t s
    · exact ((refl c.t s).onTile).stageLater _ _ _

theorem drain (i : Instr) (f : VD) (k : Nat) (mask : List Write) : IssueFrame c.t s (s.drain c i f k mask) := by
  unfold State.drain
  exact ((refl c.t s).onTile).flightV _ _

/-! ### Copies and columns -/

theorem copyIsland (f : CW) : IssueFrame c.t s (s.copyIsland c f) := by
  unfold State.copyIsland
  extract_lets
  have scheduled := fun rs => (refl c.t s).fresh.schedule rs []
  dsimp only
  split
  · exact ((scheduled _).listEntry _ _ _ _ _ _).takeCopy _
  · exact (scheduled _).takeCopy _

theorem copyGlobal (f : CW) (kind : GKind) (unit n : Nat) : IssueFrame c.t s (s.copyGlobal c f kind unit n) := by
  unfold State.copyGlobal
  extract_lets
  have scheduled := fun g rs => ((refl c.t s).fresh.onTile
    (f := fun x => { x with eng := { x.eng with copies := x.eng.copies ++ [g] } })).schedule rs []
  dsimp only
  split
  · exact (scheduled _ _).takeCopy _
  · exact ((scheduled _ _).listEntry _ _ _ _ _ _).takeCopy _

theorem copyGather (f : CW) : IssueFrame c.t s (s.copyGather c f) :=
  (((refl c.t s).fresh.schedule _ _).listEntry _ _ _ _ _ _).takeCopy _

theorem readColumn (f : DC) : IssueFrame c.t s (s.readColumn c f) := by
  unfold State.readColumn
  exact (refl c.t s).fresh.onTile

theorem writeColumn (f : DC) : IssueFrame c.t s (s.writeColumn c f) := by
  unfold State.writeColumn
  exact (refl c.t s).onTile

end

end IssueFrame

/-! ### The one form -/

/-- An operation has the one form of a slot operation, with an effect that keeps the frame of its issue. -/
def IssuesQuietly (i : Instr) : Prop :=
  ∃ eff, (∀ s, exec i s = runSlot i s eff) ∧ ∀ c s, IssueFrame c.t s (eff c s)

theorem IssuesQuietly.slot {i : Instr} {eff : Ctx → State → State} (frame : ∀ c s, IssueFrame c.t s (eff c s))
    (form : ∀ s, exec i s = runSlot i s eff := by intro s; unfold exec; exact rfl) : IssuesQuietly i := ⟨eff, form, frame⟩

/-- The same for a V or X operation, which takes its unit besides. -/
theorem IssuesQuietly.vector {i : Instr} {eff : Ctx → State → State} (frame : ∀ c s, IssueFrame c.t s (eff c s))
    (form : ∀ s, exec i s = runVector i s eff := by intro s; unfold exec; exact rfl) : IssuesQuietly i :=
  ⟨_, form, fun c s => (frame c s).takeVector i⟩

/-- An operation whose checks hold it changes nothing. -/
theorem runSlot_of_stall {i : Instr} {s : State} {eff : Ctx → State → State} (h : s.focus.checked = false)
    (found : verdict s (s.ctx i) i = .stall) : runSlot i s eff = .next s := by
  simp [runSlot, h, found]

/-- An operation whose checks find a trap takes it. -/
theorem runSlot_of_trap {i : Instr} {s : State} {eff : Ctx → State → State} {r : TrapReq} (h : s.focus.checked = false)
    (found : verdict s (s.ctx i) i = .trap r) : runSlot i s eff = .next (s.refuse s.focus.tile r) := by
  have tile : s.focus.tile = (s.ctx i).t := rfl
  simp [runSlot, h, found, tile]

/-- Each slot operation but TRAP, by the shared operation that its effect is made of. -/
theorem issuesQuietly_of_slot {i : Instr} (h : (slotFor i).isSome = true) (hi : ∀ k, i ≠ .trap k) : IssuesQuietly i := by
  cases i
  case add | sub | mul | mulhs | mulhu | and | or | xor | andn | shl | shr | sar | rol | min | max | minu | maxu | clz
      | ctz | popc | bswap =>
    refine .slot fun c s => ?_
    exact IssueFrame.aluR s c _ _ _
  case div | divu | rem | remu =>
    refine .slot fun c s => ?_
    exact (IssueFrame.aluR s c _ _ _).takeDivider
  case addi | subi | muli | mulhsi | mulhui | andi | ori | xori | andni | shli | shri | sari | roli | mini | maxi |
      minui | maxui =>
    refine .slot fun c s => ?_
    exact IssueFrame.aluI s c _ _ _
  case divi | divui | remi | remui =>
    refine .slot fun c s => ?_
    exact (IssueFrame.aluI s c _ _ _).takeDivider
  case lih | agget | mfsr =>
    refine .slot fun c s => ?_
    exact (IssueFrame.refl c.t s).flightS _ _ _
  case cmpeq | cmpne | cmplt | cmple | cmpltu | cmpleu =>
    refine .slot fun c s => ?_
    exact IssueFrame.cmpR s c _ _
  case cmpeqi | cmpnei | cmplti | cmplei | cmpltui | cmpleui =>
    refine .slot fun c s => ?_
    exact IssueFrame.cmpI s c _ _
  case pand | por | pxor | pnot =>
    refine .slot fun c s => ?_
    exact (IssueFrame.refl c.t s).flightP _ _ _
  case agset =>
    refine .slot fun c s => ?_
    exact (IssueFrame.refl c.t s).flight _ _
  case yieldchk =>
    refine .slot fun c s => ?_
    exact ((IssueFrame.refl c.t s).flightP _ _ _).singleShot
  case loop | mode | clkdiv | endTask | tret | fence | waits | waita =>
    refine .slot fun c s => ?_
    exact ((IssueFrame.refl c.t s).onSeq _).singleShot
  case prep | prepr =>
    refine .slot fun c s => ?_
    exact IssueFrame.prepare s c _ _
  case mtsr | mssr | mcsr =>
    refine .slot fun c s => ?_
    exact IssueFrame.sysWrite s c _ _
  case ld =>
    refine .slot fun c s => ?_
    exact IssueFrame.load s c _
  case st =>
    refine .slot fun c s => ?_
    exact IssueFrame.store s c _
  case stadd | stand | stor | stxor | stmin | stmax | stminu | stmaxu | stfadd | stfmin | stfmax | ldadd | ldand |
      ldor | ldxor | ldmin | ldmax | ldminu | ldmaxu | ldfadd | ldfmin | ldfmax | swp | cas =>
    refine .slot fun c s => ?_
    exact IssueFrame.atomic s c _ _ _
  case albegin =>
    refine .slot fun c s => ?_
    exact (IssueFrame.refl c.t s).onTile.singleShot
  case alend =>
    refine .slot fun c s => ?_
    exact ((IssueFrame.refl c.t s).fresh.onTile.onSeq _).singleShot
  case sNop =>
    refine .slot fun c s => ?_
    exact (IssueFrame.refl c.t s).singleShot
  case vNop | xNop | mNop | cNop | dNop =>
    refine .slot fun c s => ?_
    exact (IssueFrame.refl c.t s).onSeq _
  case vadd | vsub | vmul | vdiv =>
    refine .vector fun c s => ?_
    exact IssueFrame.fp2 s c _ _ _
  case vfma | vfms | vfnma | vmin | vmax | dadd | dsub | dmul | ddiv | dqua =>
    refine .vector fun c s => ?_
    exact IssueFrame.mapArith s c _ _ _ _
  case vsqrt | vrcp | vrsq | vexp2 | vlog2 =>
    refine .vector fun c s => ?_
    exact IssueFrame.fp1 s c _ _ _
  case vabs | vneg | viadd | visub | vimul | vimin | vimax | viminu | vimaxu | vand | vor | vxor | vshl | vshr | vsar
      | viadds | visubs =>
    refine .vector fun c s => ?_
    exact IssueFrame.mapBits s c _ _ _
  case vadd128 | vperm | vsel | vbcst | vexpand | vmovs | vrng | mand | mor | mxor | mnot | mset | vcompact | virsum |
      xpose =>
    refine .vector fun c s => ?_
    exact (IssueFrame.refl c.t s).flightV _ _
  case vcmpeq | vcmpne | vcmplt | vcmple | vcmpun =>
    refine .vector fun c s => ?_
    exact IssueFrame.fpCompare s c _ _ _
  case vicmplt | vicmpltu | dcmpeq | dcmplt | dcmple =>
    refine .vector fun c s => ?_
    exact IssueFrame.compare s c _ _ _ _ _
  case vrsum | vrmax | vrmin | vscan | vqnt | dcvtb | dcvtd | xunp4 | xmx =>
    refine .vector fun c s => ?_
    exact (IssueFrame.refl c.t s).flightArith _ _ _ _
  case mpop =>
    refine .vector fun c s => ?_
    split
    · exact .refl c.t s
    · exact (IssueFrame.refl c.t s).flightV _ _
  case xcvt =>
    refine .vector fun c s => ?_
    extract_lets
    split
    · exact (IssueFrame.refl c.t s).flightArith _ _ _ _
    · exact (IssueFrame.refl c.t s).flightV _ _
  case vcvt =>
    refine .vector fun c s => ?_
    exact IssueFrame.convertReg s c _ _ _ _ _ _ _ _
  case vld =>
    refine .vector fun c s => ?_
    exact IssueFrame.vectorLoad s c _ _
  case vst | vscat =>
    refine .vector fun c s => ?_
    exact (IssueFrame.refl c.t s).stageLater _ _ _
  case vgath =>
    refine .vector fun c s => ?_
    exact IssueFrame.gather s c _ _
  case vstadd | vstmin | vstmax | vstfadd | vstfmin | vstfmax | vldadd | vldmin | vldmax =>
    refine .vector fun c s => ?_
    exact IssueFrame.vectorAtomic s c _ _ _
  case defer =>
    refine .vector fun c s => ?_
    exact IssueFrame.defer s c _
  case drain | drainp =>
    refine .vector fun c s => ?_
    exact IssueFrame.drain s c _ _ _ _
  case xdrf =>
    refine .vector fun c s => ?_
    exact (IssueFrame.refl c.t s).fresh.onTile
  case cloc =>
    refine .slot fun c s => ?_
    exact (((IssueFrame.refl c.t s).fresh.schedule _ _).listEntry _ _ _ _ _ _).takeCopy _
  case cfill =>
    refine .slot fun c s => ?_
    exact (((IssueFrame.refl c.t s).fresh.schedule _ _).listEntry _ _ _ _ _ _).takeCopy _
  case cxpos =>
    refine .slot fun c s => ?_
    exact ((((IssueFrame.refl c.t s).withNextId _).schedule _ _).listEntry _ _ _ _ _ _).takeCopy _
  case cisl =>
    refine .slot fun c s => ?_
    exact IssueFrame.copyIsland s c _
  case cgrd | cgwr | cdec | cfeed =>
    refine .slot fun c s => ?_
    exact IssueFrame.copyGlobal s c _ _ _ _
  case cgath =>
    refine .slot fun c s => ?_
    split
    · exact IssueFrame.copyGlobal s c _ _ _ _
    · exact IssueFrame.copyGather s c _
  case mgath =>
    refine .slot fun c s => ?_
    exact (IssueFrame.refl c.t s).fresh.onTile.takeMatrix _ _
  case mldw =>
    refine .slot fun c s => ?_
    exact (IssueFrame.refl c.t s).fresh.fresh.onTile.takeMatrix _ _
  case mma | mrd | mwr | mzero =>
    refine .slot fun c s => ?_
    exact ((IssueFrame.refl c.t s).flightM _ _ _).takeMatrix _ _
  case mstat =>
    refine .slot fun c s => ?_
    split
    · exact .refl c.t s
    · exact (IssueFrame.refl c.t s).flightM _ _ _
  case mmad =>
    refine .slot fun c s => ?_
    exact (IssueFrame.refl c.t s).fresh.onTile
  case act | pre | refpb | prea =>
    refine .slot fun c s => ?_
    exact (IssueFrame.refl c.t s).onVault _
  case rd =>
    refine .slot fun c s => ?_
    exact IssueFrame.readColumn s c _
  case wr =>
    refine .slot fun c s => ?_
    exact IssueFrame.writeColumn s c _
  case trap k => exact absurd rfl (hi k)
  all_goals cases h

theorem issuesQuietly_next {i : Instr} {s u : State} (hi : IssuesQuietly i) (go : Goes i s) (h : exec i s = .next u) :
    IssueFrame s.focus.tile s u := by
  obtain ⟨eff, form, frame⟩ := hi
  rw [form, runSlot_of_goes go] at h
  cases h
  exact (frame (s.ctx i) s).nextFree

/-- Settles O54: every effect is made of operations that put results in flight, schedule staging traffic, or change a
sequencer, a vault's timing or an engine's list. -/
theorem slotFrame : Obligations.SlotFrame := by
  intro i s u slot notTrap go step
  have frame := issuesQuietly_next (issuesQuietly_of_slot slot notTrap) go step
  exact ⟨frame.sameStores, frame.others, frame.launches, frame.log⟩

/-- The form of every slot operation, TRAP with the others (R28, R58). -/
theorem exec_form_of_slot {i : Instr} (h : (slotFor i).isSome = true) : ∃ eff, ∀ s, exec i s = runSlot i s eff := by
  by_cases trap : ∃ k, i = .trap k
  · obtain ⟨k, rfl⟩ := trap
    exact ⟨_, fun s => by unfold exec; exact rfl⟩
  · obtain ⟨eff, form, -⟩ := issuesQuietly_of_slot h fun k e => trap ⟨k, e⟩
    exact ⟨eff, form⟩

/-- Settles O55: the form of every slot operation answers with its effect, with the same state, or with the trap. -/
theorem slotOperationsAnswer : Obligations.SlotOperationsAnswer := by
  intro i s slot
  obtain ⟨eff, form⟩ := exec_form_of_slot slot
  refine ⟨?next, ?stall, ?trap⟩
  case next => simpa only [form] using runSlot_next i s eff
  case stall =>
    intro unchecked found
    rw [form, runSlot_of_stall unchecked found]
  case trap =>
    intro r unchecked found
    rw [form, runSlot_of_trap unchecked found]
end Sys2Proof.Machine
end

section
/-! PROOFS. What the S slot's checks find (R28, R58, R109 to R154). -/

namespace Sys2Proof.Machine

/-! ### The checks of the S slot -/

theorem ctx_slot_of_scalar {i : Instr} (s : State) (h : slotFor i = some .s) : (s.ctx i).slot = 0 := by
  simp [State.ctx, h, Slot.num]

/-- In open mode no operation waits for its sources (R28). -/
theorem sourceWaits_open {s : State} {c : Ctx} (i : Instr) (h : (s.tile c.t).sys.gm = false) : sourceWaits s c i = false := by
  simp [sourceWaits, h]

theorem sourceWaits_of_landed {s : State} {c : Ctx} {i : Instr} (h : ∀ l ∈ sources i, (s.tile c.t).pending c.now l = false) :
    sourceWaits s c i = false := by
  simpa [sourceWaits] using fun _ => h

theorem opStalls_scalar {s : State} {c : Ctx} {i : Instr} (n : Nat) (h : slotFor i = some .s) :
    opStalls s c i n = (sourceWaits s c i || scalarStall s c i) := by
  simp [opStalls, h]

section
variable {s : State} {i : Instr} (slot : slotFor i = some .s) (free : opStalls s (s.ctx i) i 0 = false)
include slot free

theorem sourceWaits_of_free : sourceWaits s (s.ctx i) i = false := by
  rw [opStalls_scalar 0 slot, Bool.or_eq_false_iff] at free
  exact free.1

/-- An S operation that nothing holds and whose checks find no fault goes. -/
theorem goes_scalar (sound : scalarFault s (s.ctx i) i = none) : Goes i s :=
  .inr (by simp [verdict, sourceWaits_of_free slot free, decodeTrap, slot, free, issueTrap, sound])

/-- An S operation that nothing holds traps with the fault that its checks find. -/
theorem exec_scalar_fault {e : Nat} (unchecked : s.focus.checked = false) (fault : scalarFault s (s.ctx i) i = some e) :
    exec i s = .next (s.refuse s.focus.tile (trapOf 0 e)) := by
  obtain ⟨eff, form⟩ := exec_form_of_slot (i := i) (by rw [slot]; rfl)
  have found : verdict s (s.ctx i) i = .trap (trapOf 0 e) := by
    simp [verdict, sourceWaits_of_free slot free, decodeTrap, slot, free, issueTrap, fault, ctx_slot_of_scalar s slot]
  rw [form, runSlot_of_trap unchecked found]

end

/-- In open mode an S operation with no condition of its own is not held. -/
theorem free_scalar_open {s : State} {i : Instr} (slot : slotFor i = some .s) (gm : (s.tile s.focus.tile).sys.gm = false)
    (calm : scalarStall s (s.ctx i) i = false) : opStalls s (s.ctx i) i 0 = false := by
  rw [opStalls_scalar 0 slot, sourceWaits_open i gm, calm, Bool.false_or]

/-! ### The operations a line region admits -/

/-- ALU, multiplier, predicate and other operations that a region admits wait for their sources alone and fault on nothing. -/
theorem scalarStall_inRegion {s : State} {c : Ctx} {i : Instr} (h : inRegion i = true) (acc : ∀ f, i ≠ .ld f ∧ i ≠ .st f) :
    scalarStall s c i = false := by
  unfold scalarStall
  extract_lets
  split
  case h_23 f => exact absurd rfl (acc f).1
  case h_24 => rfl
  all_goals cases h

theorem scalarFault_inRegion {s : State} {c : Ctx} {i : Instr} (h : inRegion i = true) (acc : ∀ f, i ≠ .ld f ∧ i ≠ .st f)
    (notEnd : i ≠ .alend) : scalarFault s c i = none := by
  unfold scalarFault
  extract_lets x busyDiv busyAtomic ret
  split
  · cases h
  · cases h
  · rw [h, Bool.not_true, Bool.and_false, if_neg Bool.false_ne_true]
    split
    case h_12 => exact absurd rfl (acc _).1
    case h_13 => exact absurd rfl (acc _).2
    case h_39 => exact absurd rfl notEnd
    case h_42 => rfl
    all_goals cases h

/-! ### Addresses of LD and ST -/

section
variable {s : State} {c : Ctx} {g : BitVec 4} {size : Nat}

theorem genFault_of_form {spaces : Nat → Bool} (h : spaces (s.gen c g).1.space.toNat = false ∨ (s.gen c g).2.toNat % size ≠ 0) :
    s.genFault c g spaces size = some 0x05 := by
  unfold State.genFault
  refine if_pos ?_
  simp only [Bool.or_eq_true, Bool.not_eq_true', decide_eq_true_eq]
  exact h

theorem genFault_of_range {spaces : Nat → Bool} (space : spaces (s.gen c g).1.space.toNat = true)
    (aligned : (s.gen c g).2.toNat % size = 0) :
    s.genFault c g spaces size = if (s.gen c g).1.inRange (s.gen c g).2 then none else some 0x08 := by
  simp only [State.genFault, space, aligned]
  cases (s.gen c g).1.inRange (s.gen c g).2 <;> rfl

theorem stagingFault_of_form (h : 2 ≤ (s.gen c g).1.space.toNat ∨ (s.gen c g).2.toNat % size ≠ 0) :
    s.stagingFault c g size = some 0x05 := by
  unfold State.stagingFault
  rw [genFault_of_form (h.imp_left fun h => decide_eq_false (Nat.not_lt.2 h))]

theorem stagingFault_of_range (space : (s.gen c g).1.space.toNat < 2) (aligned : (s.gen c g).2.toNat % size = 0)
    (out : (s.gen c g).1.inRange (s.gen c g).2 = false) : s.stagingFault c g size = some 0x08 := by
  unfold State.stagingFault
  rw [genFault_of_range (by simpa using space) aligned, out]
  rfl

/-- A space-0 access within its generator's range has no fault of its address. -/
theorem stagingFault_of_own (space : (s.gen c g).1.space = 0) (aligned : (s.gen c g).2.toNat % size = 0)
    (within : (s.gen c g).1.inRange (s.gen c g).2 = true) : s.stagingFault c g size = none := by
  unfold State.stagingFault
  rw [genFault_of_range (by simp [space]) aligned, within]
  simp [space]

end

section
variable {s : State} {c : Ctx} (region : (s.tile c.t).eng.region = none)
include region

/-- Outside a line region ST has the fault of its address alone. -/
theorem scalarFault_st (f : SM) : scalarFault s c (.st f) = s.stagingFault c f.g (Machine.sizeOf f.size) := by
  simp only [scalarFault, region, Option.isSome_none, Bool.false_and, if_neg Bool.false_ne_true, State.accessFault]
  cases s.stagingFault c f.g (Machine.sizeOf f.size) <;> rfl

/-- LD has the fault of its address, and in space 0 that of what it reads. -/
theorem scalarFault_ld (f : SM) : scalarFault s c (.ld f) =
    (s.stagingFault c f.g (Machine.sizeOf f.size)).orElse fun _ =>
      if (s.gen c f.g).1.space = 0 then
        s.readFault c.t (readsAt (c.now + 1) [((s.gen c f.g).2.toNat, Machine.sizeOf f.size)])
      else none := by
  simp only [scalarFault, region, Option.isSome_none, Bool.false_and, if_neg Bool.false_ne_true, State.accessFault]
  cases s.stagingFault c f.g (Machine.sizeOf f.size) with
  | some e => rfl
  | none => simp

theorem scalarFault_loop (f : SL) : scalarFault s c (.loop f) = if s.loopFault c f then some 0x09 else none := by
  simp only [scalarFault, region, Option.isSome_none, Bool.false_and, if_neg Bool.false_ne_true]

theorem scalarFault_tret (outside : (s.tile c.t).sys.hnd = false) : scalarFault s c .tret = some 0x0B := by
  simp [scalarFault, region, outside]

/-- Outside a line region a divide has the fault of its unit alone: in open mode a busy divider (R28, R109). -/
theorem scalarFault_divide {f : SR} {i : Instr} (divide : i ∈ [Instr.div f, .divu f, .rem f, .remu f]) :
    scalarFault s c i = if !(s.tile c.t).sys.gm && decide (c.now < (s.tile c.t).seq.divFree) then some 0x06 else none := by
  simp only [List.mem_cons, List.not_mem_nil, or_false] at divide
  obtain rfl | rfl | rfl | rfl := divide <;>
    simp only [scalarFault, region, Option.isSome_none, Bool.false_and, if_neg Bool.false_ne_true]

end

theorem loopFault_iff {s : State} {c : Ctx} {f : SL} : s.loopFault c f = true ↔
    s.loopCount c f = 0 ∨ 2 ^ 32 ≤ s.loopCount c f ∨
      ∃ j < 6, f.k.toNat ≤ j ∧ (vget { } (s.tile c.t).seq.loops j).active = true := by
  simp [State.loopFault, or_assoc]

/-! ### The obligation -/

theorem scalar_of_divide {f : SR} {i : Instr} (divide : i ∈ [Instr.div f, .divu f, .rem f, .remu f]) : slotFor i = some .s := by
  simp only [List.mem_cons, List.not_mem_nil, or_false] at divide
  obtain rfl | rfl | rfl | rfl := divide <;> rfl

theorem divide_calm {s : State} {c : Ctx} {f : SR} {i : Instr} (divide : i ∈ [Instr.div f, .divu f, .rem f, .remu f])
    (gm : (s.tile c.t).sys.gm = false) : scalarStall s c i = false := by
  simp only [List.mem_cons, List.not_mem_nil, or_false] at divide
  obtain rfl | rfl | rfl | rfl := divide <;> simp [scalarStall, gm]

/-- Settles O56: each operation's own condition, after the sources that nothing holds. -/
theorem scalarIssueConditions : Obligations.ScalarIssueConditions := by
  refine ⟨?plain, ?divide, ?store, ?load, ?loop, ?mode, ?tret⟩
  case plain =>
    intro i s slot admitted acc notEnd landed
    have ready : sourceWaits s (s.ctx i) i = false := landed.elim (fun gm => sourceWaits_open i gm) fun l => sourceWaits_of_landed l
    have free : opStalls s (s.ctx i) i 0 = false := by
      rw [opStalls_scalar 0 slot, ready, scalarStall_inRegion admitted acc, Bool.false_or]
    exact goes_scalar slot free (scalarFault_inRegion admitted acc notEnd)
  case divide =>
    intro f s i divide gm region
    have slot := scalar_of_divide divide
    have free := free_scalar_open slot gm (divide_calm divide gm)
    have fault := scalarFault_divide (c := s.ctx i) region divide
    refine ⟨fun idle => goes_scalar slot free ?_, fun busy unchecked => exec_scalar_fault slot free unchecked ?_⟩
    · exact fault.trans (if_neg fun h => Nat.not_lt.2 idle (of_decide_eq_true (Bool.and_eq_true_iff.1 h).2))
    · exact fault.trans (if_pos (Bool.and_eq_true_iff.2 ⟨congrArg _ gm, decide_eq_true busy⟩))
  case store =>
    intro f s unchecked gm region c a x
    have free := free_scalar_open (i := .st f) rfl gm rfl
    have fault := scalarFault_st (c := c) region f
    refine ⟨fun form => ?_, fun space aligned out => ?_, fun space aligned within => ?_⟩
    · exact exec_scalar_fault rfl free unchecked (fault.trans (stagingFault_of_form form))
    · exact exec_scalar_fault rfl free unchecked (fault.trans (stagingFault_of_range space aligned out))
    · exact goes_scalar rfl free (fault.trans (stagingFault_of_own space aligned within))
  case load =>
    intro f s unchecked region free c a x
    have fault := scalarFault_ld (c := c) region f
    refine ⟨fun form => ?_, fun space aligned out => ?_, fun space aligned within read => ?_⟩
    · refine exec_scalar_fault rfl free unchecked (fault.trans ?_)
      rw [stagingFault_of_form form]
      rfl
    · refine exec_scalar_fault rfl free unchecked (fault.trans ?_)
      rw [stagingFault_of_range space aligned out]
      rfl
    · refine goes_scalar rfl free (fault.trans ?_)
      rw [stagingFault_of_own space aligned within]
      exact (if_pos space).trans read
  case loop =>
    intro f s unchecked gm region n misused
    have free := free_scalar_open (i := .loop f) rfl gm rfl
    have fault := scalarFault_loop (c := s.ctx (.loop f)) region f
    refine ⟨fun bad => ?_, fun good => ?_⟩
    · exact exec_scalar_fault rfl free unchecked (fault.trans (if_pos (loopFault_iff.2 bad)))
    · exact goes_scalar rfl free (fault.trans (if_neg fun bad => good (loopFault_iff.1 bad)))
  case mode =>
    intro gm er s unchecked inHandler
    have ready : sourceWaits s (s.ctx (.mode gm er)) (.mode gm er) = false :=
      sourceWaits_of_landed fun _ h => absurd h List.not_mem_nil
    have free : opStalls s (s.ctx (.mode gm er)) (.mode gm er) 0 = false := by
      rw [opStalls_scalar 0 rfl, ready]
      rfl
    refine exec_scalar_fault rfl free unchecked (if_pos ?_)
    rw [show (s.tile (s.ctx (.mode gm er)).t).sys.hnd = true from inHandler, Bool.or_true, Bool.true_or]
  case tret =>
    intro s unchecked outside region
    have ready : sourceWaits s (s.ctx .tret) .tret = false :=
      sourceWaits_of_landed fun _ h => absurd h List.not_mem_nil
    have free : opStalls s (s.ctx .tret) .tret 0 = false := by
      rw [opStalls_scalar 0 rfl, ready]
      rfl
    exact exec_scalar_fault rfl free unchecked (scalarFault_tret region outside)

end Sys2Proof.Machine
end

section
/-! PROOFS. Landings: results of flights and columns of RDs (R27, R28, R74, R156, R168, R172). -/

namespace Sys2Proof.Machine

/-! ### Flights -/

/-- With no landed trap check nothing is decided (R79). -/
theorem State.settle_of_no_checks {s : State} {t : Nat} (h : (s.tile t).seq.checks = []) : s.settle t = s := by
  simp [State.settle, Seq.decidable, h]

theorem State.settleDrain_of_no_checks {s : State} {t : Nat} (h : (s.tile t).seq.checks = []) : s.settleDrain t = s := by
  simp [State.settleDrain, Seq.draining, h]

/-- A flight without a trap check, on a tile with none to decide, lands and no more. -/
theorem State.landFlight_plain {s : State} {t : Nat} {f : Flight} (plain : f.check = none)
    (none_ : (s.tile t).seq.checks = []) :
    s.landFlight t f = s.onTile t (·.land f (s.undef (8000000 + f.id))) := by
  have still : ((s.onTile t (·.land f (s.undef (8000000 + f.id)))).tile t).seq.checks = [] := by
    simp [Tile.land, plain, none_]
  rw [State.landFlight, State.settle_of_no_checks still, State.settleDrain_of_no_checks still]

theorem exec_resultLanding {s : State} {t id : Nat} {f : Flight} (part : t < Config.tiles)
    (found : (s.tile t).seq.flights.find? (fun f => f.id == id) = some f) (may : (s.tile t).mayLand f (s.icc t) = true) :
    exec (.resultLanding t id) s = .next (s.landFlight t f).nextFree := by
  show execResultLanding t id s = _
  simp [execResultLanding, Nat.not_le.2 part, found, may]

/-! ### Columns -/

/-- The column of an RD that lands on its cycle, before its error correction is answered. -/
def State.columnLanded (s : State) (t : Nat) (e : RdFlight) : State :=
  if e.written then s else s.onTile t (·.landRead t e)

/-- The trap of a column with an uncorrectable error; a bank that has closed since shows row 0 (R172, R189). -/
def State.columnTrap (s : State) (t : Nat) (e : RdFlight) : TrapReq :=
  let row := if (vget { } (s.tile t).vault.banks e.bank).opened then e.row else 0
  { code := 0x70, slot := 6, word := constraintWord 0x17 e.bank 0 0 0 2 row e.col 0 }

section
variable {s : State} {t id : Nat} {e : RdFlight} (part : t < Config.tiles)
  (found : (s.tile t).vault.reads.find? (fun e => e.id == id) = some e) (due : e.cycle = s.icc t)
include part found due

theorem exec_vaultRdLanding_clean : exec (.vaultRdLanding t id .clean) s = .next (s.columnLanded t e) := by
  show execVaultRdLanding t id .clean s = _
  simp [execVaultRdLanding, Nat.not_le.2 part, found, due, State.columnLanded]

theorem exec_vaultRdLanding_corrected :
    exec (.vaultRdLanding t id .corrected) s = .next ((s.columnLanded t e).countCorrected t storeVault) := by
  show execVaultRdLanding t id .corrected s = _
  simp [execVaultRdLanding, Nat.not_le.2 part, found, due, State.columnLanded]

theorem exec_vaultRdLanding_bad : exec (.vaultRdLanding t id .bad) s =
    .next (((s.columnLanded t e).reportFault 7 1 0x70 t).trapNext t ((s.columnLanded t e).columnTrap t e)) := by
  show execVaultRdLanding t id .bad s = _
  simp only [execVaultRdLanding, ge_iff_le, Nat.not_le.2 part, if_false, found, due, ne_eq, not_true_eq_false]
  rfl

end

/-! ### The writes that end a cycle -/

/-- A write of a slot puts its bytes into the staging that it names. -/
theorem State.stageWrite_st {s : State} {src : Nat} {w : StWrite} (slot : w.slot < 16) (uncounted : w.arrival = none) :
    ((s.stageWrite src w).tile w.tile).st = writeBytes (s.tile w.tile).st w.addr w.bytes := by
  simp [State.stageWrite, uncounted, Nat.not_le.2 slot]

/-- The one write that ends a cycle of a tile with no RD to land. -/
theorem State.ownWrites_one {s : State} {t : Nat} {w : StWrite} (noReads : (s.tile t).vault.reads = [])
    (one : (s.tile t).seq.stWrites = [w]) (own : w.tile = t) (due : w.cycle ≤ s.icc t) : s.ownWrites t = s.stageWrite t w := by
  simp [State.ownWrites, noReads, one, own, due, sortBy, insertBy]

/-- Settles O27: a landing takes the flight or the column of its identifier, and each changes the tile by one operation of its
own. -/
theorem landingSteps : Obligations.LandingSteps := by
  refine ⟨?flight, ?column, ?written, ?bad, ?corrected⟩
  case flight =>
    intro t id f s part found may plain none_
    refine ⟨_, exec_resultLanding part found may, ?_⟩
    rw [State.landFlight_plain plain none_]
    refine ⟨?_, ?_, ?_, ?_, rfl, rfl, rfl, fun v hv => by rw [State.tile_nextFree, State.tile_onTile, if_neg hv]⟩ <;>
      simp [Tile.land]
  case column =>
    intro t id e s part found due fresh
    refine ⟨_, exec_vaultRdLanding_clean part found due, ?_⟩
    have landed : s.columnLanded t e = s.onTile t (·.landRead t e) := by simp [State.columnLanded, fresh]
    rw [landed]
    have self : (s.onTile t (·.landRead t e)).tile t = (s.tile t).landRead t e := State.tile_onTile_self ..
    refine ⟨?_, ?_, ?_, rfl, ?_, fun v hv => (State.tile_onTile ..).trans (if_neg hv)⟩ <;> rw [self]
    exacts [rfl, rfl, rfl, Tile.landRead_marks _ t e]
  case written =>
    rintro t w s noReads one rfl slot due uncounted
    rw [State.ownWrites_one noReads one rfl due, State.stageWrite_st slot uncounted]
  case bad =>
    intro t id e s part found due written
    have same : s.columnLanded t e = s := by simp [State.columnLanded, written]
    exact ⟨s.columnTrap t e, rfl, rfl, by rw [exec_vaultRdLanding_bad part found due, same]⟩
  case corrected =>
    intro t id e s part found due written
    simpa [State.columnLanded, written] using exec_vaultRdLanding_corrected part found due

end Sys2Proof.Machine
end

section
/-! PROOFS. Images, parameter blocks, the timed table and sessions (R22, R327 to R332). -/

namespace Sys2Proof.Machine

/-- A table without some keys lists the others as before. -/
theorem look_filter_of_key {α : Type} (d : α) {k : Nat} (keep : Nat × α → Bool) (h : ∀ x, keep (k, x) = true) (m : Table α) :
    look d k (m.filter keep) = look d k m := by
  induction m with
  | nil => rfl
  | cons e r ih =>
    obtain ⟨a, y⟩ := e
    by_cases same : a = k
    · subst same
      simp [h, look]
    · cases kept : keep (a, y) <;> simp [kept, look, same, ih]

/-- The owner's command is carried out (R357). -/
theorem Owns.asOwner {s : State} {port : Nat} (h : Owns s port) (f : State → State) : s.asOwner port f = f s :=
  State.asOwner_of h.2.1 h.2.2.1 h.2.2.2 f

section
variable {s : State} {port : Nat} (own : Owns s port)
include own

/-! ### Images -/

theorem exec_imageLoad (handle : Nat) (img : Image) : exec (.imageLoad port handle img) s = .next
    (if (find handle s.images).isSome then s
     else if img.variants.isEmpty || !img.variants.all variantOk then s.refuseTo port 0x01
     else ({ s with images := insertAt handle img s.images } : State).tell port (.serial handle)) := by
  show execImageLoad port handle img s = _
  rw [execImageLoad, if_neg (Nat.not_le.2 own.1), own.asOwner]

/-! ### Parameter blocks -/

/-- The block that a patch makes current, with the versions that something is bound to (R327). -/
def State.patchedBlock (s : State) (handle : Nat) (bytes : List Byte) : ParamBlock :=
  let b := (find handle s.params).getD { current := 0, versions := [] }
  s.keptVersions handle { current := b.current + 1, versions := insertAt (b.current + 1) bytes b.versions
                          patched := some (s.pcc, b.versionAt s.pcc) }

theorem exec_paramBlockPatch (handle : Nat) (bytes : List Byte) : exec (.paramBlockPatch port handle bytes) s = .next
    (if bytes.length < 64 || 65536 < bytes.length || handle = 0 then s.refuseTo port 0x0D
     else ({ s with params := insertAt handle (s.patchedBlock handle bytes) s.params } : State).doneTo port) := by
  show execParamBlockPatch port handle bytes s = _
  rw [execParamBlockPatch, if_neg (Nat.not_le.2 own.1), own.asOwner]
  rfl

omit own in
@[simp] theorem State.keptVersions_current (handle : Nat) (b : ParamBlock) : (s.keptVersions handle b).current = b.current := rfl

omit own in
/-- The current version is kept. -/
theorem State.look_keptVersions_current (handle : Nat) (b : ParamBlock) :
    look [] b.current (s.keptVersions handle b).versions = look [] b.current b.versions :=
  look_filter_of_key [] _ (fun x => by simp) b.versions

omit own in
/-- A patch numbers its version after the current one. -/
theorem State.patchedBlock_current (handle : Nat) (bytes : List Byte) : (s.patchedBlock handle bytes).current =
    (match find handle s.params with | some o => o.current | none => 0) + 1 := by
  unfold State.patchedBlock
  cases find handle s.params <;> rfl

omit own in
theorem State.look_patchedBlock (handle : Nat) (bytes : List Byte) :
    look [] (s.patchedBlock handle bytes).current (s.patchedBlock handle bytes).versions = bytes := by
  unfold State.patchedBlock
  extract_lets b
  rw [State.keptVersions_current, State.look_keptVersions_current, look_insertAt_self]

omit own in
/-- A launch accepted on the cycle of a patch binds what was current before it (R327). -/
theorem State.patchedBlock_versionAt {handle : Nat} {bytes : List Byte} {o : ParamBlock} (h : find handle s.params = some o) :
    (s.patchedBlock handle bytes).versionAt s.pcc = o.versionAt s.pcc := by
  simp [State.patchedBlock, State.keptVersions, h, ParamBlock.versionAt]

/-! ### The timed table -/

omit own in
/-- The valid bit is no reserved bit of an entry (R328). -/
theorem entryOf_valid (e : Word × Word) : (entryOf e).2.getLsbD 63 = e.2.getLsbD 63 := by
  simp [entryOf]

theorem exec_timedTableWrite_entry {disp index : Nat} (hd : disp < 4) (hi : index < 512) (e : Word × Word) :
    exec (.timedTableWrite port disp index (some e) none) s = .next
      (if e.2.getLsbD 63 && (1000000000 ≤ bitsOf e.1 29 0 || entryStart e < s.ptpNs) then s.refuseTo port 0
       else { s with timed := insertAt (disp * 512 + index) (entryOf e) s.timed }) := by
  show execTimedTableWrite port disp index (some e) none s = _
  have parts : ¬ (decide (2 ≤ port) || decide (4 ≤ disp)) = true := by simp [own.1, hd]
  simp only [execTimedTableWrite, if_neg parts, own.asOwner, entryOf_valid, decide_eq_false (Nat.not_le.2 hi), Bool.false_or]
  rfl

theorem exec_timedTableWrite_slot {disp index : Nat} (hd : disp < 4) (hi : index < 256) (sub : Submission) :
    exec (.timedTableWrite port disp index none (some sub)) s =
      .next { s with slots := insertAt (disp * 256 + index) sub s.slots } := by
  show execTimedTableWrite port disp index none (some sub) s = _
  have parts : ¬ (decide (2 ≤ port) || decide (4 ≤ disp)) = true := by simp [own.1, hd]
  simp only [execTimedTableWrite, if_neg parts, own.asOwner, if_pos hi]

omit own in
theorem exec_timedEntryFire {disp index : Nat} {e : Word × Word} {sub : Submission} (hd : disp < 4) (hi : index < 512)
    (ready : s.boot = .ready) (entry : find (disp * 512 + index) s.timed = some e) (valid : e.2.getLsbD 63 = true)
    (reached : entryStart e ≤ s.ptpNs) (slot : find (disp * 256 + entrySlot e) s.slots = some sub) :
    exec (.timedEntryFire disp index) s = .next (({ s with
      timed := insertAt (disp * 512 + index) (entryFired e s.ptpNs) s.timed } : State).submit (s.owner.getD 0) disp sub
        (some (entryStart e))) := by
  show execTimedEntryFire disp index s = _
  have due : s.entryDue disp index = true := by simp [State.entryDue, entry, valid, reached]
  simp [execTimedEntryFire, hd, hi, ready, due, entry, look_eq_find, slot]

/-! ### Sessions -/

/-- What a session opens with: an empty trace, or to replay the trace and the end order under its number (R330 to R332). -/
def State.openedSession (s : State) (num : Nat) (replay : Bool) : Session :=
  let new : Session := { replay := replay, versions := s.params.map fun e => (e.1, e.2.current) }
  match replay, find num s.sessions with
  | true, some o => { new with trace := o.trace, order := o.ended }
  | _, _ => new

theorem exec_sessionOpen (num : Nat) (replay : Bool) (closed : ∀ e, find num s.sessions = some e → e.opened = false) :
    exec (.sessionOpen port num replay) s =
      .next (({ s with sessions := insertAt num (s.openedSession num replay) s.sessions } : State).doneTo port) := by
  show execSessionOpen port num replay s = _
  rw [execSessionOpen, if_neg (Nat.not_le.2 own.1), own.asOwner]
  refine congrArg _ (if_neg ?_)
  cases old : find num s.sessions with
  | none => simp
  | some e => simp [closed e old]

theorem exec_sessionOpen_again {num : Nat} {e : Session} (replay : Bool) (old : find num s.sessions = some e)
    (opened : e.opened = true) : exec (.sessionOpen port num replay) s = .next (s.refuseTo port 0) := by
  show execSessionOpen port num replay s = _
  rw [execSessionOpen, if_neg (Nat.not_le.2 own.1), own.asOwner]
  exact congrArg _ (if_pos (by simp [old, opened]))

theorem exec_sessionClose {num : Nat} {e : Session} (old : find num s.sessions = some e) : exec (.sessionClose port num) s =
    .next (({ s with sessions := insertAt num { e with opened := false } s.sessions } : State).doneTo port) := by
  show execSessionClose port num s = _
  simp [execSessionClose, Nat.not_le.2 own.1, own.asOwner, old]

omit own in
/-- A session opens with nothing matched or bound, and with the versions current now (R327, R330). -/
theorem State.openedSession_fields (num : Nat) (replay : Bool) : (s.openedSession num replay).opened = true ∧
    (s.openedSession num replay).replay = replay ∧ (s.openedSession num replay).matched = 0 ∧
    (s.openedSession num replay).bound = [] ∧
    (s.openedSession num replay).versions = s.params.map (fun p => (p.1, p.2.current)) := by
  unfold State.openedSession
  cases replay <;> cases find num s.sessions <;> exact ⟨rfl, rfl, rfl, rfl, rfl⟩

end

/-- Settles O46: one equation per event, and what a patch and an opening write. -/
theorem imageAndSessionSteps : Obligations.ImageAndSessionSteps := by
  refine ⟨?image, ?handleInUse, ?block, ?entry, ?slot, ?fire, ?session⟩
  case image =>
    intro port handle img s own unused
    rw [exec_imageLoad own, if_neg (by simp [unused])]
    refine ⟨fun ⟨some_, all⟩ => congrArg _ (if_neg ?_), fun bad => congrArg _ (if_pos ?_)⟩
    · simpa [some_] using all
    · simpa using bad
  case handleInUse =>
    intro port handle img o s own used
    rw [exec_imageLoad own, if_pos (by simp [used])]
  case block =>
    intro port handle bytes s own
    have patched := exec_paramBlockPatch own handle bytes
    refine ⟨fun bad => patched.trans (congrArg _ (if_pos (by simpa [or_assoc] using bad))), fun low high named => ?_⟩
    have sized : ¬ (decide (bytes.length < 64) || decide (65536 < bytes.length) || decide (handle = 0)) = true := by
      simp [Nat.not_lt.2 low, Nat.not_lt.2 high, named]
    rw [if_neg sized] at patched
    refine ⟨_, patched, s.patchedBlock handle bytes, ?_, ?_, ?_, ?_, ?_⟩
    · simp [State.doneTo, find_insertAt]
    · exact s.patchedBlock_current handle bytes
    · exact s.look_patchedBlock handle bytes
    · exact fun o listed => State.patchedBlock_versionAt listed
    · intro h other
      simp [State.doneTo, find_insertAt, other]
  case entry =>
    intro port disp index e s own hd hi
    rw [exec_timedTableWrite_entry own hd hi]
    refine ⟨fun good => congrArg _ (if_neg ?_), fun ⟨valid, bad⟩ => congrArg _ (if_pos ?_)⟩
    · rcases good with invalid | ⟨form, future⟩
      · simp only [invalid, Bool.false_and, Bool.false_eq_true, not_false_eq_true]
      · simp [Nat.not_le.2 form, Nat.not_lt.2 future]
    · simpa [valid] using bad
  case slot => exact fun port disp index sub s own hd hi => exec_timedTableWrite_slot own hd hi sub
  case fire => exact fun disp index e sub s hd hi ready entry valid reached slot =>
    exec_timedEntryFire hd hi ready entry valid reached slot
  case session =>
    intro port num replay s own
    refine ⟨fun closed => ?_, fun e old opened => ⟨exec_sessionOpen_again own replay old opened, ?_⟩⟩
    · obtain ⟨isOpen, kind, matched, bound, versions⟩ := s.openedSession_fields num replay
      refine ⟨_, exec_sessionOpen own num replay closed, s.openedSession num replay, ?_, isOpen, kind, matched, bound, versions, ?_, ?_⟩
      · simp [State.doneTo, find_insertAt]
      · rintro rfl
        rfl
      · rintro o rfl old
        simp [State.openedSession, old]
    · refine ⟨_, exec_sessionClose own old, { e with opened := false }, ?_, rfl, rfl⟩
      simp [State.doneTo, find_insertAt]

end Sys2Proof.Machine
end

section
/-! PROOFS. Submissions (R319, R320), the walk of arbitration (R322, R323) and notices (R333, R334). -/

namespace Sys2Proof.Machine

/-! ### Submissions -/

/-- The launch of a submission as the checks of its acceptance see it (R24, R327). -/
def State.submitted (s : State) (port disp : Nat) (sub : Submission) (start : Option Nat) : Launch :=
  let l : Launch := { sub := sub, disp := disp, age := s.pcc, port := port, start := start }
  { l with pver := s.versionFor l }

/-- Queueing changes launches and sessions alone, and lists the launch with a variant and a place in its trace (R332). -/
theorem State.enqueue_same (s : State) (serial : Nat) (l : Launch) : ∃ ss n q, s.enqueue serial l =
    { s with sessions := ss, launches := insertAt serial { l with variant := n, seqNo := q } s.launches } := by
  unfold State.enqueue
  extract_lets
  split
  · exact ⟨_, _, _, rfl⟩
  · exact ⟨_, _, _, rfl⟩

theorem State.breakReplay_same (s : State) (l : Launch) : ∃ ss, s.breakReplay l = { s with sessions := ss } := by
  unfold State.breakReplay
  split
  · exact ⟨_, rfl⟩
  · exact ⟨_, rfl⟩

/-- A refusal lists the launch as refused, logs it and tells its port (R24, R320). -/
theorem State.turnAway_same (s : State) (serial : Nat) (l : Launch) (code : Nat) : ∃ ss lg ov, s.turnAway serial l code =
    { s with
      sessions := ss, log := lg, overwritten := ov, told := s.told ++ [(l.port, .refused code)]
      launches := insertAt serial { l with state := .refused, code := code, leftAt := some s.pcc } s.launches } := by
  have broken : ∃ ss, (if code = 0x10 then s.breakReplay l else s) = { s with sessions := ss } := by
    split
    · exact s.breakReplay_same l
    · exact ⟨_, rfl⟩
  obtain ⟨ss, same⟩ := broken
  unfold State.turnAway
  rw [same]
  extract_lets u
  obtain ⟨lg, ov, logged⟩ := State.logIt_same { u with
    launches := insertAt serial { l with state := .refused, code := code, leftAt := some u.pcc } u.launches } 7 code serial 0
  rw [logged]
  exact ⟨ss, lg, ov, rfl⟩

/-- What a submission leaves: the next serial, told, and the launch under it, queued or refused (R319, R320). -/
theorem State.submit_effect (s : State) (port disp : Nat) (sub : Submission) (start : Option Nat) :
    let u := s.submit port disp sub start
    let code := lowest (s.acceptCodes (s.submitted port disp sub start))
    u.serial = s.serial + 1 ∧ u.tiles = s.tiles ∧ (port, Told.serial s.serial) ∈ u.told ∧
    ∃ e, find s.serial u.launches = some e ∧ e.sub = sub ∧ e.code = code ∧ e.age = s.pcc ∧ e.start = start ∧
      (code = 0 → e.state = .queued) ∧ (code ≠ 0 → e.state = .refused ∧ (port, Told.refused code) ∈ u.told) := by
  intro u code
  by_cases accepted : code = 0
  · have queued : u = (({ s with serial := s.serial + 1 } : State).tell port (.serial s.serial)).enqueue s.serial
        (s.submitted port disp sub start) := if_pos accepted
    obtain ⟨ss, n, q, same⟩ := State.enqueue_same (({ s with serial := s.serial + 1 } : State).tell port (.serial s.serial)) s.serial
      (s.submitted port disp sub start)
    rw [queued, same]
    exact ⟨rfl, rfl, List.mem_append_right _ (List.mem_singleton_self _), _, (find_insertAt ..).trans (if_pos rfl), rfl,
      accepted.symm, rfl, rfl, fun _ => rfl, fun refused => absurd accepted refused⟩
  · have turned : u = (({ s with serial := s.serial + 1 } : State).tell port (.serial s.serial)).turnAway s.serial
        (s.submitted port disp sub start) code := if_neg accepted
    obtain ⟨ss, lg, ov, same⟩ := State.turnAway_same (({ s with serial := s.serial + 1 } : State).tell port (.serial s.serial)) s.serial
      (s.submitted port disp sub start) code
    rw [turned, same]
    exact ⟨rfl, rfl, List.mem_append_left _ (List.mem_append_right _ (List.mem_singleton_self _)), _,
      (find_insertAt ..).trans (if_pos rfl), rfl, rfl, rfl, rfl, fun queued => absurd queued accepted,
      fun _ => ⟨rfl, List.mem_append_right _ (List.mem_singleton_self _)⟩⟩

/-! ### Arbitration -/

/-- A queued launch that finds every tile it needs available, and whose lease strands no page, is granted them (R323). -/
theorem State.consider_grants {s : State} {serial n : Nat} {l : Launch} {v : Variant} (listed : s.launch serial = some l)
    (queued : l.state = .queued) (lets : s.replayLets l = true) (variant : s.selected l = some (n, v))
    (free : ∀ t ∈ tilesOf v, s.usable serial l t = true ∧ look serial t s.reserved = serial)
    (pages : (s.evacuate l.own (tilesOf v)).isSome = true) : s.consider serial = s.grantBinding serial (tilesOf v) n := by
  have all : (tilesOf v).all (fun t => s.usable serial l t && look serial t s.reserved == serial) = true := by
    simpa [List.all_eq_true] using free
  simp [State.consider, listed, queued, lets, variant, all, pages]

/-! ### Notices -/

/-- What a notice brings to its tile: a throttle the floors that the island has then (R334). -/
def State.noticeSeen (s : State) (t : Nat) : Notice → Notice
  | .thr _ _ _ _ => (s.island (t / 16)).floorNotice
  | n => n

/-- A notice decided on is taken from the list, and is delivered to a task that can take it (R333). -/
theorem exec_noticeDelivery {t : Nat} {n : Notice} {e : Nat × Notice × Nat} {s : State} (part : t < Config.tiles)
    (decided : s.notices.find? (fun e => e.1 == t && e.2.1 == n) = some e) : exec (.noticeDelivery t n) s = .next
      (if (s.tile t).noticed then
        { s with notices := s.notices.erase e, delivered := s.delivered ++ [(t, s.noticeSeen t n)] }
      else { s with notices := s.notices.erase e }) := by
  show execNoticeDelivery t n s = _
  simp only [execNoticeDelivery, ge_iff_le, Nat.not_le.2 part, if_false, decided]
  cases n <;> rfl

/-- One notice as the task sees it on its tile (R333, R334). -/
def Tile.shown (x : Tile) (n : Notice) : Tile :=
  if !x.noticed then x
  else match n with
    | .thr c m v k => { x with sys := { x.sys with thr := true, thrTo := #v[c.toNat, m.toNat, v.toNat, k.toNat] } }
    | .pre => { x with sys := { x.sys with pre := true } }
    | .hold => { x with sys := { x.sys with pre := true }, task := x.task.map fun k => { k with holding := true } }

theorem Tile.shown_noticed (x : Tile) (n : Notice) : (x.shown n).noticed = x.noticed := by
  unfold Tile.shown
  split
  · rfl
  · cases n <;> simp [Tile.noticed]

/-- A notice of a pre-emption or of a hold sets sr.event.pre, and none clears it (R333). -/
theorem Tile.shown_pre {x : Tile} {n : Notice} (can : x.noticed = true) (h : n = .pre ∨ n = .hold ∨ x.sys.pre = true) :
    (x.shown n).sys.pre = true := by
  unfold Tile.shown
  rw [can]
  cases n with
  | pre => rfl
  | hold => rfl
  | thr c m v k =>
    obtain h | h | h := h
    · cases h
    · cases h
    · exact h

/-- The notices of a tile, seen one after another. -/
theorem Tile.foldl_shown_pre {n : Notice} (hn : n = .pre ∨ n = .hold) (ns : List (Nat × Notice)) : ∀ x : Tile, x.noticed = true →
    (x.sys.pre = true ∨ n ∈ ns.map (·.2)) → (ns.foldl (fun x e => x.shown e.2) x).sys.pre = true := by
  induction ns with
  | nil =>
    intro x _ h
    simpa using h
  | cons e r ih =>
    intro x can h
    refine ih _ ((x.shown_noticed e.2).trans can) ?_
    obtain set | isIn := h
    · exact .inl (Tile.shown_pre can (.inr (.inr set)))
    · obtain same | later := List.mem_cons.1 isIn
      · subst same
        exact .inl (Tile.shown_pre can (hn.imp_right .inl))
      · exact .inr later

/-- Changes of one tile, one after another, change it as they would alone. -/
theorem State.tile_foldl_onTile {α : Type} (f : α → Tile → Tile) (t : Nat) (es : List α) : ∀ s : State,
    ((es.foldl (fun s e => s.onTile t (f e)) s).tile t) = es.foldl (fun x e => f e x) (s.tile t) := by
  induction es with
  | nil => exact fun _ => rfl
  | cons e r ih =>
    intro s
    rw [List.foldl_cons, ih, State.tile_onTile_self, List.foldl_cons]

theorem State.tile_showNotices (s : State) (t : Nat) :
    (s.showNotices t).tile t = (s.delivered.filter fun e => e.1 == t).foldl (fun x e => x.shown e.2) (s.tile t) :=
  State.tile_foldl_onTile (fun (e : Nat × Notice) x => x.shown e.2) t _ s

/-- A notice of a pre-emption or of a hold that has been delivered is seen (R333). -/
theorem State.showNotices_pre {s : State} {t : Nat} {n : Notice} (can : (s.tile t).noticed = true) (hn : n = .pre ∨ n = .hold)
    (delivered : (t, n) ∈ s.delivered) : ((s.showNotices t).tile t).sys.pre = true := by
  rw [State.tile_showNotices]
  refine Tile.foldl_shown_pre hn _ _ can (.inr ?_)
  exact List.mem_map.2 ⟨(t, n), by simpa using delivered, rfl⟩

/-- The floors of a notice are the larger of each pair: they fit in its fields (R334, R363). -/
theorem Island.floorNotice_fields {x : Island} (small : ∀ k, k < 4 → vget 1 x.throttle k < 16 ∧ vget 1 x.floors k < 16)
    {k : Nat} (hk : k < 4) : (BitVec.ofNat 4 (max (vget 1 x.throttle k) (vget 1 x.floors k))).toNat =
      max (vget 1 x.throttle k) (vget 1 x.floors k) := by
  rw [BitVec.toNat_ofNat]
  exact Nat.mod_eq_of_lt (max_lt (small k hk).1 (small k hk).2)

/-- Settles O43: what a submission leaves, one equation per step of the walk and of a delivery, and what a task sees. -/
theorem submissionSteps : Obligations.SubmissionSteps := by
  refine ⟨?submission, ?effect, ?walk, ?grant, ?deliver, ?seen, ?throttle, ?drop, ?undecided, ?floors⟩
  case submission =>
    intro port disp sub s own hd
    have parts : ¬ (decide (2 ≤ port) || decide (4 ≤ disp)) = true := by simp [own.1, hd]
    show execSubmission port disp sub s = _
    rw [execSubmission, if_neg parts, own.asOwner]
  case effect => exact fun port disp sub start s => s.submit_effect port disp sub start
  case walk =>
    intro s ready
    show execArbitration s = _
    simp [execArbitration, ready]
  case grant => exact fun serial l n v s listed queued lets variant free pages =>
    State.consider_grants listed queued lets variant free pages
  case deliver =>
    intro t s part can n hn e decided
    rw [exec_noticeDelivery part decided, if_pos can]
    simp only [List.mem_cons, List.not_mem_nil, or_false] at hn
    obtain rfl | rfl := hn <;> rfl
  case seen =>
    intro t s can n hn delivered
    exact State.showNotices_pre can (by simpa using hn) delivered
  case throttle =>
    intro t c m v k e s part decided can
    rw [exec_noticeDelivery part decided, if_pos can]
    rfl
  case drop =>
    intro t n e s part decided cannot
    rw [exec_noticeDelivery part decided, if_neg (by simp [cannot])]
  case undecided =>
    intro t n s part undecided
    show execNoticeDelivery t n s = _
    simp only [execNoticeDelivery, ge_iff_le, Nat.not_le.2 part, if_false, undecided]
  case floors =>
    intro x a b c d small notice
    cases notice
    exact ⟨Island.floorNotice_fields small (by decide), Island.floorNotice_fields small (by decide),
      Island.floorNotice_fields small (by decide), Island.floorNotice_fields small (by decide)⟩

end Sys2Proof.Machine
end

section
/-! PROOFS. Traps stop a task or enter its handler, TRET returns from it, and the traps that no issue raises (R31, R150 to R154,
R225, R245, R294, R301, R306). -/

namespace Sys2Proof.Machine

/-! ### Frames -/

@[simp] theorem State.writeFrame_mem (s : State) (t : Nat) (r : TrapRec) : (s.writeFrame t r).mem =
    writeBytes s.mem (vaultAddr t 31 (if (s.tile t).sys.hnd then 4096 else 0)) (s.frameBytes t r) := rfl

@[simp] theorem State.tile_writeFrame (s : State) (t u : Nat) (r : TrapRec) : (s.writeFrame t r).tile u = s.tile u := rfl

@[simp] theorem Tile.dropRegion_sys (x : Tile) : x.dropRegion.sys = x.sys := rfl

/-! ### Stops (R150 to R152) -/

/-- A tile that stops: its phase, its banks kept, and its engines, retained for a restartable stop alone (R176, R280). -/
def Tile.stoppedBy (x : Tile) (r : TrapRec) (keep : Bool) : Tile :=
  { x with
    seq := { x.seq with phase := if r.disp = 2 then .halted else .stopped }
    vault := { x.vault with keeper := true, deficit := [] }
    frames := true
    eng := if keep then x.eng else { atomics := x.eng.atomics } }

/-- The state once a stopping trap has written its frame, before the dispatcher hears of it (R150, R176). -/
def State.stopWritten (s : State) (t : Nat) (r : TrapRec) : State :=
  (((s.onTile t Tile.dropRegion).writeFrame t r).onTile t (·.stoppedBy r (restartable (s.gangCode r)))).onTile t Tile.dropFalls

section
variable {s : State} {t : Nat} {r : TrapRec} (part : t < Config.tiles) (phase : (s.tile t).seq.phase = .trapping)
  (trap : (s.tile t).seq.trap = some r)
include part phase trap

theorem exec_taskStop (stops : r.disp ≠ 1) (drained : (s.tile t).stopDrained = true) :
    exec (.taskStop t) s = .next ((s.stopWritten t r).reportStop t r) := by
  show execTaskStop t s = _
  simp only [execTaskStop, ge_iff_le, Nat.not_le.2 part, if_false, phase, trap, stops, drained, decide_false, Bool.not_true,
    Bool.or_false, Bool.false_eq_true]
  rfl

/-! ### Handlers (R153) -/

theorem exec_handlerEntry (enters : r.disp = 1) (drained : (s.tile t).drained = true) (unhalted : (s.tile t).seq.haltBy = none) :
    exec (.handlerEntry t) s = .next (s.enterHandler t r) := by
  show execHandlerEntry t s = _
  simp only [execHandlerEntry, ge_iff_le, Nat.not_le.2 part, if_false, phase, trap, enters, drained, decide_true, Bool.and_self,
    if_true, unhalted]

/-- One whose gang was halted meanwhile is halted before the handler's first bundle (R152). -/
theorem exec_handlerEntry_halted {u : Nat} (enters : r.disp = 1) (drained : (s.tile t).drained = true)
    (halted : (s.tile t).seq.haltBy = some u) : exec (.handlerEntry t) s = .next ((s.enterHandler t r).haltTile t u) := by
  show execHandlerEntry t s = _
  simp only [execHandlerEntry, ge_iff_le, Nat.not_le.2 part, if_false, phase, trap, enters, drained, decide_true, Bool.and_self,
    if_true, halted]

end

/-- A handler's tile: its trap record in staging, sr.mode.hnd, idle latches, inactive loops, and the handler's first bundle next
(R153). -/
theorem State.tile_enterHandler (s : State) (t : Nat) (r : TrapRec) :
    let y := (s.enterHandler t r).tile t
    y.sys = { (s.tile t).sys with hnd := true } ∧ y.seq.phase = .running ∧ y.seq.pc = (s.tile t).sys.handler.toNat * 8 ∧
    y.seq.latches = (s.tile t).seq.latches.map (fun _ => { }) ∧ y.seq.loops = (s.tile t).seq.loops.map (fun _ => { }) ∧
    y.regs = (s.tile t).regs := by
  simp [State.enterHandler, Tile.stage]

theorem State.enterHandler_mem (s : State) (t : Nat) (r : TrapRec) : (s.enterHandler t r).mem =
    writeBytes s.mem (vaultAddr t 31 (if (s.tile t).sys.hnd then 4096 else 0)) (s.frameBytes t r) := rfl

/-! ### Returning (R154, R294) -/

/-- A tile as its handler's frame gives it back (R154). -/
def Tile.returned (x : Tile) (m : Memory) (base now : Nat) : Tile :=
  let y := resumeAt (restoreFrom x m base now) m base now
  { y with sys := { y.sys with hnd := false }, seq := { y.seq with snap := y.seq.under, xpHeld := none } }

/-- The state once TRET has restored what the frame gives back. -/
def State.returned (s : State) (t : Nat) : State :=
  s.onTile t fun x => x.returned s.mem (vaultAddr t 31 0) (s.icc t)

/-- What the frame gives back of the mode, the flow and what the bundle still owes; the registers but the generators are as the
handler leaves them (R154). -/
theorem Tile.returned_fields (x : Tile) (m : Memory) (base now : Nat) :
    let y := x.returned m base now
    let rest := readNat m base 8 / 2 ^ 33 % 2 == 1
    y.sys.hnd = false ∧ y.sys.gm = (readNat m (base + 0x900) 8 % 2 == 1) ∧
    y.seq.pc = (if rest then readNat m (base + 8) 8 % 2 ^ 22 else readNat m (base + 8) 8 / 2 ^ 32 % 2 ^ 22) ∧
    y.seq.phase = .running ∧ y.seq.stall = .none ∧ y.seq.after = [] ∧ y.seq.closing = x.seq.owed.headD none ∧
    y.seq.inHand = rest ∧ y.seq.ceasing = x.seq.ceasing ∧ y.regs.s = x.regs.s ∧ y.regs.v = x.regs.v :=
  ⟨rfl, rfl, rfl, rfl, rfl, rfl, rfl, rfl, rfl, rfl, rfl⟩

/-- The wait of a frame is read from memory. -/
theorem State.frameWait_of_mem {s u : State} (h : u.mem = s.mem) (t base : Nat) : u.frameWait t base = s.frameWait t base := by
  unfold State.frameWait State.headAt State.granule
  rw [h]

/-- The state once TRET has taken up what the bundle still owes, or the sync wait of its frame (R154, R294). -/
def State.tretTakenUp (s : State) (t : Nat) : State :=
  let u := (s.returned t).closeBundle t
  match s.frameWait t (vaultAddr t 31 0) with
  | some (a, i) =>
    let h := s.headAt t a
    u.onTile t fun x => { x with seq := { x.seq with
      stall := x.waitAgain i h.slev.toNat, after := (postOps h t false).drop 1, last := a } }
  | none => u

/-- A tile whose first held trap is to be taken (R79, R154). -/
def Tile.takesHeld (x : Tile) (r : TrapReq) (rs : List TrapReq) : Tile :=
  { x with
    sys := { x.sys with v1p := x.sys.v1p && r.slot != 2, xp := x.sys.xp && r.slot != 7 }
    seq := { x.seq with held := rs } }

/-- The state with a held trap taken at the bundle of the frame in rows 0 to 3 (R154, R189). -/
def State.heldTrapTaken (s : State) (t : Nat) (m : Memory) (r : TrapReq) (v : Option Snap) : State :=
  let base := vaultAddr t 31 0
  let head := readNat m base 8
  let addrs := readNat m (base + 8) 8
  s.takeTrapAt t r (addrs % 2 ^ 22) (addrs / 2 ^ 32 % 2 ^ 22) (head / 2 ^ 40 % 256) (head / 2 ^ 33 % 2 == 1) v

section
variable {s : State} {t : Nat} (part : t < Config.tiles) (stall : (s.tile t).seq.stall = .tretDrain)
  (phase : (s.tile t).seq.phase = .running) (drained : (s.tile t).drained = true)
include part stall phase drained

theorem exec_tretResume (held : (s.tile t).seq.held = []) : exec (.tretResume t) s = .next (s.tretTakenUp t) := by
  show execTretResume t s = _
  simp only [execTretResume, ge_iff_le, Nat.not_le.2 part, if_false, stall, phase, drained, held]
  rfl

theorem exec_tretResume_held {r : TrapReq} {rs : List TrapReq} (held : (s.tile t).seq.held = r :: rs) :
    exec (.tretResume t) s = .next (((s.returned t).onTile t (·.takesHeld r rs)).heldTrapTaken t s.mem r (s.tile t).seq.heldAt) := by
  show execTretResume t s = _
  simp only [execTretResume, ge_iff_le, Nat.not_le.2 part, if_false, stall, phase, drained, held]
  rfl

end

/-- Closing a bundle with nothing left to act: what it still owes holds the tile, unless it has issues left (R140, R148, R154). -/
theorem State.tile_closeBundle {s : State} {t : Nat} (after : (s.tile t).seq.after = []) (free : (s.tile t).seq.stall = .none) :
    (s.closeBundle t).tile t = { s.tile t with seq := { (s.tile t).seq with
      stall := if (s.tile t).seq.inHand then .none else (s.tile t).seq.closing.getD .none
      closing := if (s.tile t).seq.inHand then (s.tile t).seq.closing else none } } := by
  rw [State.closeBundle, State.onSeq_eq, State.tile_onTile_self]
  generalize s.tile t = x at after free ⊢
  rcases owed : x.seq.closing with _ | st
  case' some => cases st
  all_goals
    obtain ⟨_, _, q⟩ := x
    obtain ⟨_, _, _, inHand⟩ := q
    subst after free owed
    cases inHand <;> rfl

/-! ### Taking a trap (R150) -/

theorem State.not_mem_gang (s : State) (t : Nat) : t ∉ s.gang t := by
  unfold State.gang
  split
  · exact List.not_mem_nil
  · simp

/-- Changes of other tiles leave a tile as it is. -/
theorem State.tile_foldl_onSeq_of_notMem {t : Nat} (f : Seq → Seq) (us : List Nat) : ∀ s : State, t ∉ us →
    (us.foldl (fun s u => s.onSeq u f) s).tile t = s.tile t := by
  induction us with
  | nil => exact fun _ _ => rfl
  | cons u r ih =>
    intro s h
    rw [List.mem_cons, not_or] at h
    rw [List.foldl_cons, ih _ h.2, State.onSeq_eq, State.tile_onTile, if_neg h.1]

/-- A live task's trap, not of a cancelled launch: the tile stops issuing, with a record of the trap's slot (R150). -/
theorem State.tile_takeTrapAt {s : State} {t : Nat} {r : TrapReq} (live : (s.tile t).seq.phase.live = true)
    (goesOn : (s.tile t).seq.ceasing = false) (a n i : Nat) (rest : Bool) (v : Option Snap) :
    ∃ q w, q.req.slot = r.slot ∧ ((s.takeTrapAt t r a n i rest v).tile t = (s.tile t).trapped q w ∨
      (s.takeTrapAt t r a n i rest v).tile t = ((s.tile t).trapped q w).stopBanks) := by
  unfold State.takeTrapAt
  extract_lets x w arith good r' q u
  have takes : x.seq.takes r.code = true := by simp [Seq.takes, x, live]
  have slot : q.req.slot = r.slot := by
    show r'.slot = r.slot
    simp only [r']
    split <;> rfl
  have trapped : u.tile t = if good then x.trapped q w else (x.trapped q w).stopBanks := State.tile_onTile_self ..
  rw [if_neg (by simp [takes]), if_neg (by simp [x, goesOn])]
  refine ⟨q, w, slot, ?_⟩
  cases entered : good with
  | true => exact .inl (by rw [if_pos rfl, trapped, entered, if_pos rfl])
  | false =>
    refine .inr ?_
    rw [if_neg Bool.false_ne_true, State.tile_foldl_onSeq_of_notMem _ _ _ (State.not_mem_gang u t), trapped, entered,
      if_neg Bool.false_ne_true]

/-! ### Faults found by an engine (R225, R245) -/

/-- The one fault found, once its cycle has come. -/
theorem State.raiseFound_one {s : State} {t n : Nat} {r : TrapReq} {p : TrapReq → Bool} (faults : (s.tile t).seq.faults = [(n, r)])
    (due : n ≤ s.icc t) (h : p r = true) :
    s.raiseFound t p = (s.trapWaiting t r).onSeq t fun q => { q with faults := q.faults.erase (n, r) } := by
  simp [State.raiseFound, faults, due, h]

/-! ### The obligation -/

/-- The tile that TRET's return leaves where its frame shows no wait: as the frame gives it back, held by what its bundle still owes
(R140, R148, R154). -/
theorem State.tile_returned_closed (s : State) (t : Nat) :
    let x := (s.tile t).returned s.mem (vaultAddr t 31 0) (s.icc t)
    ((s.returned t).closeBundle t).tile t = { x with seq := { x.seq with
      stall := if x.seq.inHand then .none else x.seq.closing.getD .none
      closing := if x.seq.inHand then x.seq.closing else none } } := by
  intro x
  have back : (s.returned t).tile t = x := State.tile_onTile_self ..
  rw [State.tile_closeBundle (by rw [back]; rfl) (by rw [back]; rfl), back]

theorem State.tretTakenUp_of_none {s : State} {t : Nat} (h : s.frameWait t (vaultAddr t 31 0) = none) :
    s.tretTakenUp t = (s.returned t).closeBundle t := by
  simp [State.tretTakenUp, h]

theorem State.tile_tretTakenUp_of_wait {s : State} {t a i : Nat} (h : s.frameWait t (vaultAddr t 31 0) = some (a, i)) :
    let x := ((s.returned t).closeBundle t).tile t
    (s.tretTakenUp t).tile t = { x with seq := { x.seq with
      stall := x.waitAgain i (s.headAt t a).slev.toNat, after := (postOps (s.headAt t a) t false).drop 1, last := a } } := by
  simp [State.tretTakenUp, h]

theorem State.tretTakenUp_mem (s : State) (t : Nat) : (s.tretTakenUp t).mem = s.mem := by
  unfold State.tretTakenUp
  extract_lets u
  split <;> rfl

/-- Settles O29: the frame and the tile of a stop, of a handler's entry and of a return, and one equation for each trap that no
issue raises. -/
theorem trapSteps : Obligations.TrapSteps := by
  refine ⟨?stop, ?enter, ?halted, ?tret, ?heldTrap, ?intervals, ?lost, ?arrival, ?found⟩
  case stop =>
    intro t r s part phase trap stops drained
    refine ⟨s.stopWritten t r, ?_, ?_, ?_, ?_, exec_taskStop part phase trap stops drained⟩
    all_goals simp [State.stopWritten, Tile.stoppedBy, Tile.dropFalls]
  case enter =>
    intro t r s part phase trap enters drained unhalted
    obtain ⟨sys, running, pc, latches, loops, regs⟩ := s.tile_enterHandler t r
    exact ⟨s.enterHandler t r, exec_handlerEntry part phase trap enters drained unhalted, s.enterHandler_mem t r, sys, running, pc,
      latches, loops, regs⟩
  case halted => exact fun t r u s part phase trap enters drained halted =>
    exec_handlerEntry_halted part phase trap enters drained halted
  case tret =>
    intro t s part stall phase drained held
    refine ⟨_, exec_tretResume part stall phase drained held, ?_⟩
    beta_reduce
    intro base rest
    obtain ⟨hnd, gm, pc, running, -, -, owes, hand, -, regs, vregs⟩ := (s.tile t).returned_fields s.mem base (s.icc t)
    have back := s.tile_returned_closed t
    rw [if_congr beq_iff_eq rfl rfl] at pc
    generalize (s.tile t).returned s.mem base (s.icc t) = x at *
    cases wait : s.frameWait t base with
    | none =>
      rw [State.tretTakenUp_of_none wait, back]
      refine ⟨hnd, gm, pc, running, regs, vregs, rfl, fun _ nothing => ?_, fun _ whole st owed => ?_, fun a h => nomatch h⟩
      · rw [← owes] at nothing
        show (if x.seq.inHand then Stall.none else x.seq.closing.getD .none) = .none
        rw [nothing]
        exact ite_self _
      · have done : x.seq.inHand = false := hand.trans (beq_eq_false_iff_ne.2 (of_eq_false whole))
        rw [← owes] at owed
        show (if x.seq.inHand then Stall.none else x.seq.closing.getD .none) = st
        rw [done, owed]
        rfl
    | some w =>
      obtain ⟨a, i⟩ := w
      have tile := State.tile_tretTakenUp_of_wait wait
      rw [back] at tile
      rw [tile]
      refine ⟨hnd, gm, pc, running, regs, vregs, s.tretTakenUp_mem t, fun h => absurd h (Option.some_ne_none _),
        fun h => absurd h (Option.some_ne_none _), fun b h => ?_⟩
      cases h
      exact ⟨rfl, rfl⟩
  case heldTrap =>
    intro t r rs s part stall phase drained goesOn held
    have tile : ((s.returned t).onTile t (·.takesHeld r rs)).tile t =
        ((s.tile t).returned s.mem (vaultAddr t 31 0) (s.icc t)).takesHeld r rs := by
      rw [State.tile_onTile_self, State.returned, State.tile_onTile_self]
    refine ⟨_, exec_tretResume_held part stall phase drained held, ?_⟩
    obtain ⟨q, w, slot, trapped⟩ := State.tile_takeTrapAt (s := (s.returned t).onTile t (·.takesHeld r rs)) (t := t) (r := r)
      (by rw [tile]; rfl) (by rw [tile]; exact goesOn) _ _ _ _ (s.tile t).seq.heldAt
    rw [State.heldTrapTaken]
    obtain taken | taken := trapped <;> rw [taken, tile] <;> exact ⟨rfl, rfl, rfl, congrArg some slot⟩
  case intervals =>
    intro t k s part task counts
    refine ⟨fun passed => ?_, fun passed => ?_, fun channels passed => ?_⟩
    · show execYieldIntervalExpiry t s = _
      simp [execYieldIntervalExpiry, Nat.not_le.2 part, task, counts, passed]
    · show execReplanIntervalExpiry t s = _
      simp [execReplanIntervalExpiry, Nat.not_le.2 part, task, counts, passed]
    · show execLinkSyncIntervalExpiry t s = _
      have any : (!(s.receives k).isEmpty || !(s.sends k).isEmpty) = true := by simpa using channels
      simp only [execLinkSyncIntervalExpiry, ge_iff_le, Nat.not_le.2 part, if_false, task, any, counts, passed, decide_true,
        Bool.and_self, if_true]
  case lost =>
    intro t lev s part stall isLost live
    show execMemberLostTrap t s = _
    simp [execMemberLostTrap, Nat.not_le.2 part, stall, isLost, live]
  case arrival =>
    intro t lev k s part stall task phase issued ready isLost
    show execSyncArrival t s = _
    simp [execSyncArrival, Nat.not_le.2 part, stall, task, phase, Nat.not_le.2 issued, ready, isLost]
  case found =>
    intro t n r s part faults due raised
    refine ⟨fun slot code => ?_, fun slot code => ?_⟩
    · show execDecoderTrap t s = _
      rw [execDecoderTrap, if_neg (Nat.not_le.2 part), State.raiseFound_one faults due ?_]
      simp only [List.mem_cons, List.not_mem_nil, or_false] at code
      obtain code | code | code | code | code := code <;> simp [slot, code]
    · show execMmadFaultTrap t s = _
      rw [execMmadFaultTrap, if_neg (Nat.not_le.2 part), State.raiseFound_one faults due ?_]
      simp [slot, code]

end Sys2Proof.Machine
end

section
/-! PROOFS. What a saved context writes (R336 to R338). -/

namespace Sys2Proof.Machine

/-! ### Lengths -/

@[simp] theorem length_leBytes (n x : Nat) : (leBytes n x).length = n := by
  induction n generalizing x with
  | zero => rfl
  | succ n ih => simp [leBytes, ih]

/-- Pieces of one length, one after another. -/
theorem length_flatMap_const {α β : Type} {f : α → List β} {n : Nat} (h : ∀ x, (f x).length = n) (xs : List α) :
    (xs.flatMap f).length = xs.length * n := by
  simp [List.length_flatMap, h]

/-- A frame fills its four rows (R150). -/
theorem State.length_frameBytes (s : State) (t : Nat) (r : TrapRec) : (s.frameBytes t r).length = 4096 := by
  simp [State.frameBytes, List.length_flatMap, Engines.dynamicWords]

theorem State.length_contextFrame (s : State) (t : Nat) (k : Task) : (s.contextFrame t k).length = 4096 := by
  simp [State.contextFrame, State.length_frameBytes]

theorem length_contextRecord (x : Tile) (k : Task) (chans : List (Nat × LinkEntry)) : (contextRecord x k chans).length ≤ 4096 := by
  unfold contextRecord
  extract_lets dq n f full
  have queues : ((List.range 4).flatMap dq).length = 4 * 8 := length_flatMap_const (fun _ => length_leBytes 8 _) (List.range 4)
  simp only [List.length_append, length_leBytes, queues, List.length_take, List.length_replicate]
  omega

/-- The extended state of a context lies in its rows 2,064 to 2,144 (R337). -/
theorem Tile.extended_rows (x : Tile) : ∀ e ∈ x.extended, 2064 ≤ e.1 ∧ e.1 * 1024 + e.2.length ≤ 2145 * 1024 := by
  intro e he
  have words : ∀ n (ws : List (BitVec n)), (ws.flatMap fun w => leBytes 4 w.toNat).length = ws.length * 4 :=
    fun n ws => length_flatMap_const (fun _ => length_leBytes 4 _) ws
  have masks : (x.regs.m.toList.flatMap fun v => leBytes 128 v.toNat).length = 16 * 128 :=
    (length_flatMap_const (fun _ => length_leBytes 128 _) _).trans (by rw [Vector.length_toList])
  simp only [Tile.extended, List.mem_append, List.mem_cons, List.not_mem_nil, or_false, List.mem_map, List.mem_range] at he
  obtain (rfl | rfl | rfl | rfl) | ⟨i, hi, rfl⟩ := he <;>
    simp only [List.length_append, length_leBytes, List.length_take, words, masks] <;> omega

/-! ### Rows outside a context -/

theorem rowAddr_eq (t row : Nat) : rowAddr t row = rowAddr t 0 + 1024 * row := by
  simp only [rowAddr, vaultAddr]
  omega

/-- Writes one after another leave a byte that none of them covers. -/
theorem readByte_foldl_writeBytes_of_out {α : Type} (at_ : α → Nat) (bytes : α → List Byte) (b : Nat) (es : List α) :
    ∀ m : Memory, (∀ e ∈ es, b < at_ e ∨ at_ e + (bytes e).length ≤ b) →
      readByte (es.foldl (fun m e => writeBytes m (at_ e) (bytes e)) m) b = readByte m b := by
  induction es with
  | nil => exact fun _ _ => rfl
  | cons e r ih =>
    intro m h
    rw [List.foldl_cons, ih _ fun d hd => h d (List.mem_cons_of_mem e hd), readByte_writeBytes_of_out _ _ _ _ (h e List.mem_cons_self)]

/-- A save writes nothing outside rows 8 to 2,152 (R336, R337). -/
theorem State.readByte_withContext_of_out (s : State) (t : Nat) (k : Task) {a : Nat}
    (out : a < rowAddr t 8 ∨ rowAddr t 8 + 2145 * 1024 ≤ a) : readByte (s.withContext t k).mem a = readByte s.mem a := by
  have head : a < rowAddr t 8 ∨ rowAddr t 8 + (s.contextFrame t k ++ contextRecord (s.tile t) k (s.receives k)).length ≤ a := by
    have frame := s.length_contextFrame t k
    have record := length_contextRecord (s.tile t) k (s.receives k)
    rw [List.length_append]
    omega
  have sram : a < rowAddr t 16 ∨ rowAddr t 16 + 2048 * 1024 ≤ a := by
    rw [rowAddr_eq t 8] at out
    rw [rowAddr_eq t 16]
    omega
  have extended : ∀ e ∈ (s.tile t).extended, a < rowAddr t e.1 ∨ rowAddr t e.1 + e.2.length ≤ a := by
    intro e he
    obtain ⟨low, high⟩ := (s.tile t).extended_rows e he
    rw [rowAddr_eq t 8] at out
    rw [rowAddr_eq t e.1]
    omega
  have frames : a < rowAddr t 2145 ∨ rowAddr t 2145 + 8192 ≤ a := by
    rw [rowAddr_eq t 8] at out
    rw [rowAddr_eq t 2145]
    omega
  have body : readByte ((s.tile t).extended.foldl (fun m e => writeBytes m (rowAddr t e.1) e.2)
      (putCells (writeBytes s.mem (rowAddr t 8) (s.contextFrame t k ++ contextRecord (s.tile t) k (s.receives k)))
        (rowAddr t 16) (2048 * 1024) (s.sramCells t))) a = readByte s.mem a := by
    rw [readByte_foldl_writeBytes_of_out (fun e : Nat × List Byte => rowAddr t e.1) (·.2) a _ _ extended,
      readByte_putCells_of_out _ _ _ _ _ sram, readByte_writeBytes_of_out _ _ _ _ head]
  unfold State.withContext
  dsimp only
  split
  · rw [readByte_putCells_of_out _ _ _ _ _ frames, body]
  · exact body

end Sys2Proof.Machine
end

section
/-! PROOFS. Binding, the starts of gangs, saved contexts, checkpoint paths and resumption (R9, R25, R320, R325, R326, R335 to R341,
R372). -/

namespace Sys2Proof.Machine

/-! ### Launches and tiles under the steps -/

theorem State.launch_onLaunch_self {s : State} {serial : Nat} {l : Launch} (listed : s.launch serial = some l) (f : Launch → Launch) :
    (s.onLaunch serial f).launch serial = some (f l) := by
  unfold State.launch at listed ⊢
  simp [State.onLaunch, listed, find_insertAt]

@[simp] theorem State.tile_onLaunch (s : State) (serial : Nat) (f : Launch → Launch) (u : Nat) :
    (s.onLaunch serial f).tile u = s.tile u := by
  obtain ⟨ls, same⟩ := s.onLaunch_same serial f
  rw [same]
  rfl

@[simp] theorem State.onLaunch_mem (s : State) (serial : Nat) (f : Launch → Launch) : (s.onLaunch serial f).mem = s.mem := by
  obtain ⟨ls, same⟩ := s.onLaunch_same serial f
  rw [same]

/-- Floors posted to a tile wait for its next cycle (R365). -/
@[simp] theorem State.tile_postTo (s : State) (t u : Nat) : (s.postTo t).tile u = s.tile u := by
  unfold State.postTo
  dsimp only
  split <;> rfl

@[simp] theorem State.tile_writeCode (s : State) (t u : Nat) (code : List Word) : (s.writeCode t code).tile u = s.tile u := rfl

@[simp] theorem State.tile_countCorrected (s : State) (t store u : Nat) : (s.countCorrected t store).tile u = s.tile u := by
  unfold State.countCorrected
  dsimp only
  split
  · obtain ⟨lg, ov, same⟩ := State.logIt_same
      { s with corrected := insertAt (t * 16 + store) (look 0 (t * 16 + store) s.corrected + 1) s.corrected } 1 store t
        (look 0 (t * 16 + store) s.corrected + 1)
    rw [same]
    rfl
  · rfl

/-! ### Binding (R25, R320, R325, R326) -/

/-- Banks taken change a tile's record of their worlds alone (R18). -/
theorem State.tile_takeBanks (s : State) (t : Nat) (own : BitVec 31) (world : Bool) :
    ∃ ws, (s.takeBanks t own world).tile t = { s.tile t with worlds := ws } := by
  unfold State.takeBanks
  generalize (List.range 31).filter own.getLsbD = bs
  induction bs generalizing s with
  | nil => exact ⟨_, rfl⟩
  | cons b r ih =>
    rw [List.foldl_cons]
    obtain ⟨ws, rest⟩ := ih (s := _)
    refine ⟨ws, rest.trans ?_⟩
    rw [State.tile_onTile_self]
    repeat' split
    all_goals rfl

/-- What binding a role makes of its tile (R25, R26, R325, R326). -/
theorem State.tile_bindRole {s : State} {l : Launch} {role t : Nat} (bound : l.tiles[role]? = some t) (serial : Nat) (v : Variant) :
    ∃ (ws : Table Bool) (k : Task) (now cost cls : Nat), k.serial = serial ∧ k.role = role ∧ k.record = l.sub.record ∧
      (s.bindRole serial l v role).tile t = ({ s.tile t with worlds := ws } : Tile).bound k v.start now cost cls
        ((match s.imageOf l with | some im => im.stage | none => []) ++
          (if l.blockNo = 0 then [] else [(l.blockBase, s.blockBytes l)])) := by
  obtain ⟨ws, taken⟩ := s.tile_takeBanks t l.own l.world
  unfold State.bindRole
  rw [bound]
  dsimp only
  rw [State.tile_postTo, State.tile_onTile_self, State.tile_writeCode, taken]
  exact ⟨ws, _, _, _, _, rfl, rfl, rfl, rfl⟩

section
variable {serial : Nat} {l : Launch} {s : State} (listed : s.launch serial = some l) (granted : l.state = .binding)
  (unbound : ∀ t ∈ l.tiles, (s.tile t).runs serial = false) (raised : s.raised l.tiles = true)
include listed granted unbound raised

/-- A refusal code that applies at binding releases the grant, and its port is told (R320). -/
theorem exec_binding_refused (code : lowest (s.variantCodes l) ≠ 0) : exec (.binding serial) s =
    .next (((s.onLaunch serial fun m => { m with
      state := .refused, code := lowest (s.variantCodes l), leftAt := some s.pcc, tiles := [] }).logIt 7
        (lowest (s.variantCodes l)) serial 0).tell l.port (.refused (lowest (s.variantCodes l)))) := by
  show execBinding serial s = _
  have idle : (l.tiles.any fun t => (s.tile t).runs serial) = false := by simpa using unbound
  simp [execBinding, listed, granted, idle, raised, code]

/-- A stranded page returns it to its queue (R261). -/
theorem exec_binding_stranded (code : lowest (s.variantCodes l) = 0) (pages : s.evacuate l.own l.tiles = none) :
    exec (.binding serial) s = .next (s.onLaunch serial fun m => { m with state := .queued, tiles := [], waiting := true }) := by
  show execBinding serial s = _
  have idle : (l.tiles.any fun t => (s.tile t).runs serial) = false := by simpa using unbound
  simp [execBinding, listed, granted, idle, raised, code, pages]

/-- So do other tiles than those granted (R320). -/
theorem exec_binding_moved {n : Nat} {v : Variant} {s' : State} (code : lowest (s.variantCodes l) = 0)
    (variant : s.selected l = some (n, v)) (pages : s.evacuate l.own l.tiles = some s') (tiles : tilesOf v ≠ l.tiles) :
    exec (.binding serial) s = .next (s.onLaunch serial fun m => { m with state := .queued, tiles := [] }) := by
  show execBinding serial s = _
  have idle : (l.tiles.any fun t => (s.tile t).runs serial) = false := by simpa using unbound
  simp [execBinding, listed, granted, idle, raised, code, variant, pages, tiles]

/-- Otherwise every role is bound to its tile (R325, R326, R331). -/
theorem exec_binding_bound {n : Nat} {v : Variant} {s' : State} (code : lowest (s.variantCodes l) = 0)
    (variant : s.selected l = some (n, v)) (pages : s.evacuate l.own l.tiles = some s') (tiles : tilesOf v = l.tiles) :
    let l' : Launch := { l with variant := n, word := s.lampWord, phases := s.phases, routes := s.routes, parent := s.parent, hops := s.hops }
    let b := (List.range l'.roles).foldl (fun s r => s.bindRole serial l' v r) (s'.onLaunch serial fun _ => l')
    exec (.binding serial) s = .next ((b.notePointer serial l').traceBinding serial l') := by
  show execBinding serial s = _
  have idle : (l.tiles.any fun t => (s.tile t).runs serial) = false := by simpa using unbound
  simp [execBinding, listed, granted, idle, raised, code, variant, pages, tiles]

end

/-! ### Gangs (R9, R294, R339) -/

theorem State.tile_startMember (s : State) (t : Nat) : let y := (s.startMember t).tile t
    y.seq.phase = .running ∧ y.seq.nextAt = s.icc t ∧ y.regs = (s.tile t).regs ∧ y.st = (s.tile t).st := by
  simp [State.startMember]

theorem State.tile_startMember_of_ne {t u : Nat} (s : State) (h : u ≠ t) : (s.startMember t).tile u = s.tile u := by
  simp [State.startMember, State.tile_onTile, h]

/-- Whether a tile's task comes to issue with its gang (R9). -/
def State.comesIn (s : State) (serial t : Nat) : Bool :=
  (s.tile t).runs serial && ((s.tile t).seq.phase == .starting || (s.tile t).seq.phase == .resuming)

/-- GANG_START, once all members of an island's gang are ready (R9, R325, R339). -/
theorem exec_gangStart {serial island : Nat} {l : Launch} {s : State} (part : island < Config.islands)
    (listed : s.launch serial = some l) :
    let here := (l.tiles.filter fun t => t / 16 == island).filter (s.comesIn serial)
    here ≠ [] → (∀ t ∈ here, s.memberReady t = true) → (∀ t ∈ l.tiles, t / 16 = island → (s.tile t).saves serial = false) →
    let s' := here.foldl State.startMember s
    exec (.gangStart serial island) s = .next (s'.onLaunch serial fun m =>
      { m with state := m.afterStart (l.tiles.any (s'.comesIn serial)) (l.tiles.any fun t => (s'.tile t).saves serial)
               started := m.started ++ [island], granted := m.granted.filter (· != island) }) := by
  intro here some_ ready unsaved s'
  have comers : here.isEmpty = false := by simpa using some_
  have allReady : here.all s.memberReady = true := by simpa using ready
  have restored : ((l.tiles.filter fun t => t / 16 == island).any fun t => (s.tile t).saves serial) = false := by
    simpa [List.any_eq_false] using unsaved
  show execGangStart serial island s = _
  simp only [execGangStart, if_neg (Nat.not_le.2 part), listed]
  refine if_neg ?_
  show ¬ (here.isEmpty || !here.all s.memberReady || _) = true
  rw [comers, allReady, restored]
  decide

/-! ### Saved contexts (R335 to R338) -/

theorem State.tile_saveContext (s : State) (t : Nat) (k : Task) : let y := (s.saveContext t k).tile t
    y.task = none ∧ y.st = [] ∧ y.regs = { } ∧ y.savedOwn = k.own ∧
      ∃ k', y.saved = some k' ∧ k'.serial = k.serial ∧ k'.role = k.role := by
  unfold State.saveContext
  dsimp only
  rw [State.tile_setTile_self]
  exact ⟨rfl, rfl, rfl, rfl, _, rfl, rfl, rfl⟩

/-- A save changes its rows of b31 alone (R336). -/
theorem State.readByte_saveContext_of_out (s : State) (t : Nat) (k : Task) {a : Nat}
    (out : a < rowAddr t 8 ∨ rowAddr t 8 + 2145 * 1024 ≤ a) : readByte (s.saveContext t k).mem a = readByte s.mem a :=
  (State.readByte_withContext_of_out _ t _ out)

section
variable {t : Nat} {k : Task} {s : State} (part : t < Config.tiles) (task : (s.tile t).task = some k)
  (ready : s.suspendReady t = true)
include part task ready

theorem exec_contextSave (saves : ¬ (k.disp = true ∧ 2 ≤ k.cls ∧ k.holding = false)) : exec (.contextSave t) s =
    .next (if (s.tile t).saved.isSome then (s.parkInPlace t).settled k.serial else (s.saveContext t k).settled k.serial) := by
  have goes : ¬ (!s.suspendReady t || (k.disp && decide (2 ≤ k.cls) && !k.holding)) = true := by
    simpa [ready, and_assoc] using saves
  show execContextSave t s = _
  simp only [execContextSave, ge_iff_le, Nat.not_le.2 part, if_false, task, if_neg goes]
  split <;> rfl

/-! ### Checkpoint paths (R341) -/

/-- A tile whose task goes on at its checkpoint entry (R341). -/
def Tile.atCheckpoint (x : Tile) (k : Task) (entry now : Nat) : Tile :=
  { x with
    sys := { x.sys with pre := false, hnd := false }
    task := some { k with ckpt := true, point := 0 }
    seq := { x.seq with
      phase := .running, stall := .none, pc := entry, next := entry, after := [], closing := none
      inHand := false, issueNo := 0, hushed := false, calm := false, nextAt := now, captured := none, capture := false
      loops := x.seq.loops.map fun _ => { }, window := windowFrom (lineOf entry) now } }

theorem exec_checkpointPathEntry {v : Variant} (variant : s.variantOf k = some v) (disp : k.disp = true) (cls : 2 ≤ k.cls)
    (free : k.holding = false) : exec (.checkpointPathEntry t) s =
      .next ((s.onTile t (·.atCheckpoint k v.ckpt (s.icc t))).onLaunch k.serial fun l => { l with ckpt := true }) := by
  have goes : ¬ (!s.suspendReady t || !k.disp || decide (k.cls < 2) || k.holding) = true := by
    simp [ready, disp, free, Nat.not_lt.2 cls, -not_lt]
  show execCheckpointPathEntry t s = _
  simp only [execCheckpointPathEntry, ge_iff_le, Nat.not_le.2 part, if_false, task, variant, if_neg goes]
  rfl

end

theorem State.tile_parkInPlace (s : State) (t : Nat) : let y := (s.parkInPlace t).tile t
    y.seq.phase = .suspended ∧ y.inPlace = true ∧ y.sys.pre = false ∧ y.regs = (s.tile t).regs ∧ y.st = (s.tile t).st := by
  unfold State.parkInPlace
  dsimp only
  rw [State.tile_onTile_self]
  exact ⟨rfl, rfl, rfl, rfl, rfl⟩

/-! ### Restored contexts (R339) -/

/-- What a saved context's task finds on its tile (R338, R339). -/
theorem State.tile_restoreTile (s : State) (t : Nat) (k : Task) (cost : Nat) : let y := (s.restoreTile t k cost).tile t
    y.saved = none ∧ y.seq.phase = .resuming ∧ ∃ k', y.task = some k' ∧ k'.serial = k.serial := by
  have tile : (s.restoreTile t k cost).tile t = s.restoredTile t k cost := State.tile_setTile_self s t _
  rw [tile]
  exact ⟨rfl, rfl, _, rfl, rfl⟩

theorem State.tile_restoreTile_of_ne {t u : Nat} (s : State) (k : Task) (cost : Nat) (h : u ≠ t) :
    (s.restoreTile t k cost).tile u = s.tile u :=
  (State.tile_setTile s t _ u).trans (if_neg h)

/-- One tile of RESUME: its saved context, where it has one, goes back to it. -/
def State.resumeTile (s : State) (t : Nat) : State :=
  match (s.tile t).saved with
  | none => s
  | some k =>
    let old := match k.vault with | some v => v.2.sched.toNat | none => 2
    let code := match s.variantOf k with
      | some v => ((v.scheds.find? fun p => p.1 == old).map (·.2)).getD []
      | none => []
    let cost := codeLines code + 32768 + 262
    ((s.writeCode t code).restoreTile t k cost).postTo t

theorem State.resumeTile_of_unsaved {s : State} {t : Nat} (h : (s.tile t).saved = none) : s.resumeTile t = s := by
  simp only [State.resumeTile, h]

theorem State.tile_resumeTile_of_ne {t u : Nat} (s : State) (h : u ≠ t) : (s.resumeTile t).tile u = s.tile u := by
  unfold State.resumeTile
  split
  · rfl
  · dsimp only
    rw [State.tile_postTo, State.tile_restoreTile_of_ne _ _ _ h, State.tile_writeCode]

/-- A tile whose saved context of the launch has come back (R339). -/
def Tile.Resumed (x : Tile) (serial : Nat) : Prop :=
  x.saved = none ∧ x.seq.phase = .resuming ∧ x.runs serial = true

theorem State.resumed_resumeTile {s : State} {t serial : Nat} (h : (s.tile t).saves serial = true) :
    ((s.resumeTile t).tile t).Resumed serial := by
  unfold State.resumeTile
  split
  next unsaved => simp [Tile.saves, unsaved] at h
  next k saved =>
    dsimp only
    rw [State.tile_postTo]
    obtain ⟨gone, phase, k', task, same⟩ := State.tile_restoreTile (s.writeCode t _) t k _
    have own : k.serial = serial := by simpa [Tile.saves, saved] using h
    exact ⟨gone, phase, by simp [Tile.runs, task, same, own]⟩

theorem State.tile_foldl_resumeTile_of_not_mem {u : Nat} (ts : List Nat) (s : State) (h : u ∉ ts) :
    (ts.foldl State.resumeTile s).tile u = s.tile u := by
  induction ts generalizing s with
  | nil => rfl
  | cons t ts ih =>
    obtain ⟨ne, rest⟩ := not_or.1 (mt List.mem_cons.2 h)
    rw [List.foldl_cons, ih _ rest, s.tile_resumeTile_of_ne ne]

/-- Every tile of the list that saves the launch, or has got it back already, has it back in the end. -/
theorem State.resumed_foldl_resumeTile {serial : Nat} (ts : List Nat) (s : State)
    (h : ∀ t ∈ ts, (s.tile t).saves serial = true ∨ (s.tile t).Resumed serial) :
    ∀ t ∈ ts, ((ts.foldl State.resumeTile s).tile t).Resumed serial := by
  induction ts generalizing s with
  | nil => simp
  | cons t ts ih =>
    have head : ((s.resumeTile t).tile t).Resumed serial := by
      rcases h t (List.mem_cons_self ..) with saves | back
      · exact State.resumed_resumeTile saves
      · rwa [State.resumeTile_of_unsaved back.1]
    have tail : ∀ u ∈ ts, ((s.resumeTile t).tile u).saves serial = true ∨ ((s.resumeTile t).tile u).Resumed serial := by
      intro u mem
      by_cases eq : u = t
      · exact .inr (eq ▸ head)
      · rw [s.tile_resumeTile_of_ne eq]
        exact h u (List.mem_cons_of_mem _ mem)
    intro u mem
    by_cases later : u ∈ ts
    · exact ih _ tail u later
    · obtain rfl : u = t := (List.mem_cons.1 mem).resolve_right later
      rwa [List.foldl_cons, State.tile_foldl_resumeTile_of_not_mem _ _ later]

section
variable {serial island : Nat} {l : Launch} {s : State} (part : island < Config.islands) (listed : s.launch serial = some l)
  (state : l.state = .resuming) (granted : island ∈ l.granted)
include part listed state granted

theorem exec_resume_bad : let here := l.tiles.filter fun t => t / 16 == island && (s.tile t).saves serial
    here ≠ [] → s.raised here = true → exec (.resume serial island .bad) s =
      .next ((s.reportFault 7 1 0x74 (here.headD 0)).endLaunch serial .failed 0x74) := by
  intro here some_ raised
  have goes : ¬ (l.state != .resuming || !l.granted.contains island || here.isEmpty || !s.raised here) = true := by
    simp [state, granted, some_, raised]
  show execResume serial island .bad s = _
  simp only [execResume, if_neg (Nat.not_le.2 part), listed, if_true]
  exact if_neg goes

theorem exec_resume {err : Ecc} (good : err ≠ .bad) :
    let here := l.tiles.filter fun t => t / 16 == island && (s.tile t).saves serial
    here ≠ [] → s.raised here = true → exec (.resume serial island err) s =
      .next (here.foldl State.resumeTile (if err = .corrected then s.countCorrected (here.headD 0) storeContext else s)) := by
  intro here some_ raised
  have goes : ¬ (l.state != .resuming || !l.granted.contains island || here.isEmpty || !s.raised here) = true := by
    simp [state, granted, some_, raised]
  show execResume serial island err s = _
  simp only [execResume, if_neg (Nat.not_le.2 part), listed, if_neg good]
  exact if_neg goes

/-- A gang's saved contexts come back to its tiles of a granted island, and no other tile changes (R339). -/
theorem completes_resume {err : Ecc} (good : err ≠ .bad) :
    let here := l.tiles.filter fun t => t / 16 == island && (s.tile t).saves serial
    here ≠ [] → s.raised here = true → Completes (.resume serial island err) s fun u =>
      (∀ t ∈ here, (u.tile t).Resumed serial) ∧ ∀ t, t ∉ here → u.tile t = s.tile t := by
  intro here some_ raised
  refine ⟨_, exec_resume part listed state granted good some_ raised, ?_⟩
  have counted : ∀ t, (if err = .corrected then s.countCorrected (here.headD 0) storeContext else s).tile t = s.tile t := by
    intro t
    split
    · exact State.tile_countCorrected ..
    · rfl
  constructor
  · refine State.resumed_foldl_resumeTile here _ fun t mem => .inl ?_
    rw [counted]
    simpa using (Bool.and_eq_true_iff.1 (List.mem_filter.1 mem).2).2
  · intro t out
    rw [State.tile_foldl_resumeTile_of_not_mem _ _ out, counted]

end

/-! ### The obligation -/

/-- A refused binding keeps the tiles, and the launch's record names the code (R320). -/
theorem completes_binding_refused {serial : Nat} {l : Launch} {s : State} (listed : s.launch serial = some l)
    (granted : l.state = .binding) (unbound : ∀ t ∈ l.tiles, (s.tile t).runs serial = false) (raised : s.raised l.tiles = true)
    (code : lowest (s.variantCodes l) ≠ 0) : Completes (.binding serial) s fun u => u.tiles = s.tiles ∧
      (l.port, Told.refused (lowest (s.variantCodes l))) ∈ u.told ∧
      ∃ m, u.launch serial = some m ∧ m.state = .refused ∧ m.code = lowest (s.variantCodes l) ∧ m.tiles = [] := by
  refine ⟨_, exec_binding_refused listed granted unbound raised code, ?_⟩
  generalize mark : (fun m : Launch => { m with
    state := .refused, code := lowest (s.variantCodes l), leftAt := some s.pcc, tiles := [] }) = f
  have own := State.launch_onLaunch_self listed f
  obtain ⟨ls, same⟩ := s.onLaunch_same serial f
  obtain ⟨lg, ov, logged⟩ := State.logIt_same (s.onLaunch serial f) 7 (lowest (s.variantCodes l)) serial 0
  rw [logged]
  refine ⟨by rw [same]; rfl, List.mem_append_right _ (List.mem_singleton.2 rfl), f l, own, ?_⟩
  subst mark
  exact ⟨rfl, rfl, rfl⟩

/-- A bound role starts afresh, at its variant's entry, with its image and its block preloaded (R25, R26, R326). -/
theorem State.tile_bindRole_fresh {serial : Nat} {l : Launch} {v : Variant} {role t : Nat} {s : State} (bound : l.tiles[role]? = some t) :
    let y := (s.bindRole serial l v role).tile t
    let stage := match s.imageOf l with | some im => im.stage | none => []
    let block := if l.blockNo = 0 then [] else [(l.blockBase, s.blockBytes l)]
    y.regs = { } ∧ y.eng = { } ∧ y.seq.phase = .starting ∧ y.seq.pc = v.start ∧
      y.sys = { sfail := (s.tile t).vault.layers.toList.any (·.sfail) } ∧ y.bar.epoch = 0 ∧
      y.st = (stage ++ block).foldl (fun m p => writeBytes m p.1 p.2) [] ∧
      ∃ k, y.task = some k ∧ k.serial = serial ∧ k.role = role ∧ k.record = l.sub.record := by
  obtain ⟨ws, k, now, cost, cls, own, place, record, tile⟩ := s.tile_bindRole bound serial v
  dsimp only
  rw [tile]
  exact ⟨rfl, rfl, rfl, rfl, rfl, rfl, rfl, k, rfl, own, place, record⟩

/-- A task on its checkpoint path runs from its entry with its registers and staging as they stood (R341). -/
theorem completes_checkpointPathEntry {t : Nat} {k : Task} {v : Variant} {s : State} (part : t < Config.tiles)
    (task : (s.tile t).task = some k) (variant : s.variantOf k = some v) (ready : s.suspendReady t = true) (disp : k.disp = true)
    (cls : 2 ≤ k.cls) (free : k.holding = false) : Completes (.checkpointPathEntry t) s fun u =>
      (u.tile t).seq.pc = v.ckpt ∧ (u.tile t).seq.phase = .running ∧ (u.tile t).sys.pre = false ∧
      (u.tile t).sys.hnd = false ∧ (u.tile t).seq.loops = (s.tile t).seq.loops.map (fun _ => { }) ∧
      (u.tile t).regs = (s.tile t).regs ∧ (u.tile t).st = (s.tile t).st ∧ u.mem = s.mem ∧
      ∀ l, s.launch k.serial = some l → ∃ m, u.launch k.serial = some m ∧ m.ckpt = true := by
  refine ⟨_, exec_checkpointPathEntry part task ready variant disp cls free, ?_⟩
  simp only [State.tile_onLaunch, State.tile_onTile_self, State.onLaunch_mem]
  exact ⟨rfl, rfl, rfl, rfl, rfl, rfl, rfl, rfl, fun l listed =>
    ⟨_, State.launch_onLaunch_self (s := s.onTile t _) listed _, rfl⟩⟩

/-- Settles O44: each step is the model's own branch for the state the clause describes, and what it leaves on a tile is read off the
tile it writes last. -/
theorem bindingSteps : Obligations.BindingSteps := by
  refine ⟨?binding, ?refused, ?role, ?gang, ?member, ?save, ?saved, ?parked, ?checkpoint, ?resume⟩
  case binding =>
    intro serial l n v s' s listed granted unbound raised code variant pages
    exact ⟨exec_binding_bound listed granted unbound raised code variant pages,
      exec_binding_moved listed granted unbound raised code variant pages⟩
  case refused =>
    intro serial l s listed granted unbound raised
    exact ⟨completes_binding_refused listed granted unbound raised, exec_binding_stranded listed granted unbound raised⟩
  case role => exact fun serial l v role t s bound => State.tile_bindRole_fresh bound
  case gang => exact fun serial island l s part listed => exec_gangStart part listed
  case member =>
    intro t s
    obtain ⟨phase, next, regs, st⟩ := s.tile_startMember t
    exact ⟨phase, next, regs, st, fun u other => s.tile_startMember_of_ne other⟩
  case save =>
    intro t k s part task ready saves
    have step := exec_contextSave part task ready saves
    constructor
    · intro saved
      rw [step, saved]
      rfl
    · intro saved
      rw [step, if_pos (Option.isSome_iff_ne_none.2 saved)]
  case saved =>
    intro t k s
    obtain ⟨task, st, regs, own, saved⟩ := s.tile_saveContext t k
    exact ⟨task, st, regs, own, saved, fun a out => s.readByte_saveContext_of_out t k out⟩
  case parked =>
    intro t s
    obtain ⟨phase, place, pre, regs, st⟩ := s.tile_parkInPlace t
    exact ⟨phase, place, pre, regs, st, rfl⟩
  case checkpoint =>
    exact fun t k v s part task variant ready disp cls free => completes_checkpointPathEntry part task variant ready disp cls free
  case resume =>
    intro serial island l s part listed state granted here some_ raised
    refine ⟨fun err mem => ?_, exec_resume_bad part listed state granted some_ raised⟩
    have good : err ≠ .bad := by
      rintro rfl
      simp at mem
    obtain ⟨u, step, back, others⟩ := completes_resume part listed state granted good some_ raised
    refine ⟨u, step, back, fun t out => ?_⟩
    rw [others t out]
    exact ⟨rfl, rfl⟩

end Sys2Proof.Machine
end

section
/-! PROOFS. The encoding of slot words and its inverse (R46, R48 to R58). -/

namespace Sys2Proof

/-! ### Fields -/

theorem decodeFields_eq_ok {n : Nat} {p bits : BitVec n} {i j : Instr} : decodeFields p bits i = .ok j ↔ bits = p ∧ i = j := by
  unfold decodeFields
  split <;> simp [*]

/-- What holds of the fields that an instruction lays out holds of the word's, where the word decodes to it. -/
theorem of_decodeFields {n : Nat} {P : BitVec n → Instr → Prop} {p bits : BitVec n} {i j : Instr}
    (h : decodeFields p bits i = .ok j) (laid : P bits i) : P p j := by
  obtain ⟨rfl, rfl⟩ := decodeFields_eq_ok.1 h
  exact laid

/-- Fields that a format lays out and reads back decode to the instruction that has them. -/
theorem decodeFields_of_read {F : Type} {n : Nat} {bits : F → BitVec n} {read : BitVec n → F} (back : ∀ f, read (bits f) = f)
    (mk : F → Instr) (f : F) : decodeFields (bits f) (bits (read (bits f))) (mk (read (bits f))) = .ok (mk f) := by
  rw [back]; exact if_pos rfl

theorem checkFields_eq_ok {r : Except DecodeError Instr} {i : Instr} : checkFields r = .ok i ↔ r = .ok i ∧ i.wf = true := by
  unfold checkFields
  cases r with
  | error e => simp
  | ok j =>
    simp only [Except.ok.injEq]
    constructor
    · intro h
      split at h <;> cases h
      exact ⟨rfl, ‹_›⟩
    · rintro ⟨rfl, h⟩
      exact if_pos h

theorem decodeNop_eq_ok {p : BitVec 50} {rsv : Nat} {i j : Instr} : decodeNop p rsv i = .ok j ↔ p = 0 ∧ i = j := by
  unfold decodeNop
  split
  · next h => simp [h]
  · next h => split <;> simp [show ¬p = 0#50 from h]

@[simp] theorem SI.bits_ofBits (p : BitVec 50) : (SI.ofBits p).bits = p := by
  unfold SI.bits SI.ofBits
  rw [BitVec.extractLsb'_append_extractLsb'_eq_extractLsb' (start₂ := 45) (start₁ := 40) rfl,
    BitVec.extractLsb'_append_extractLsb'_eq_extractLsb' (start₂ := 40) (start₁ := 0) rfl]
  exact BitVec.extractLsb'_eq_self

@[simp] theorem XV.bits_ofBits (p : BitVec 26) : (XV.ofBits p).bits = p := by
  unfold XV.bits XV.ofBits
  rw [BitVec.extractLsb'_append_extractLsb'_eq_extractLsb' (start₂ := 17) (start₁ := 8) rfl,
    BitVec.extractLsb'_append_extractLsb'_eq_extractLsb' (start₂ := 8) (start₁ := 0) rfl]
  exact BitVec.extractLsb'_eq_self

theorem decodeLih_eq_ok {p : BitVec 50} {i : Instr} :
    decodeLih p = .ok i ↔ (SI.ofBits p).imm.toNat < 0x1000000 ∧ .lih (SI.ofBits p) = i := by
  unfold decodeLih
  split <;> simp [*]

/-- A word of one field above `n` reserved bits reads back (R50, R55). -/
theorem decodeFields_oneField {m n : Nat} (a : BitVec m) (mk : BitVec m → Instr) :
    decodeFields (a ++ 0#n) ((a ++ 0#n).extractLsb' n m ++ 0#n) (mk ((a ++ 0#n).extractLsb' n m)) = .ok (mk a) :=
  decodeFields_of_read (bits := fun b : BitVec m => b ++ 0#n) (fun _ => BitVec.extractLsb'_append_eq_left) mk a

/-- A word of two fields above `n` reserved bits reads back (R50). -/
theorem decodeFields_twoFields {k m n : Nat} (a : BitVec k) (b : BitVec m) (mk : BitVec k → BitVec m → Instr) :
    decodeFields (a ++ b ++ 0#n)
      ((a ++ b ++ 0#n).extractLsb' (n + m) k ++ (a ++ b ++ 0#n).extractLsb' n m ++ 0#n)
      (mk ((a ++ b ++ 0#n).extractLsb' (n + m) k) ((a ++ b ++ 0#n).extractLsb' n m)) = .ok (mk a b) := by
  have upper : (a ++ b ++ 0#n).extractLsb' (n + m) k = a := by
    rw [BitVec.extractLsb'_append_eq_of_le (Nat.le_add_right n m), Nat.add_sub_cancel_left]
    exact BitVec.extractLsb'_append_eq_left
  have lower : (a ++ b ++ 0#n).extractLsb' n m = b := by
    rw [BitVec.extractLsb'_append_eq_of_le (Nat.le_refl n), Nat.sub_self]
    exact BitVec.extractLsb'_append_eq_right
  rw [upper, lower]
  exact if_pos rfl

/-- The bits below `n` of a word whose lowest `n` bits are 0 (R216). -/
theorem shiftRight_shiftLeft_of_low {w n : Nat} {a : BitVec w} (h : a.extractLsb' 0 n = 0) : a >>> n <<< n = a := by
  apply BitVec.eq_of_getLsbD_eq; intro i hi
  rw [BitVec.getLsbD_shiftLeft, BitVec.getLsbD_ushiftRight]
  by_cases low : i < n
  · have zero : (a.extractLsb' 0 n).getLsbD i = false := by rw [h]; exact BitVec.getLsbD_zero
    rw [BitVec.getLsbD_extractLsb', Nat.zero_add] at zero
    simpa [low] using zero
  · rw [Nat.add_sub_of_le (Nat.le_of_not_lt low)]
    simp [low, hi]

theorem decodeXV_of_low {n : Nat} {f : XV} {mk : XV → Instr} (h : f.low.extractLsb' 0 n = 0) : decodeXV n f.bits mk = .ok (mk f) := by
  unfold decodeXV
  simp only [XV.ofBits_bits, shiftRight_shiftLeft_of_low h]
  exact if_pos rfl

/-! ### Words -/

/-- The decoder of a slot's 64-bit words, from their opcode and fields (R48). -/
def decodeWide : Slot → Nat → BitVec 50 → Except DecodeError Instr
  | .s => decodeS
  | .v0 | .v1 => decodeV
  | .m => decodeM
  | .c0 | .c1 => decodeC
  | .d | .x => fun _ _ => .error .undefinedOpcode

/-- A slot's decoder reads an instruction back from the opcode and the fields that the encoder gives it. -/
def ReadsBack (i : Instr) : Slot → Prop
  | .d => ∃ (op : BitVec 5) (p : BitVec 27), encodeFields i = none ∧ encodeD i = some (op ++ p) ∧ decodeD op.toNat p = .ok i
  | .x => ∃ (op : BitVec 6) (p : BitVec 26), encodeFields i = none ∧ encodeD i = none ∧ encodeX i = some (op ++ p) ∧
      decodeX op.toNat p = .ok i
  | sl => ∃ op p, encodeFields i = some (op, p) ∧ decodeWide sl op.toNat p = .ok i

theorem readsBack_of_wf {i : Instr} {sl : Slot} (wf : i.wf = true) (slot : slotFor i = some sl) : ReadsBack i sl := by
  cases i <;> cases slot
  case add f | sub f | mul f | mulhs f | mulhu f | div f | divu f | rem f | remu f | and f | or f | xor f | andn f | shl f |
    shr f | sar f | rol f | min f | max f | minu f | maxu f | clz f | ctz f | popc f | bswap f =>
    exact ⟨_, _, rfl, decodeFields_of_read SR.ofBits_bits _ f⟩
  case addi f | subi f | muli f | mulhsi f | mulhui f | divi f | divui f | remi f | remui f | andi f | ori f | xori f |
    andni f | shli f | shri f | sari f | roli f | mini f | maxi f | minui f | maxui f =>
    exact ⟨_, _, rfl, decodeFields_of_read SI.ofBits_bits _ f⟩
  case cmpeq f | cmpne f | cmplt f | cmple f | cmpltu f | cmpleu f => exact ⟨_, _, rfl, decodeFields_of_read SP.ofBits_bits _ f⟩
  case cmpeqi f | cmpnei f | cmplti f | cmplei f | cmpltui f | cmpleui f =>
    exact ⟨_, _, rfl, decodeFields_of_read SPI.ofBits_bits _ f⟩
  case pand f | por f | pxor f | pnot f => exact ⟨_, _, rfl, decodeFields_of_read SQ.ofBits_bits _ f⟩
  case agset f | agget f => exact ⟨_, _, rfl, decodeFields_of_read SG.ofBits_bits _ f⟩
  case loop f => exact ⟨_, _, rfl, decodeFields_of_read SL.ofBits_bits _ f⟩
  case prep f | prepr f => exact ⟨_, _, rfl, decodeFields_of_read SB.ofBits_bits _ f⟩
  case ld f | st f | stadd f | stand f | stor f | stxor f | stmin f | stmax f | stminu f | stmaxu f | stfadd f | stfmin f |
    stfmax f | ldadd f | ldand f | ldor f | ldxor f | ldmin f | ldmax f | ldminu f | ldmaxu f | ldfadd f | ldfmin f |
    ldfmax f | swp f | cas f | waita f =>
    exact ⟨_, _, rfl, decodeFields_of_read SM.ofBits_bits _ f⟩
  case mfsr f | mtsr f | mssr f | mcsr f => exact ⟨_, _, rfl, decodeFields_of_read SS.ofBits_bits _ f⟩
  case vadd f | vsub f | vmul f | vfma f | vfms f | vfnma f | vmin f | vmax f | vabs f | vneg f | vdiv f | vsqrt f | vrcp f |
    vrsq f | vexp2 f | vlog2 f | viadd f | visub f | vimul f | vimin f | vimax f | viminu f | vimaxu f | vand f | vor f |
    vxor f | vshl f | vshr f | vsar f | viadds f | visubs f | vadd128 f | vsel f | vperm f | vbcst f | vcompact f | vexpand f |
    vmovs f | vrsum f | vrmax f | vrmin f | vscan f | virsum f | vrng f | dadd f | dsub f | dmul f | ddiv f | dqua f =>
    exact ⟨_, _, rfl, decodeFields_of_read VR.ofBits_bits _ f⟩
  case vcmpeq f | vcmpne f | vcmplt f | vcmple f | vcmpun f | vicmplt f | vicmpltu f | dcmpeq f | dcmplt f | dcmple f =>
    exact ⟨_, _, rfl, decodeFields_of_read VK.ofBits_bits _ f⟩
  case mand f | mor f | mxor f | mnot f | mpop f | mset f => exact ⟨_, _, rfl, decodeFields_of_read VQ.ofBits_bits _ f⟩
  case vld f | vst f | vgath f | vscat f | vstadd f | vstmin f | vstmax f | vstfadd f | vstfmin f | vstfmax f | vldadd f |
    vldmin f | vldmax f =>
    exact ⟨_, _, rfl, decodeFields_of_read VM.ofBits_bits _ f⟩
  case defer f | drain f | drainp f => exact ⟨_, _, rfl, decodeFields_of_read VD.ofBits_bits _ f⟩
  case vcvt f | vqnt f | dcvtb f | dcvtd f => exact ⟨_, _, rfl, decodeFields_of_read VC.ofBits_bits _ f⟩
  case mgath f | mldw f => exact ⟨_, _, rfl, decodeFields_of_read MG.ofBits_bits _ f⟩
  case mma f => exact ⟨_, _, rfl, decodeFields_of_read MA.ofBits_bits _ f⟩
  case mmad f => exact ⟨_, _, rfl, decodeFields_of_read MD.ofBits_bits _ f⟩
  case mrd f | mwr f | mzero f => exact ⟨_, _, rfl, decodeFields_of_read MR.ofBits_bits _ f⟩
  case mstat f => exact ⟨_, _, rfl, decodeFields_of_read MS.ofBits_bits _ f⟩
  case cloc f | cisl f | cgrd f | cgwr f | cfill f | cxpos f | cdec f | cfeed f | cgath f =>
    exact ⟨_, _, rfl, decodeFields_of_read CW.ofBits_bits _ f⟩
  case lih f =>
    refine ⟨_, _, rfl, decodeLih_eq_ok.2 ?_⟩
    rw [SI.ofBits_bits]
    exact ⟨of_decide_eq_true wf, rfl⟩
  case albegin g => exact ⟨_, _, rfl, decodeFields_oneField g .albegin⟩
  case fence sel => exact ⟨_, _, rfl, decodeFields_oneField sel .fence⟩
  case waits sel => exact ⟨_, _, rfl, decodeFields_oneField sel .waits⟩
  case trap imm => exact ⟨_, _, rfl, decodeFields_oneField imm .trap⟩
  case mode gm er => exact ⟨_, _, rfl, decodeFields_eq_ok.2 (by simp only [BitVec.getLsbD_append]; simp)⟩
  case clkdiv eng n1 => exact ⟨_, _, rfl, decodeFields_twoFields eng n1 .clkdiv⟩
  case yieldchk pd mask => exact ⟨_, _, rfl, decodeFields_twoFields pd mask .yieldchk⟩
  case sNop | alend | endTask | tret => exact ⟨_, _, rfl, rfl⟩
  case vNop | mNop | cNop => exact ⟨_, _, rfl, rfl⟩
  case act f => exact ⟨0x01, _, rfl, rfl, decodeFields_of_read DA.ofBits_bits _ f⟩
  case rd f => exact ⟨0x02, _, rfl, rfl, decodeFields_of_read DC.ofBits_bits _ f⟩
  case wr f => exact ⟨0x03, _, rfl, rfl, decodeFields_of_read DC.ofBits_bits _ f⟩
  case pre b => exact ⟨0x04, _, rfl, rfl, decodeFields_oneField b .pre⟩
  case refpb b => exact ⟨0x06, _, rfl, rfl, decodeFields_oneField b .refpb⟩
  case dNop | prea => exact ⟨_, _, rfl, rfl, rfl⟩
  case xNop => exact ⟨_, _, rfl, rfl, rfl, rfl⟩
  case xdrf f => exact ⟨_, _, rfl, rfl, rfl, decodeFields_of_read XF.ofBits_bits _ f⟩
  case xunp4 f | xpose f =>
    obtain ⟨front, -⟩ := Bool.and_eq_true_iff.1 wf
    obtain ⟨-, low⟩ := Bool.and_eq_true_iff.1 front
    exact ⟨_, _, rfl, rfl, rfl, decodeXV_of_low (eq_of_beq low)⟩
  case xcvt f => exact ⟨_, _, rfl, rfl, rfl, decodeXV_of_low (BitVec.of_length_zero ..)⟩
  case xmx f =>
    obtain ⟨-, low⟩ := Bool.and_eq_true_iff.1 wf
    exact ⟨_, _, rfl, rfl, rfl, decodeXV_of_low (eq_of_beq low)⟩

/-! ### The inverse -/

/-- An instruction of a slot whose encoding has this opcode and these fields. -/
def EncodedAs (sl : Slot) (op : Nat) (p : BitVec 50) (i : Instr) : Prop :=
  slotFor i = some sl ∧ encodeFields i = some (BitVec.ofNat 10 op, p)

theorem EncodedAs.of_decodeNop {sl : Slot} {op rsv : Nat} {p : BitVec 50} {i j : Instr} (h : decodeNop p rsv i = .ok j)
    (enc : EncodedAs sl op 0 i) : EncodedAs sl op p j := by
  obtain ⟨rfl, rfl⟩ := decodeNop_eq_ok.1 h
  exact enc

theorem EncodedAs.of_decodeLih {p : BitVec 50} {i : Instr} (h : decodeLih p = .ok i) : EncodedAs .s 0x070 p i := by
  obtain ⟨-, rfl⟩ := decodeLih_eq_ok.1 h
  exact ⟨rfl, congrArg (fun q => some (0x070#10, q)) (SI.bits_ofBits p)⟩

/-- Of the S slot's opcodes LIH alone checks its fields by a rule of its own (R113); the last case is every other opcode. -/
theorem encodedAs_of_decodeS {op : Nat} {p : BitVec 50} {i : Instr} (h : decodeS op p = .ok i) : EncodedAs .s op p i := by
  unfold decodeS at h
  split at h
  case h_48 => exact .of_decodeLih h
  case h_111 => cases h
  all_goals exact of_decodeFields h ⟨rfl, rfl⟩

/-- In the V, M and C slots opcode 0 is the wait instruction, of format NOP (R52 to R54); the last case is every other opcode. -/
theorem encodedAs_of_decodeV {op : Nat} {p : BitVec 50} {i : Instr} (h : decodeV op p = .ok i) : EncodedAs .v0 op p i := by
  unfold decodeV at h
  split at h
  case h_1 => exact .of_decodeNop h ⟨rfl, rfl⟩
  case h_87 => cases h
  all_goals exact of_decodeFields h ⟨rfl, rfl⟩

theorem encodedAs_of_decodeM {op : Nat} {p : BitVec 50} {i : Instr} (h : decodeM op p = .ok i) : EncodedAs .m op p i := by
  unfold decodeM at h
  split at h
  case h_1 => exact .of_decodeNop h ⟨rfl, rfl⟩
  case h_10 => cases h
  all_goals exact of_decodeFields h ⟨rfl, rfl⟩

theorem encodedAs_of_decodeC {op : Nat} {p : BitVec 50} {i : Instr} (h : decodeC op p = .ok i) : EncodedAs .c0 op p i := by
  unfold decodeC at h
  split at h
  case h_1 => exact .of_decodeNop h ⟨rfl, rfl⟩
  case h_11 => cases h
  all_goals exact of_decodeFields h ⟨rfl, rfl⟩

/-- A D instruction whose encoding has this opcode and these fields. -/
def EncodedAsD (op : Nat) (p : BitVec 27) (i : Instr) : Prop :=
  slotFor i = some .d ∧ encodeFields i = none ∧ encodeD i = some (BitVec.ofNat 5 op ++ p)

/-- An X instruction whose encoding has this opcode and these fields. -/
def EncodedAsX (op : Nat) (p : BitVec 26) (i : Instr) : Prop :=
  slotFor i = some .x ∧ encodeFields i = none ∧ encodeD i = none ∧ encodeX i = some (BitVec.ofNat 6 op ++ p)

theorem encodedAsD_of_decodeD {op : Nat} {p : BitVec 27} {i : Instr} (h : decodeD op p = .ok i) : EncodedAsD op p i := by
  unfold decodeD at h
  split at h
  case h_8 => cases h
  all_goals exact of_decodeFields h ⟨rfl, rfl, rfl⟩

theorem EncodedAsX.of_decodeXV {op n : Nat} {p : BitVec 26} {mk : XV → Instr} {i : Instr} (h : decodeXV n p mk = .ok i)
    (enc : ∀ f : XV, EncodedAsX op f.bits (mk f)) : EncodedAsX op p i := by
  have laid := enc (XV.ofBits p)
  rwa [XV.bits_ofBits, (decodeFields_eq_ok.1 h).2] at laid

theorem encodedAsX_of_decodeX {op : Nat} {p : BitVec 26} {i : Instr} (h : decodeX op p = .ok i) : EncodedAsX op p i := by
  unfold decodeX at h
  split at h
  case h_7 => cases h
  case h_1 | h_3 => exact of_decodeFields h ⟨rfl, rfl, rfl, rfl⟩
  all_goals exact .of_decodeXV h fun _ => ⟨rfl, rfl, rfl, rfl⟩

/-! ### Words laid out as R48 and R49 have them -/

theorem encode_wide {i : Instr} {op : BitVec 10} {p : BitVec 50} (g : Guard) (h : encodeFields i = some (op, p)) :
    encode g i = some (op ++ BitVec.ofBool g.gn ++ g.gp ++ p) := by
  unfold encode; rw [h]

theorem encode_d {i : Instr} {w : BitVec 32} (g : Guard) (h : encodeFields i = none) (hd : encodeD i = some w) :
    encode g i = some (w.setWidth 64) := by
  unfold encode; rw [h, hd]

theorem encode_x {i : Instr} {w : BitVec 32} (g : Guard) (h : encodeFields i = none) (hd : encodeD i = none) (hx : encodeX i = some w) :
    encode g i = some (w.setWidth 64) := by
  unfold encode; rw [h, hd, hx]; rfl

/-- The opcode and the fields of a 32-bit word, as its slot reads them from the granule's low half. -/
theorem narrow_parts {k n : Nat} (half : k + n = 32) (op : BitVec k) (p : BitVec n) :
    ((op ++ p).setWidth 64).toNat / 2 ^ n % 2 ^ k = op.toNat ∧ ((op ++ p).setWidth 64).extractLsb' 0 n = p := by
  constructor
  · have fits : (op ++ p).toNat < 2 ^ 64 := (op ++ p).isLt.trans_le (Nat.pow_le_pow_right (by omega) (by omega))
    rw [BitVec.toNat_setWidth, Nat.mod_eq_of_lt fits, Machine.toNat_append_eq_add, Nat.add_comm,
      Nat.add_mul_div_right _ _ (Nat.two_pow_pos n), Nat.div_eq_of_lt p.isLt, Nat.zero_add, Nat.mod_eq_of_lt op.isLt]
  · rw [BitVec.extractLsb'_setWidth_of_le (by omega)]
    exact BitVec.extractLsb'_append_eq_right

/-- The low half of a word is the opcode and the fields that a D or X slot reads. -/
theorem narrow_word (k n : Nat) (w : Word) :
    BitVec.ofNat k (w.toNat / 2 ^ n % 2 ^ k) ++ w.extractLsb' 0 n = w.extractLsb' 0 (k + n) := by
  have opcode : BitVec.ofNat k (w.toNat / 2 ^ n % 2 ^ k) = w.extractLsb' n k := by
    apply BitVec.eq_of_toNat_eq
    simp [BitVec.extractLsb'_toNat, Nat.shiftRight_eq_div_pow]
  rw [opcode]
  exact BitVec.extractLsb'_append_extractLsb'_eq_extractLsb' (Nat.zero_add n).symm

theorem decodeWord_wide {sl : Slot} (w : Word) (d : sl ≠ .d) (x : sl ≠ .x) :
    decodeWord sl w = checkFields (decodeWide sl (w.toNat / 2 ^ 54) (w.extractLsb' 0 50)) := by
  cases sl
  case d => exact absurd rfl d
  case x => exact absurd rfl x
  all_goals rfl

theorem guardOf_wide {sl : Slot} (w : Word) (d : sl ≠ .d) (x : sl ≠ .x) : guardOf sl w = ⟨w.getLsbD 53, w.extractLsb' 50 3⟩ := by
  cases sl
  case d => exact absurd rfl d
  case x => exact absurd rfl x
  all_goals rfl

theorem ReadsBack.wide {i : Instr} {sl : Slot} (h : ReadsBack i sl) (d : sl ≠ .d) (x : sl ≠ .x) :
    ∃ op p, encodeFields i = some (op, p) ∧ decodeWide sl op.toNat p = .ok i := by
  cases sl
  case d => exact absurd rfl d
  case x => exact absurd rfl x
  all_goals exact h

/-- The first slot that takes what a slot takes: V1 and C1 share V0's and C0's decoder. -/
def firstSlot (sl : Slot) : Slot := if sl = .v1 then .v0 else if sl = .c1 then .c0 else sl

theorem encodedAs_of_decodeWide {sl : Slot} {op : Nat} {p : BitVec 50} {i : Instr} (h : decodeWide sl op p = .ok i) :
    EncodedAs (firstSlot sl) op p i := by
  cases sl with
  | s => exact encodedAs_of_decodeS h
  | v0 | v1 => exact encodedAs_of_decodeV h
  | m => exact encodedAs_of_decodeM h
  | c0 | c1 => exact encodedAs_of_decodeC h
  | d | x => cases h

/-! ### The obligations -/

/-- Settles O50: every opcode of a slot reads its own encoder's fields back, and a word's opcode, fields and guard are its parts. -/
theorem encodingsDecode : Obligations.EncodingsDecode := by
  intro g i wf sl slot
  have back := readsBack_of_wf wf slot
  by_cases d : sl = .d
  · subst d
    obtain ⟨op, p, fields, word, dec⟩ := back
    obtain ⟨opcode, operands⟩ := narrow_parts (by decide) op p
    refine ⟨_, encode_d g fields word, checkFields_eq_ok.2 ⟨?_, wf⟩, rfl⟩
    exact (congrArg₂ decodeD opcode operands).trans dec
  by_cases x : sl = .x
  · subst x
    obtain ⟨op, p, fields, notD, word, dec⟩ := back
    obtain ⟨opcode, operands⟩ := narrow_parts (by decide) op p
    refine ⟨_, encode_x g fields notD word, checkFields_eq_ok.2 ⟨?_, wf⟩, rfl⟩
    exact (congrArg₂ decodeX opcode operands).trans dec
  obtain ⟨op, p, fields, dec⟩ := back.wide d x
  obtain ⟨gn, gp⟩ := word_guard op g.gn g.gp p
  refine ⟨_, encode_wide g fields, ?_, ?_⟩
  · rw [decodeWord_wide _ d x, word_opcode, word_fields, checkFields_eq_ok]
    exact ⟨dec, wf⟩
  · rw [guardOf_wide _ d x, gn, gp, if_neg (not_or.2 ⟨d, x⟩)]

/-- Settles O51: what a slot's decoder answers has the word's opcode and fields as its encoding, and these and the guard make up the
word. -/
theorem decodedWordsEncode : Obligations.DecodedWordsEncode := by
  intro sl w i h
  by_cases d : sl = .d
  · subst d
    obtain ⟨dec, wf⟩ := checkFields_eq_ok.1 h
    obtain ⟨slot, fields, word⟩ := encodedAsD_of_decodeD dec
    refine ⟨wf, slot, ?_⟩
    rw [encode_d _ fields word]
    exact congrArg (fun v : BitVec 32 => some (v.setWidth 64))
      ((narrow_word 5 27 w).trans (BitVec.setWidth_eq_extractLsb' (by decide)).symm)
  by_cases x : sl = .x
  · subst x
    obtain ⟨dec, wf⟩ := checkFields_eq_ok.1 h
    obtain ⟨slot, fields, notD, word⟩ := encodedAsX_of_decodeX dec
    refine ⟨wf, slot, ?_⟩
    rw [encode_x _ fields notD word]
    exact congrArg (fun v : BitVec 32 => some (v.setWidth 64))
      ((narrow_word 6 26 w).trans (BitVec.setWidth_eq_extractLsb' (by decide)).symm)
  rw [decodeWord_wide w d x] at h
  obtain ⟨dec, wf⟩ := checkFields_eq_ok.1 h
  obtain ⟨slot, fields⟩ := encodedAs_of_decodeWide dec
  refine ⟨wf, slot, ?_⟩
  have opcode : BitVec.ofNat 10 (w.toNat / 2 ^ 54) = w.extractLsb' 54 10 := by
    apply BitVec.eq_of_toNat_eq
    simp [BitVec.extractLsb'_toNat, Nat.shiftRight_eq_div_pow]
  rw [encode_wide _ fields, guardOf_wide w d x, opcode, word_parts, if_neg (not_or.2 ⟨d, x⟩)]

/-- Settles O49: the decoder computes on each of the words. -/
theorem specifiedWordsDecode : Obligations.SpecifiedWordsDecode := by
  unfold Obligations.SpecifiedWordsDecode
  decide

end Sys2Proof
end

section
/-! PROOFS. The issue of a bundle (R42, R43, R45, R58, R141). -/

namespace Sys2Proof.Machine

/-- What the bundles before have set is in force for the next one: its divisors and its target entries (R122, R141). -/
def State.takenOver (s : State) (t : Nat) : State := s.onTile t fun x => x.newDivisors.newEntries

theorem State.phase_of_mayIssue {s : State} {t : Nat} (h : s.mayIssue t = true) : (s.tile t).seq.phase = .running := by
  simp only [State.mayIssue, Bool.and_eq_true, beq_iff_eq] at h
  obtain ⟨⟨⟨⟨⟨⟨⟨-, running⟩, -⟩, -⟩, -⟩, -⟩, -⟩, -⟩ := h
  exact running

section
variable {s : State} {t : Nat}

theorem State.issueNext_first (fresh : (s.tile t).seq.inHand = false)
    (holds : ((s.takenOver t).tile t).seq.holds (s.tile t).seq.pc = true) :
    s.issueNext t .clean = ((s.takenOver t).beginBundle t).issueFirst t .clean := by
  have taken : (s.onTile t fun x => if x.seq.inHand then x else x.newDivisors.newEntries) = s.takenOver t :=
    congrArg (s.setTile t) (if_neg (by simp [fresh]))
  have stays : ((s.takenOver t).tile t).seq.inHand = false := by
    unfold State.takenOver
    rwa [State.tile_onTile_self]
  have here : ((s.takenOver t).tile t).seq.holds ((s.takenOver t).tile t).seq.pc = true := by
    rw [← holds]
    unfold State.takenOver
    rw [State.tile_onTile_self]
    rfl
  unfold State.issueNext
  simp only [taken, stays, here]
  rfl

theorem exec_bundleIssue_first (part : t < Config.tiles) (may : s.mayIssue t = true) (calm : (s.tile t).seq.checks = [])
    (fresh : (s.tile t).seq.inHand = false) (holds : ((s.takenOver t).tile t).seq.holds (s.tile t).seq.pc = true) :
    exec (.bundleIssue t .clean) s = .next (((s.takenOver t).beginBundle t).issueFirst t .clean).nextFree := by
  show execBundleIssue t .clean s = _
  unfold execBundleIssue
  rw [if_neg (by omega), if_neg (by simp [may])]
  simp only [State.settle_of_no_checks calm, State.phase_of_mayIssue may, State.issueNext_first fresh holds]
  rfl

theorem State.issueFirst_suppressed (head : s.headFault t (s.tile t).seq.pc = none)
    (admits : headAdmits (s.headAt t (s.tile t).seq.pc) (s.tile t).seq.loops = false) : s.issueFirst t .clean = s.issueHushed t := by
  unfold State.issueFirst
  simp [head, admits]

theorem State.issueFirst_admitted (head : s.headFault t (s.tile t).seq.pc = none)
    (admits : headAdmits (s.headAt t (s.tile t).seq.pc) (s.tile t).seq.loops = true) :
    s.issueFirst t .clean = s.issueSlots t (s.headAt t (s.tile t).seq.pc)
      ((s.headAt t (s.tile t).seq.pc).words (s.granulesAt t (s.tile t).seq.pc (s.headAt t (s.tile t).seq.pc))).1
      (if s.isEntry t (s.tile t).seq.pc then (s.tile t).seq.latches.map fun _ => { } else (s.tile t).seq.latches) := by
  unfold State.issueFirst
  simp [head, admits]

/-- The latches that a plan of the eight slots sets (R45). -/
def plannedLatches (ps : List SlotPlan) : Vector Latch 8 :=
  Vector.ofFn fun k : Fin 8 => match ps[k.val]? with | some p => p.latch | none => { }

/-- The operations that a plan sends out. -/
def plannedOps (ps : List SlotPlan) : List (Nat × Nat × Instr) :=
  ps.filterMap fun p => p.op.map fun i => (p.slot.num, p.latch.index.toNat, i)

/-- The sequencer of a tile that holds a vault as it stands, with an issue of a bundle gone out. -/
def State.sentSeq (s : State) (t : Nat) (h : Head) (q : Seq) : Seq :=
  { q with snap := some ⟨s.icc t, s.pcc, (s.tile t).vault⟩ }.issued (s.icc t) ((s.tile t).divisor 0) (8 * h.granules)
    (postOps h t q.calm)

/-- The state in which a bundle's issue has sent its operations out. -/
def State.sentOut (s : State) (t : Nat) (h : Head) (ps : List SlotPlan) : State :=
  { ((s.onSeq t fun q => { q with latches := plannedLatches ps }).onSeq t (s.sentSeq t h)).focusOn t 0 0 (s.tile t).seq.pc true with
    out := plannedOps ps }

theorem State.issueSlots_out {h : Head} {ws : List (Slot × Word)} {ls : Vector Latch 8}
    (waits : s.planWaits t ls ws = false) (sources : s.planSources t (s.tile t).seq.pc (s.planAll t ls ws) = false)
    (decodes : s.planDecode t (s.tile t).seq.pc (s.planAll t ls ws) = none) (kind : s.kindFault t h ls = none)
    (stalls : s.planStalls t (s.tile t).seq.pc (s.planAll t ls ws) = false)
    (sound : s.planFault t (s.tile t).seq.pc (s.planAll t ls ws) = none) :
    s.issueSlots t h ws ls = s.sentOut t h (s.planAll t ls ws) := by
  unfold State.issueSlots
  simp only [waits, sources, decodes, kind, stalls, sound]
  rfl

theorem State.tile_sentOut (s : State) (t : Nat) (h : Head) (ps : List SlotPlan) : let x := (s.sentOut t h ps).tile t
    x.seq.latches = plannedLatches ps ∧ x.seq.issuedAt = s.icc t ∧ x.seq.nextAt = s.icc t + (s.tile t).divisor 0 ∧
      x.seq.last = (s.tile t).seq.pc ∧ x.regs = (s.tile t).regs := by
  have sent : (s.sentOut t h ps).tile t =
      ((s.onSeq t fun q => { q with latches := plannedLatches ps }).onSeq t (s.sentSeq t h)).tile t := rfl
  rw [sent, State.onSeq_eq, State.onSeq_eq, State.tile_onTile_self, State.tile_onTile_self]
  exact ⟨rfl, rfl, rfl, rfl, rfl⟩

theorem State.tile_issueHushed (s : State) (t : Nat) : let x := (s.issueHushed t).tile t
    x.seq.latches = (s.tile t).seq.latches ∧ x.seq.issuedAt = s.icc t ∧
      x.seq.after = if (s.tile t).seq.issueNo < (s.tile t).seq.reps then [] else [.loopEnd t 0] := by
  have sent : (s.issueHushed t).tile t = _ := State.tile_onTile_self ..
  rw [sent]
  refine ⟨rfl, rfl, ?_⟩
  simp only [Seq.issued]

/-- The bundle begun changes only what its sequencer knows of its issues and of the next bundle (R38, R42). -/
theorem State.tile_beginBundle (s : State) (t : Nat) : ∃ a, (s.beginBundle t).tile t = { s.tile t with
    seq := { (s.tile t).seq with issueNo := 0, reps := (s.headAt t (s.tile t).seq.pc).reps.toNat, next := a } } := by
  unfold State.beginBundle
  exact ⟨_, State.tile_onTile_self ..⟩

theorem State.tile_takenOver (s : State) (t : Nat) : (s.takenOver t).tile t = (s.tile t).newDivisors.newEntries :=
  State.tile_onTile_self ..

/-- What the tile keeps from before its bundle is begun. -/
theorem State.begun_keeps (s : State) (t : Nat) : let x := ((s.takenOver t).beginBundle t).tile t
    x.seq.pc = (s.tile t).seq.pc ∧ x.seq.latches = (s.tile t).seq.latches ∧ x.regs = (s.tile t).regs ∧
      x.divisor 0 = ((s.takenOver t).tile t).divisor 0 ∧ x.seq.issueNo = 0 ∧
      x.seq.reps = (((s.takenOver t).beginBundle t).headAt t x.seq.pc).reps.toNat := by
  obtain ⟨a, begun⟩ := (s.takenOver t).tile_beginBundle t
  rw [begun, State.tile_takenOver]
  exact ⟨rfl, rfl, rfl, rfl, rfl, rfl⟩

end

/-- Settles O23: the first issue comes to the slots of the bundle, or to a suppressed issue, through the checks that its head passes. -/
theorem bundleIssueSteps : Obligations.BundleIssueSteps := by
  refine ⟨?admitted, ?suppressed⟩
  case admitted =>
    intro t s part may calm fresh b holds s' q h ls ws ps head admits waits sources decodes kind stalls sound
    have sends := (State.issueFirst_admitted head admits).trans (State.issueSlots_out waits sources decodes kind stalls sound)
    have step := (exec_bundleIssue_first part may calm fresh holds).trans (congrArg (Host.Outcome.next ·.nextFree) sends)
    obtain ⟨pc, -, regs, div, -, -⟩ := s.begun_keeps t
    obtain ⟨latches, issuedAt, nextAt, last, kept⟩ := s'.tile_sentOut t h ps
    refine ⟨_, step, ?_⟩
    beta_reduce
    rw [State.tile_nextFree]
    exact ⟨rfl, by rw [← pc]; rfl, latches, issuedAt, nextAt.trans (congrArg (s.icc t + ·) div), last.trans pc, kept.trans regs⟩
  case suppressed =>
    intro t s part may calm fresh b holds s' q head admits
    have step := (exec_bundleIssue_first part may calm fresh holds).trans
      (congrArg (Host.Outcome.next ·.nextFree) (State.issueFirst_suppressed head admits))
    obtain ⟨-, latches, -, -, issueNo, reps⟩ := s.begun_keeps t
    obtain ⟨kept, issuedAt, after⟩ := s'.tile_issueHushed t
    have more : (s'.tile t).seq.issueNo < (s'.tile t).seq.reps ↔ 0 < (s'.headAt t q.pc).reps.toNat :=
      iff_of_eq (congrArg₂ (· < ·) issueNo reps)
    refine ⟨_, step, ?_⟩
    beta_reduce
    rw [State.tile_nextFree]
    exact ⟨rfl, kept.trans latches, issuedAt, after.trans (if_congr more rfl rfl)⟩

end Sys2Proof.Machine
end

section
/-! PROOFS. What a step runs: a due event, an event from outside, or a tile's turn with the operations that its issue has decoded
(R42 to R46, R58). -/

namespace Sys2Proof.Machine

/-! ### NOPs (R45) -/

/-- Settles O18: each NOP is the one form of a slot operation, with its latch idle as its effect. -/
theorem nopResults : Obligations.NopResults :=
  ⟨issuesAs_of_runSlot fun _ => rfl, issuesAs_of_runSlot fun _ => rfl, issuesAs_of_runSlot fun _ => rfl,
    issuesAs_of_runSlot fun _ => rfl, issuesAs_of_runSlot fun _ => rfl⟩

/-! ### Branches of a step -/

section
variable {s : State}

theorem step_due {d : Due} {r : List Due} (h : s.agenda = d :: r) : step s = runDue d { s with agenda := r } := by
  unfold step; rw [h]

theorem step_event (idle : s.agenda = []) (due : s.eventDue = true) : step s = s.nextEvent := by
  unfold step; simp only [idle, due, if_true]

theorem step_turn {t : Nat} {r : List Nat} (idle : s.agenda = []) (quiet : s.eventDue = false) (turn : s.turn = t :: r) :
    step s = ({ s with turn := r } : State).tileTurn t := by
  unfold step; simp [idle, quiet, turn]

/-- The end of a tile's turn, once the operations of its issue have acted (R42 to R44). -/
def endTurn (t : Nat) : Host.Outcome State Fault Refusal → Host.Outcome State Fault Refusal
  | .next v => .next (v.afterIssue t)
  | o => o

theorem State.tileTurn_of_issue {t : Nat} {u : State} (issue : exec (.bundleIssue t .clean) (s.afterIssue t) = .next u) :
    s.tileTurn t = endTurn t u.drainOut :=
  congrArg (fun o : Host.Outcome State Fault Refusal => match o with | .next u => endTurn t u.drainOut | o => o) issue

/-! ### The operations sent out -/

theorem State.drainOut_nil (h : s.out = []) : s.drainOut = .next { s with focus := { } } := by
  have drained : s.drainOut = .next { ({ s with out := [] } : State) with focus := { } } := by
    unfold State.drainOut; rw [h]; rfl
  have same : { s with out := [] } = s := by rw [← h]
  rw [drained, same]

/-- One operation goes out by itself, TRAP or not. -/
theorem State.drainOut_one {slot index : Nat} {i : Instr} (h : s.out = [(slot, index, i)]) : s.drainOut =
    match exec i (({ s with out := [] } : State).focusOn s.focus.tile slot index s.focus.addr true) with
    | .next v => .next { v with focus := { } }
    | o => o := by
  have alone : (s.out.filter fun o => !isTrap o.2.2) ++ s.out.filter (fun o => isTrap o.2.2) = [(slot, index, i)] := by
    rw [h]; cases trap : isTrap i <;> simp [trap]
  unfold State.drainOut
  simp only [alone, runOps]
  cases exec i _ <;> rfl

/-! ### The operation of a word -/

theorem decodeWordRaw_of_decodeWord {slot : Slot} {w : Word} {i : Instr} (h : decodeWord slot w = .ok i) :
    decodeWordRaw slot w = .ok i := by
  have checked : decodeWord slot w = checkFields (decodeWordRaw slot w) := by cases slot <;> rfl
  exact (checkFields_eq_ok.1 (checked.symm.trans h)).1

theorem State.planWord_of_decodes {t : Nat} {slot : Slot} {w : Word} {i : Instr} (old : Latch) (decodes : decodeWord slot w = .ok i)
    (passes : s.guardPasses t slot w = true) : s.planWord t slot old w =
      { slot := slot, latch := if isNop i then { } else { word := w, index := 0, live := true }, op := some i, fresh := true } := by
  unfold State.planWord
  simp only [decodeWordRaw_of_decodeWord decodes, decodes, passes]
  rfl

theorem State.planLatched_of_decodes {t : Nat} {slot : Slot} {old : Latch} {i : Instr} (live : old.live = true)
    (decodes : decodeWord slot old.word = .ok i) (passes : s.guardPasses t slot old.word = true) :
    s.planLatched t slot old = { slot := slot, latch := { old with index := old.index + 1 }, op := some i } := by
  unfold State.planLatched
  simp only [live, decodes, passes]
  rfl

end

/-- Settles O48: a turn whose issue sends out one operation runs it where the issue's focus stands, and each of the others by the
branch of the step, of the run or of the plan that it names. -/
theorem stepRunsDecodedInstruction : Obligations.StepRunsDecodedInstruction := by
  refine ⟨?one, ?zero, fun _ _ _ _ _ _ _ => rfl, ?word, ?latched, fun _ _ _ due => step_due due, ?event⟩
  case one =>
    intro t r s s1 slot index i idle quiet turn issue out
    rw [step_turn idle quiet turn, State.tileTurn_of_issue issue, State.drainOut_one out]
    cases exec i (({ s1 with out := [] } : State).focusOn s1.focus.tile slot index s1.focus.addr true) <;> rfl
  case zero =>
    intro t r s s1 idle quiet turn issue out
    rw [step_turn idle quiet turn, State.tileTurn_of_issue issue, State.drainOut_nil out]
    rfl
  case word =>
    intro s t slot old w i decodes passes
    rw [State.planWord_of_decodes old decodes passes]
    exact ⟨rfl, fun acts => by simp [acts]⟩
  case latched =>
    intro s t slot old i live decodes passes
    rw [State.planLatched_of_decodes live decodes passes]
    exact ⟨rfl, rfl⟩
  case event =>
    intro e r s idle inbox due outside
    rw [step_event idle due]
    unfold State.nextEvent State.event
    rw [inbox]
    simp only [outside]
    rfl

end Sys2Proof.Machine
end

section
/-! PROOFS. Loop ends (R38, R117, R119). -/

namespace Sys2Proof.Machine

/-! ### Levels -/

theorem loopAdvance_unmarked {lend : BitVec 6} {ks : List Nat} (h : ∀ k ∈ ks, lend.getLsbD k = false) (loops : Vector Loop 6) :
    loopAdvance lend ks loops = (loops, none) := by
  induction ks with
  | nil => rfl
  | cons k ks ih =>
    unfold loopAdvance
    rw [h k List.mem_cons_self]
    exact ih fun j mem => h j (List.mem_cons_of_mem k mem)

/-- With a single mark only its level advances (R119). -/
theorem loopAdvance_single {k : Nat} (h : k < 6) (loops : Vector Loop 6) {ks : List Nat} (mem : k ∈ ks) (once : ks.Nodup) :
    loopAdvance (BitVec.twoPow 6 k) ks loops =
      let l := vget { } loops k
      if l.l + 1 < l.lc then (vset loops k { l with l := l.l + 1 }, some (k, l.body))
      else (vset loops k { l with l := 0, active := false }, none) := by
  have mark : ∀ j, (BitVec.twoPow 6 k).getLsbD j = decide (j = k) := fun j => by
    rw [BitVec.getLsbD_twoPow, decide_eq_true h, Bool.true_and]; exact decide_eq_decide.2 eq_comm
  induction ks with
  | nil => cases mem
  | cons j ks ih =>
    obtain ⟨notMem, once'⟩ := List.nodup_cons.1 once
    unfold loopAdvance
    rw [mark j]
    by_cases here : j = k
    · subst here
      have rest : ∀ i ∈ ks, (BitVec.twoPow 6 j).getLsbD i = false := fun i later => by
        rw [mark i]; exact decide_eq_false fun same => notMem (same ▸ later)
      simp only [decide_true, Bool.not_true, Bool.false_eq_true, if_false, loopAdvance_unmarked rest]
    · simp only [here, decide_false, Bool.not_false, if_true]
      exact ih ((List.mem_cons.1 mem).resolve_left (Ne.symm here)) once'

/-! ### The step -/

section
variable {t : Nat} {lend : BitVec 6} {s : State}

theorem exec_loopEnd (part : t < Config.tiles) (comes : s.comesTo t (.loopEnd t lend) false = true) :
    exec (.loopEnd t lend) s = .next (s.runLoopEnd t lend) := by
  show execLoopEnd t lend s = _
  unfold execLoopEnd
  rw [if_neg (by omega), if_neg (by simp [comes])]

theorem State.runLoopEnd_misuse (h : loopMisuse (s.tile t).seq.loops lend = true) : s.runLoopEnd t lend = s.flowTrap t 0x09 := by
  unfold State.runLoopEnd
  exact if_pos h

/-- The levels that are left, with the place from which the tile goes on and whether the loop buffer captures. -/
theorem State.runLoopEnd_replays (h : loopMisuse (s.tile t).seq.loops lend = false) {k a : Nat}
    (replays : (loopAdvance lend [5, 4, 3, 2, 1, 0] (s.tile t).seq.loops).2 = some (k, a)) :
    let q := ((s.runLoopEnd t lend).tile t).seq
    q.pc = a ∧ q.loops = (loopAdvance lend [5, 4, 3, 2, 1, 0] (s.tile t).seq.loops).1 ∧ q.after = (s.tile t).seq.after.drop 1 := by
  unfold State.runLoopEnd
  simp only [h, replays, Bool.false_eq_true, if_false, State.onSeq_eq, State.tile_onTile_self]
  split <;> exact ⟨rfl, rfl, rfl⟩

theorem State.runLoopEnd_leaves (h : loopMisuse (s.tile t).seq.loops lend = false)
    (leaves : (loopAdvance lend [5, 4, 3, 2, 1, 0] (s.tile t).seq.loops).2 = none) {a : Nat}
    (next : s.successor t (s.tile t).seq.last = .ok a) :
    let q := ((s.runLoopEnd t lend).tile t).seq
    q.pc = a ∧ q.loops = (loopAdvance lend [5, 4, 3, 2, 1, 0] (s.tile t).seq.loops).1 ∧ q.after = (s.tile t).seq.after.drop 1 := by
  have same : ∀ f, (s.onSeq t f).successor t (s.tile t).seq.last = .ok a := fun _ => next
  unfold State.runLoopEnd
  simp only [h, leaves, same, Bool.false_eq_true, if_false]
  simp only [State.onSeq_eq, State.tile_onTile_self, Seq.go, and_self]

theorem State.runLoopEnd_faults (h : loopMisuse (s.tile t).seq.loops lend = false)
    (leaves : (loopAdvance lend [5, 4, 3, 2, 1, 0] (s.tile t).seq.loops).2 = none) {e : Nat}
    (next : s.successor t (s.tile t).seq.last = .error e) : s.runLoopEnd t lend =
      (s.onSeq t fun q => { q with loops := (loopAdvance lend [5, 4, 3, 2, 1, 0] (s.tile t).seq.loops).1 }).flowTrap t e := by
  have same : ∀ f, (s.onSeq t f).successor t (s.tile t).seq.last = .error e := fun _ => next
  unfold State.runLoopEnd
  simp only [h, leaves, same, Bool.false_eq_true, if_false]

end

/-- Settles O25: the step is the loop end of the bundle, whose levels advance innermost first. -/
theorem loopEndSteps : Obligations.LoopEndSteps := by
  refine ⟨?flow, ?single⟩
  case flow =>
    intro t lend s part comes
    have step := exec_loopEnd part comes
    refine ⟨fun misuse => step.trans (congrArg Host.Outcome.next (State.runLoopEnd_misuse misuse)), ?_, ?_, ?_⟩
    · exact fun sound k a replays => ⟨_, step, State.runLoopEnd_replays sound replays⟩
    · exact fun sound leaves a next => ⟨_, step, State.runLoopEnd_leaves sound leaves next⟩
    · exact fun sound leaves e next => step.trans (congrArg Host.Outcome.next (State.runLoopEnd_faults sound leaves next))
  case single =>
    intro loops k l r
    have single : r = _ := loopAdvance_single k.isLt loops (ks := [5, 4, 3, 2, 1, 0]) (by revert k; decide) (by decide)
    rw [single]
    by_cases more : l.l + 1 < l.lc
    · refine ⟨fun _ => ?_, fun no => absurd more no, fun j other => ?_⟩
      · simp only [l, if_pos more, vget_vset_self _ _ _ k.isLt, and_self]
      · simp only [l, if_pos more, vget_vset_of_ne _ _ _ other]
    · refine ⟨fun yes => absurd yes more, fun _ => ?_, fun j other => ?_⟩
      · simp only [l, if_neg more, vget_vset_self _ _ _ k.isLt, and_self]
      · simp only [l, if_neg more, vget_vset_of_ne _ _ _ other]

end Sys2Proof.Machine
end

section
/-! PROOFS. Bundle kinds and the arrivals of lines (R60, R122, R132, R137 to R139, R183, R291). -/

namespace Sys2Proof.Machine

/-! ### Yield points (R138, R334, R335) -/

/-- The divisors that a throttle notice puts in force (R334). -/
def Sys.throttled (y : Sys) : Sys :=
  if !y.thr then y
  else { y with thr := false, divFloor := y.thrTo
                div := Vector.ofFn fun k : Fin 4 => max (vget 1 y.thrTo k.val) (vget 1 y.divReq k.val) }

theorem Sys.throttled_pre (y : Sys) : y.throttled.pre = y.pre := by
  unfold Sys.throttled; split <;> rfl

theorem Sys.throttled_rcls (y : Sys) : y.throttled.rcls = y.rcls := by
  unfold Sys.throttled; split <;> rfl

/-- A tile past its yield point, with nothing that suspends it. -/
def Tile.yielded (x : Tile) (now : Nat) : Tile :=
  { x with seq := { x.seq with yieldAt := now, after := x.seq.after.drop 1 }, sys := x.sys.throttled }

/-- The state past a yield point, with nothing that suspends the tile. -/
def State.yielded (s : State) (t : Nat) : State :=
  (s.onSeq t fun q => { q with yieldAt := s.icc t, after := q.after.drop 1 }).throttle t

theorem State.tile_yielded (s : State) (t : Nat) : (s.yielded t).tile t = (s.tile t).yielded (s.icc t) := by
  unfold State.yielded State.throttle
  rw [State.onSys_eq, State.onSeq_eq, State.tile_onTile_self, State.tile_onTile_self]
  rfl

theorem State.pre_yielded (s : State) (t : Nat) : ((s.yielded t).tile t).sys.pre = (s.tile t).sys.pre := by
  rw [State.tile_yielded]; exact Sys.throttled_pre _

section
variable {s : State} {t : Nat}

theorem State.yieldPoint_goesOn (point : Nat) (pre : (s.tile t).sys.pre = false) : s.yieldPoint t point = s.yielded t :=
  if_neg (by rw [← State.yielded, State.pre_yielded, pre]; decide)

/-- A pre-emption notice starts the drain of a suspension at the yield point. -/
theorem State.yieldPoint_suspends (point : Nat) (pre : (s.tile t).sys.pre = true) :
    s.yieldPoint t point = (s.yielded t).suspendAt t point :=
  if_pos (by rw [← State.yielded, State.pre_yielded, pre])

theorem State.tile_suspendAt (s : State) (t point : Nat) : ∃ k p, (s.suspendAt t point).tile t =
    { s.tile t with task := k, seq := { (s.tile t).seq with
        phase := .suspending, stall := .draining, yieldAt := s.icc t, pointAt := p } } :=
  ⟨_, _, State.tile_onTile_self ..⟩

/-! ### Kinds -/

theorem State.if_region_closed (h : (s.tile t).eng.region = none) (u v : State) : (if s.openRegion t then u else v) = v :=
  if_neg (by unfold State.openRegion; rw [h]; decide)

theorem State.if_region_open (h : (s.tile t).eng.region ≠ none) (u v : State) : (if s.openRegion t then u else v) = u :=
  if_pos (Option.isSome_iff_ne_none.2 h)

variable (part : t < Config.tiles)
include part

theorem exec_sync {lev : BitVec 3} (comes : s.comesTo t (.sync t lev) true = true) : exec (.sync t lev) s =
    .next (if s.openRegion t then (s.onTile t Tile.dropRegion).flowTrap t 0x05
      else s.onSeq t fun q => { q with stall := .arriving lev.toNat, after := q.after.drop 1 }) := by
  show execSync t lev s = _
  unfold execSync
  rw [if_neg (by omega), if_neg (by simp [comes]), apply_ite Host.Outcome.next]

theorem exec_yield (comes : s.comesTo t (.yield t) true = true) : exec (.yield t) s =
    .next (if s.openRegion t then (s.onTile t Tile.dropRegion).flowTrap t 0x05 else s.yieldPoint t 0) := by
  show execYield t s = _
  unfold execYield
  rw [if_neg (by omega), if_neg (by simp [comes]), apply_ite Host.Outcome.next]

/-- What RPLAN does besides a yield point: the count restarts, and a pending class change swaps the schedule (R139, R183). -/
def State.replanned (s : State) (t now : Nat) : State :=
  let u := s.onSeq t fun q => { q with replanAt := now }
  if (u.tile t).sys.rcls && (u.tile t).seq.stall = .none then u.swapVariant t else u

theorem exec_rplan (comes : s.comesTo t (.rplan t) true = true) : exec (.rplan t) s =
    .next (if s.openRegion t then (s.onTile t Tile.dropRegion).flowTrap t 0x05 else (s.yieldPoint t 1).replanned t s.pcc) := by
  show execRplan t s = _
  unfold execRplan State.replanned
  rw [if_neg (by omega), if_neg (by simp [comes])]
  simp only [apply_ite Host.Outcome.next]

omit part

theorem State.replanned_stays (now : Nat) (h : (s.tile t).seq.stall = .draining ∨ (s.tile t).sys.rcls = false) :
    s.replanned t now = s.onSeq t fun q => { q with replanAt := now } := by
  unfold State.replanned
  simp only [State.onSeq_eq, State.tile_onTile_self]
  rw [if_neg]
  rcases h with h | h <;> simp [h]

/-- The tile that a swap of schedules leaves, at the matching re-plan point of the selected one (R179, R183). -/
def Tile.swapped (x : Tile) (cls now : Nat) (e : ReplanEntry) : Tile :=
  { x with
    sys := { x.sys with rcls := false }
    vault := { x.vault with sched := BitVec.ofNat 2 cls, layers := x.vault.layers.map Layer.settle }
    seq := { x.seq.mapped e now with
      pc := e.addr, next := e.addr, after := [], calm := true, captured := none, capture := false
      window := windowFrom (lineOf e.addr) now } }

theorem State.swapVariant_matched {v : Variant} {cls : Nat} {code : List Word} {e : ReplanEntry}
    (variant : (s.tile t).task.bind s.variantOf = some v)
    (sched : schedFor v (effOf (s.tile t).vault (s.tile t).own).toNat = some (cls, code))
    (point : pointAt v (s.tile t).vault.sched.toNat (s.tile t).seq.last cls = some e) :
    (s.swapVariant t).mem = writeBytes s.mem (codeAddr t 0) (code.flatMap fun w => leBytes 8 w.toNat) ∧
      (s.swapVariant t).tile t = (s.tile t).swapped cls (s.icc t) e := by
  unfold State.swapVariant
  simp only [variant, sched, point]
  refine ⟨rfl, ?_⟩
  rw [State.onSeq_eq, State.tile_onTile_self, State.tile_writeCode, State.tile_onTile_self]
  rfl

theorem State.replanned_swaps (now : Nat) (free : (s.tile t).seq.stall = .none) (pending : (s.tile t).sys.rcls = true) :
    s.replanned t now = (s.onSeq t fun q => { q with replanAt := now }).swapVariant t := by
  unfold State.replanned
  simp only [State.onSeq_eq, State.tile_onTile_self]
  rw [if_pos]
  simp [free, pending]

theorem State.stall_of_comesTo {i : Instr} (h : s.comesTo t i true = true) : (s.tile t).seq.stall = .none := by
  simp only [State.comesTo, Bool.and_eq_true, if_true, beq_iff_eq] at h
  exact h.2

/-! ### Arrival at a barrier (R291) -/

@[simp] theorem State.tile_noteArrival (s : State) (serial lev group u : Nat) : (s.noteArrival serial lev group).tile u = s.tile u := by
  unfold State.noteArrival
  split
  · rfl
  · dsimp only
    split
    · unfold State.onBarrier
      split <;> rfl
    · rfl

theorem exec_syncArrival {lev : Nat} {k : Task} (part : t < Config.tiles) (stall : (s.tile t).seq.stall = .arriving lev)
    (task : (s.tile t).task = some k) (runs : (s.tile t).seq.phase = .running) (issued : (s.tile t).seq.issuedAt < s.icc t)
    (ready : s.arrivalReady t (k.scope lev) = true) (whole : lev ∉ (s.tile t).bar.lost) : exec (.syncArrival t) s =
      .next ((s.onTile t fun x =>
        { x with seq := { x.seq with stall := .released lev }, bar := { x.bar with arrived := some lev } }).noteArrival k.serial lev
          (k.group lev)) := by
  show execSyncArrival t s = _
  unfold execSyncArrival
  rw [if_neg (by omega)]
  simp [stall, task, runs, ready, whole, Nat.not_le.2 issued]

/-! ### Arrivals of lines (R60, R122, R259) -/

theorem State.codeComes_of {asked : Nat} (before : asked < s.icc t) (comes : s.homeFree t = true ∨ asked + 290 ≤ s.icc t) :
    s.codeComes t asked = true := by
  unfold State.codeComes; simpa [before] using comes

@[simp] theorem State.tile_homeMoves (s : State) (h requester lines u : Nat) : (s.homeMoves h requester lines).tile u = s.tile u := rfl

theorem exec_lineArrival_line {a : Nat} {e : FetchLine} (part : t < Config.tiles)
    (asked : (s.tile t).seq.window.find? (fun e => e.addr == a && !e.here) = some e) (comes : s.codeComes t e.asked = true) :
    exec (.lineArrival t (.line a)) s = .next ((s.onSeq t fun q =>
      { q with window := q.window.map fun w => if w.addr = a then { w with here := true } else w }).homeMoves t t 2) := by
  show execLineArrival t (.line a) s = _
  unfold execLineArrival
  rw [if_neg (by omega)]
  simp only [asked, comes]
  rfl

theorem exec_lineArrival_entry {k : BitVec 3} {n : Nat} (part : t < Config.tiles)
    (fills : (vget { } (s.tile t).seq.targets k.toNat).fill = .filling n) (comes : s.codeComes t n = true) :
    exec (.lineArrival t (.entry k)) s = .next ((s.onSeq t fun q => { q with
      targets := vset q.targets k.toNat { vget { } (s.tile t).seq.targets k.toNat with fill := .filled } }).homeMoves t t 4) := by
  show execLineArrival t (.entry k) s = _
  unfold execLineArrival
  rw [if_neg (by omega)]
  simp only [fills, comes]
  rfl

end

/-- Settles O26: a kind is a yield point, a swap or a wait behind the check of the open region; arrivals change what was asked for. -/
theorem bundleKindSteps : Obligations.BundleKindSteps := by
  refine ⟨?sync, ?yield, ?rplan, ?swap, ?region, ?arrival, ?line, ?entry⟩
  case sync =>
    intro t lev s part comes closed
    exact (exec_sync part comes).trans (congrArg Host.Outcome.next (State.if_region_closed closed _ _))
  case yield =>
    intro t s part comes closed
    refine ⟨_, (exec_yield part comes).trans (congrArg Host.Outcome.next (State.if_region_closed closed _ _)), ?_⟩
    cases pre : (s.tile t).sys.pre with
    | false =>
      rw [State.yieldPoint_goesOn 0 pre, State.tile_yielded]
      exact ⟨rfl, rfl, nofun, fun _ => ⟨rfl, rfl⟩⟩
    | true =>
      obtain ⟨k, p, tile⟩ := (s.yielded t).tile_suspendAt t 0
      rw [State.yieldPoint_suspends 0 pre, tile, State.tile_yielded]
      exact ⟨rfl, rfl, fun _ => ⟨rfl, rfl⟩, nofun⟩
  case rplan =>
    intro t s part comes closed calm
    refine ⟨_, (exec_rplan part comes).trans (congrArg Host.Outcome.next (State.if_region_closed closed _ _)), ?_⟩
    cases pre : (s.tile t).sys.pre with
    | false =>
      have stays : ((s.yielded t).tile t).sys.rcls = false := by
        rw [State.tile_yielded]; exact (Sys.throttled_rcls _).trans (calm.resolve_left (by simp [pre]))
      rw [State.yieldPoint_goesOn 1 pre, State.replanned_stays _ (.inr stays), State.onSeq_eq, State.tile_onTile_self, State.tile_yielded]
      exact ⟨rfl, rfl, rfl, nofun⟩
    | true =>
      obtain ⟨k, p, tile⟩ := (s.yielded t).tile_suspendAt t 1
      rw [State.yieldPoint_suspends 1 pre, State.replanned_stays _ (.inl (by rw [tile])), State.onSeq_eq, State.tile_onTile_self, tile,
        State.tile_yielded]
      exact ⟨rfl, rfl, rfl, fun _ => rfl⟩
  case swap =>
    intro t v cls code e s part comes closed pre rcls variant sched point
    refine ⟨_, (exec_rplan part comes).trans (congrArg Host.Outcome.next (State.if_region_closed closed _ _)), ?_⟩
    have free : ((s.yielded t).tile t).seq.stall = .none := by rw [State.tile_yielded]; exact State.stall_of_comesTo comes
    have pending : ((s.yielded t).tile t).sys.rcls = true := by rw [State.tile_yielded]; exact (Sys.throttled_rcls _).trans rcls
    have counted : ((s.yielded t).onSeq t fun q => { q with replanAt := s.pcc }).tile t =
        { (s.tile t).yielded (s.icc t) with seq := { ((s.tile t).yielded (s.icc t)).seq with replanAt := s.pcc } } := by
      rw [State.onSeq_eq, State.tile_onTile_self, State.tile_yielded]
    obtain ⟨mem, tile⟩ := State.swapVariant_matched (s := (s.yielded t).onSeq t fun q => { q with replanAt := s.pcc })
      (by rw [counted]; exact variant) (by rw [counted]; exact sched) (by rw [counted]; exact point)
    rw [State.yieldPoint_goesOn 1 pre, State.replanned_swaps _ free pending]
    beta_reduce
    rw [tile, counted]
    exact ⟨rfl, rfl, rfl, rfl, rfl, rfl, mem, rfl⟩
  case region =>
    intro t s part opened
    have drops := State.if_region_open opened
    exact ⟨fun lev comes => (exec_sync part comes).trans (congrArg Host.Outcome.next (drops _ _)),
      fun comes => (exec_yield part comes).trans (congrArg Host.Outcome.next (drops _ _)),
      fun comes => (exec_rplan part comes).trans (congrArg Host.Outcome.next (drops _ _))⟩
  case arrival =>
    intro t lev k s part stall task runs issued ready whole
    refine ⟨_, exec_syncArrival part stall task runs issued ready whole, ?_⟩
    beta_reduce
    rw [State.tile_noteArrival, State.tile_onTile_self]
    exact ⟨rfl, rfl⟩
  case line =>
    intro t a e s part asked before comes
    refine ⟨_, exec_lineArrival_line part asked (State.codeComes_of before comes), ?_⟩
    beta_reduce
    rw [State.tile_homeMoves, State.onSeq_eq, State.tile_onTile_self]
    exact ⟨rfl, rfl, rfl, rfl⟩
  case entry =>
    intro t k n s part fills before comes
    refine ⟨_, exec_lineArrival_entry part fills (State.codeComes_of before comes), ?_⟩
    beta_reduce
    rw [State.tile_homeMoves, State.onSeq_eq, State.tile_onTile_self]
    exact congrArg Target.fill (vget_vset_self _ _ _ k.isLt)

end Sys2Proof.Machine
end

section
/-! PROOFS. Jumps and calls (R44, R120, R122, R123, R132). -/

namespace Sys2Proof.Machine

/-! ### A tile written twice -/

theorem insertAt_insertAt {α : Type} (k : Nat) (x y : α) (m : Table α) : insertAt k y (insertAt k x m) = insertAt k y m := by
  induction m with
  | nil => simp [insertAt]
  | cons e r ih =>
    obtain ⟨a, z⟩ := e
    by_cases before : k < a
    · simp [insertAt, before]
    · by_cases here : k = a
      · simp [insertAt, here]
      · simp [insertAt, before, Ne.symm here, ih]

theorem State.setTile_setTile (s : State) (t : Nat) (x y : Tile) : (s.setTile t x).setTile t y = s.setTile t y := by
  unfold State.setTile
  rw [insertAt_insertAt]

theorem State.onSeq_onSeq (s : State) (t : Nat) (f g : Seq → Seq) : (s.onSeq t f).onSeq t g = s.onSeq t fun q => g (f q) := by
  have written := State.tile_setTile_self s t { s.tile t with seq := f (s.tile t).seq }
  show (s.setTile t _).setTile t { (s.setTile t _).tile t with seq := g ((s.setTile t _).tile t).seq } = _
  rw [State.setTile_setTile, written]
  rfl

theorem State.onSeq_congr {s : State} {t : Nat} {f g : Seq → Seq} (h : f (s.tile t).seq = g (s.tile t).seq) :
    s.onSeq t f = s.onSeq t g :=
  congrArg (fun q => s.setTile t { s.tile t with seq := q }) h

theorem vget_map_const {α β : Type} {n : Nat} (d x : α) (v : Vector β n) (k : Nat) :
    vget d (v.map fun _ => x) k = if k < n then x else d := by
  unfold vget
  by_cases within : k < n
  · rw [if_pos within, List.getD_eq_getElem _ _ (by simpa using within)]
    simp
  · rw [if_neg within, List.getD_eq_default _ _ (by simpa using within)]

/-! ### The call link (R44, R123) -/

/-- What a transfer looks at is as it was before the call link: the target entries, what the bundle has still to do, the code and
the cycle. -/
structure LinkedFrom (s : State) (t : Nat) (u : State) : Prop where
  targets : (u.tile t).seq.targets = (s.tile t).seq.targets
  after : (u.tile t).seq.after = (s.tile t).seq.after
  mem : u.mem = s.mem
  icc : u.icc t = s.icc t

theorem State.linkCall_linked (s : State) (t ret : Nat) : LinkedFrom s t (s.linkCall t ret) := by
  have flown : LinkedFrom s t (s.flightBy t ((s.tile t).seq.issuedAt + 1) [.s 31 (BitVec.ofNat 64 ret)]) :=
    ⟨by rw [State.flightBy_tile_self]; rfl, by rw [State.flightBy_tile_self]; rfl, State.flightBy_mem .., rfl⟩
  obtain h | ⟨-, f, c, -, -, -, h⟩ := s.linkCall_cases t ret
  · rw [h]; exact flown
  · rw [h]
    exact ⟨by rw [State.tile_onTile_self]; exact flown.targets, by rw [State.tile_onTile_self]; exact flown.after, flown.mem, flown.icc⟩

/-- The state in which a transfer that its predicate takes goes through its entry. -/
def State.linked (s : State) (t : Nat) (call : Bool) : State :=
  if call then s.linkCall t (s.returnAddr t (s.tile t).seq.last) else s

theorem State.linked_from (s : State) (t : Nat) (call : Bool) : LinkedFrom s t (s.linked t call) := by
  cases call with
  | false => exact ⟨rfl, rfl, rfl, rfl⟩
  | true => exact s.linkCall_linked t _

/-! ### Through an entry (R120, R122) -/

/-- A transfer that has its target and waits for its entry to be filled (log entry 77). -/
def standing (t : Nat) (xt : BitVec 3) : List Instr := [.transferJump t xt 0 false]

section
variable {s u : State} {t : Nat} {xt : BitVec 3}

theorem LinkedFrom.isMarked (h : LinkedFrom s t u) (f : Seq → Seq) (a : Nat) : (u.onSeq t f).isMarked t a = s.isMarked t a := by
  unfold State.isMarked State.granule
  rw [State.onSeq_eq, State.onTile_mem, h.mem]

theorem LinkedFrom.after_left (h : LinkedFrom s t u) : ((u.onSeq t Seq.leaveLoops).tile t).seq.after = (s.tile t).seq.after := by
  rw [State.onSeq_eq, State.tile_onTile_self]; exact h.after

theorem LinkedFrom.transfer_empty (h : LinkedFrom s t u) (fill : (vget { } (s.tile t).seq.targets xt.toNat).fill = .empty) :
    u.transfer t xt = (u.onSeq t Seq.leaveLoops).flowTrap t 0x07 := by
  unfold State.transfer
  simp only [h.targets, fill]

theorem LinkedFrom.transfer_unmarked (h : LinkedFrom s t u) (fill : (vget { } (s.tile t).seq.targets xt.toNat).fill = .filled)
    (mark : s.isMarked t (vget { } (s.tile t).seq.targets xt.toNat).addr.toNat = false) :
    u.transfer t xt = (u.onSeq t Seq.leaveLoops).flowTrap t 0x03 := by
  unfold State.transfer
  simp only [h.targets, fill, h.isMarked, mark]
  rfl

theorem LinkedFrom.transfer_filled (h : LinkedFrom s t u) (fill : (vget { } (s.tile t).seq.targets xt.toNat).fill = .filled)
    (mark : s.isMarked t (vget { } (s.tile t).seq.targets xt.toNat).addr.toNat = true) :
    let a := (vget { } (s.tile t).seq.targets xt.toNat).addr.toNat
    u.transfer t xt = (u.onSeq t Seq.leaveLoops).onSeq t fun q =>
      if q.after = standing t xt then q.arrive a else { q.jump a true (s.icc t) with after := [] } := by
  unfold State.transfer
  simp only [h.targets, fill, h.isMarked, mark]
  exact congrArg (fun now => (u.onSeq t Seq.leaveLoops).onSeq t fun q =>
    if q.after = standing t xt then q.arrive _ else { q.jump _ true now with after := [] }) h.icc

theorem LinkedFrom.transfer_filling {n : Nat} (h : LinkedFrom s t u)
    (fill : (vget { } (s.tile t).seq.targets xt.toNat).fill = .filling n) :
    let a := (vget { } (s.tile t).seq.targets xt.toNat).addr.toNat
    u.transfer t xt = (u.onSeq t Seq.leaveLoops).onSeq t fun q =>
      if q.after = standing t xt then q else { q.jump a false (s.icc t) with next := q.next, after := standing t xt } := by
  unfold State.transfer
  simp only [h.targets, fill]
  exact congrArg (fun now => (u.onSeq t Seq.leaveLoops).onSeq t fun q =>
    if q.after = standing t xt then q else { q.jump _ false now with next := q.next, after := standing t xt }) h.icc

/-! ### The step -/

theorem State.taken_closed (closed : (s.tile t).eng.region = none) (call : Bool) :
    s.taken t xt call = (s.linked t call).transfer t xt :=
  if_neg (by rw [closed]; decide)

theorem State.taken_open (opened : (s.tile t).eng.region ≠ none) (call : Bool) :
    s.taken t xt call = (s.onTile t Tile.dropRegion).flowTrap t 0x05 :=
  if_pos (Option.isSome_iff_ne_none.2 opened)

/-- The step of a bundle's transfer, a jump's or a call's. -/
def transferOf (call : Bool) (t : Nat) (xt xp : BitVec 3) (xn : Bool) : Instr :=
  if call then .transferCall t xt xp xn else .transferJump t xt xp xn

theorem exec_transfer {call xn : Bool} {xp : BitVec 3} (part : t < Config.tiles)
    (comes : s.comesTo t (transferOf call t xt xp xn) false = true) :
    exec (transferOf call t xt xp xn) s = .next (s.runTransfer t xt xp xn call).nextFree := by
  cases call with
  | false =>
    show execTransferJump t xt xp xn s = _
    exact (if_neg (by omega)).trans (if_neg (by rw [show s.comesTo t (.transferJump t xt xp xn) false = true from comes]; decide))
  | true =>
    show execTransferCall t xt xp xn s = _
    exact (if_neg (by omega)).trans (if_neg (by rw [show s.comesTo t (.transferCall t xt xp xn) false = true from comes]; decide))

variable {call xn : Bool} {xp : BitVec 3}

theorem State.runTransfer_waits (waits : s.transferWaits t xp = true) : s.runTransfer t xt xp xn call = s.holdPred t xp :=
  if_pos waits

theorem State.runTransfer_passes (ready : s.transferWaits t xp = false) (pred : s.predRead t xp = xn) :
    s.runTransfer t xt xp xn call = s.onSeq t fun q => { q with after := q.after.drop 1 } := by
  unfold State.runTransfer
  simp [ready, pred]

theorem State.runTransfer_takes (ready : s.transferWaits t xp = false) (pred : s.predRead t xp = !xn) :
    s.runTransfer t xt xp xn call = s.taken t xt call := by
  unfold State.runTransfer
  simp [ready, pred]

end

/-! ### The predicate (R44) -/

section
variable {s : State} {t : Nat} {xp : BitVec 3}

theorem State.xpHeld_holdPred : ((s.holdPred t xp).tile t).seq.xpHeld = some (s.predSettled t xp) := by
  unfold State.holdPred
  rw [State.onSeq_eq, State.tile_onTile_self]

theorem State.predSettled_held {b : Bool} (held : (s.tile t).seq.xpHeld = some b) : s.predSettled t xp = b := by
  unfold State.predSettled State.predRead
  simp [held]

theorem State.predSettled_last {gs : List Flight} {f : Flight} (gm : (s.tile t).sys.gm = true) (named : xp ≠ 0)
    (held : (s.tile t).seq.xpHeld = none)
    (earlier : (s.tile t).seq.flights.filter (fun f => f.issue < (s.tile t).seq.issuedAt && f.dests.contains (.p xp.toNat)) = gs ++ [f]) :
    s.predSettled t xp = f.writes.any fun w => w == .p xp.toNat true := by
  have listens : (!(s.tile t).sys.gm || Decidable.decide (xp = 0) || (s.tile t).seq.xpHeld.isSome) = false := by
    rw [gm, held, decide_eq_false named]; rfl
  unfold State.predSettled
  simp only [listens, Bool.false_eq_true, if_false, earlier, List.getLast?_concat]

end

/-! ### When the link counts (R44, R123) -/

/-- A call taken in its bundle's own issue has its link in flight for the next cycle. -/
theorem State.linkCall_flies {s : State} {t : Nat} (ret : Nat) (now : (s.tile t).seq.issuedAt = s.icc t) :
    ∃ f ∈ ((s.linkCall t ret).tile t).seq.flights,
      f.writes = [.s 31 (BitVec.ofNat 64 ret)] ∧ f.issue = s.icc t ∧ f.bound = s.icc t + 1 := by
  obtain h | ⟨late, -⟩ := s.linkCall_cases t ret
  · rw [h, State.flightBy_tile_self, now]
    exact ⟨_, List.mem_append_right _ (List.mem_singleton_self _), rfl, rfl, rfl⟩
  · omega

/-- The flight of a call link. -/
def State.linkFlight (s : State) (t ret : Nat) : Flight :=
  { id := s.nextId, slot := 0, issue := (s.tile t).seq.issuedAt, ready := (s.tile t).seq.issuedAt + 1
    bound := (s.tile t).seq.issuedAt + 1, dests := [.s 31], writes := [.s 31 (BitVec.ofNat 64 ret)] }

theorem Tile.land_alone {x : Tile} {f : Flight} {k : Nat} {v : Word} (c : Nat) (rank : 0 < k ∧ k < 32) (alone : x.seq.flights = [f])
    (unrivalled : f.rival = false) (writes : f.writes = [.s k v]) :
    vget 0 (x.land f c).regs.s k = v ∧ (x.land f c).seq.flights = [] := by
  have wins : ∀ l, x.winner f l c = true := fun l => by unfold Tile.winner; rw [unrivalled]; rfl
  constructor
  · have landed : (x.land f c).regs = x.regs.apply (.s k v) := by
      unfold Tile.land; simp [writes, wins]
    rw [landed, Regs.apply_s rank.1]
    exact vget_vset_self _ _ _ rank.2
  · unfold Tile.land; simp [alone]

/-- A later call with nothing else in flight has its link at once. -/
theorem State.linkCall_lands {s : State} {t : Nat} (ret : Nat) (late : (s.tile t).seq.issuedAt < s.icc t)
    (free : (s.tile t).seq.flights = []) :
    vget 0 ((s.linkCall t ret).tile t).regs.s 31 = BitVec.ofNat 64 ret ∧ ((s.linkCall t ret).tile t).seq.flights = [] := by
  have flown : ((s.flightBy t ((s.tile t).seq.issuedAt + 1) [.s 31 (BitVec.ofNat 64 ret)]).tile t).seq.flights = [s.linkFlight t ret] := by
    rw [State.flightBy_tile_self]
    simp [Tile.launchFlight, free, State.linkFlight, Write.loc]
  have lands : ((s.flightBy t ((s.tile t).seq.issuedAt + 1) [.s 31 (BitVec.ofNat 64 ret)]).tile t).mayLand (s.linkFlight t ret)
      (s.icc t) = true := by
    unfold Tile.mayLand
    rw [flown]
    simp [State.linkFlight, late, Nat.succ_le_of_lt late]
  have landed : ∃ c, s.linkCall t ret =
      (s.flightBy t ((s.tile t).seq.issuedAt + 1) [.s 31 (BitVec.ofNat 64 ret)]).onTile t (·.land (s.linkFlight t ret) c) := by
    have found : [s.linkFlight t ret].find? (fun f => f.id == s.nextId) = some (s.linkFlight t ret) := by
      simp [State.linkFlight]
    unfold State.linkCall
    simp only [flown, found, lands, decide_eq_true late, Bool.and_self, if_true]
    exact ⟨_, rfl⟩
  obtain ⟨c, landed⟩ := landed
  rw [landed, State.tile_onTile_self]
  exact Tile.land_alone c (by decide) flown rfl rfl

theorem State.linkCall_stores (s : State) (t ret : Nat) :
    ((s.linkCall t ret).tile t).st = (s.tile t).st ∧ (s.linkCall t ret).mem = s.mem := by
  refine ⟨?_, (s.linkCall_linked t ret).mem⟩
  obtain h | ⟨-, f, c, -, -, -, h⟩ := s.linkCall_cases t ret
  · rw [h, State.flightBy_tile_self]; rfl
  · rw [h, State.tile_onTile_self, State.flightBy_tile_self]; rfl

/-! ### The obligation -/

/-- Settles O24: a transfer waits, passes or is taken; a taken one goes through its entry from the state that the call link leaves. -/
theorem transferSteps : Obligations.TransferSteps := by
  refine ⟨?step, ?loops, ?read, ?settled, ?link⟩
  case step =>
    intro call t xt xp xn s part i q e linked left stands comes
    have step := exec_transfer part comes
    have runs : ∀ {u : State}, s.runTransfer t xt xp xn call = u → exec i s = .next u.nextFree :=
      fun h => step.trans (congrArg (Host.Outcome.next ·.nextFree) h)
    have from_ : LinkedFrom s t linked := s.linked_from t call
    have after : (left.tile t).seq.after = q.after := from_.after_left
    refine ⟨fun waits => runs (State.runTransfer_waits waits), fun ready pred => runs (State.runTransfer_passes ready pred),
      fun ready pred closed => ?_,
      fun ready pred opened => runs ((State.runTransfer_takes ready pred).trans (State.taken_open opened call))⟩
    have goes : ∀ {u : State}, linked.transfer t xt = u → exec i s = .next u.nextFree :=
      fun h => runs ((State.runTransfer_takes ready pred).trans ((State.taken_closed closed call).trans h))
    refine ⟨fun filled mark => ⟨fun fresh => goes ?_, fun waited => goes ?_⟩,
      fun filled mark => goes (from_.transfer_unmarked filled mark), fun empty => goes (from_.transfer_empty empty),
      fun n filling => ⟨fun fresh => goes ?_, fun waited => goes ?_⟩⟩
    · exact (from_.transfer_filled filled mark).trans (State.onSeq_congr (if_neg fun h => fresh (after.symm.trans h)))
    · refine (from_.transfer_filled filled mark).trans (State.onSeq_congr ((if_pos (after.trans waited)).trans ?_))
      unfold Seq.arrive
      simp only [Bool.or_eq_true, beq_iff_eq]
      rfl
    · exact (from_.transfer_filling filling).trans (State.onSeq_congr (if_neg fun h => fresh (after.symm.trans h)))
    · exact (from_.transfer_filling filling).trans
        ((State.onSeq_onSeq ..).trans (State.onSeq_congr (if_pos (from_.after.trans waited))))
  case loops =>
    exact fun q a f now k => vget_map_const ({ active := true } : Loop) { } q.loops k
  case read =>
    intro t xp s
    refine ⟨fun free => ?_, fun b held => ⟨?_, ?_⟩⟩
    · unfold State.predRead; rw [free]; rfl
    · unfold State.predRead; rw [held]; rfl
    · rw [State.xpHeld_holdPred, State.predSettled_held held]
  case settled =>
    intro t xp gs f s gm named held earlier
    rw [State.xpHeld_holdPred, State.predSettled_last gm named held earlier]
  case link =>
    intro t ret s u
    obtain ⟨st, mem⟩ := s.linkCall_stores t ret
    exact ⟨State.linkCall_flies ret, State.linkCall_lands ret, st, mem⟩

end Sys2Proof.Machine
end

section
/-! PROOFS. The denomination decoder: a row's pieces and the entries that it emits (R86 to R88, R221 to R226). -/

namespace Sys2Proof.Machine

/-! ### What an engine finds -/

/-- A fault found waits with the sequencer: no engine, register or byte of staging changes. -/
theorem State.found_keeps (s : State) (t : Nat) (r : TrapReq) : ((s.found t r).tile t).eng = (s.tile t).eng ∧
    ((s.found t r).tile t).regs = (s.tile t).regs ∧ ((s.found t r).tile t).st = (s.tile t).st := by
  rw [State.found, State.onSeq_eq, State.tile_onTile_self]
  exact ⟨rfl, rfl, rfl⟩

/-! ### Pieces of a row -/

/-- The state after a row has taken its next piece, what is left of the bytes standing in the request's FIFO. -/
def State.pieceTaken (s : State) (t : Nat) (q : DrfReq) (r : DrfRow) (left : List Byte) : State :=
  s.onTile t fun x => { x with eng := { x.eng with
    df := vset x.eng.df q.f left, drf := { x.eng.drf with row := some r } } }

section
variable {s : State} {t n : Nat} {q : DrfReq} {r : DrfRow} {bs : List Byte} (part : t < Config.tiles)
  (ready : (s.tile t).drfReady = some (q, r, bs, n))
include part ready

theorem exec_drfRowDecode_goesOn (sound : (r.piece (bs.take n)).err = none ∨ (r.piece (bs.take n)).emit ≠ []) :
    exec (.drfRowDecode t) s = .next (s.pieceTaken t q (r.piece (bs.take n)) (bs.drop n)) := by
  show execDrfRowDecode t s = _
  simp only [execDrfRowDecode, ge_iff_le, Nat.not_le.2 part, if_false, ready]
  split
  · next err emit => simp [err, emit] at sound
  · rfl

theorem exec_drfRowDecode_errs {e : Nat} (err : (r.piece (bs.take n)).err = some e) (quiet : (r.piece (bs.take n)).emit = []) :
    exec (.drfRowDecode t) s =
      .next ((s.pieceTaken t q (r.piece (bs.take n)) (bs.drop n)).found t { code := e, slot := 7 }) := by
  show execDrfRowDecode t s = _
  simp only [execDrfRowDecode, ge_iff_le, Nat.not_le.2 part, if_false, ready, err, quiet]
  rfl

end

theorem DrfRow.header_groups (r : DrfRow) {w : Nat} (low : w % 2 ^ 11 = 0) (full : w / 2 ^ 11 % 2 = 0) :
    (r.header w).stage = 1 ∧ (r.header w).k = w / 2 ^ 18 + 1 ∧ (r.header w).groups = w / 2 ^ 12 % 64 + 1 := by
  simp only [DrfRow.header, low, full]
  exact ⟨rfl, rfl, rfl⟩

theorem DrfRow.header_err (r : DrfRow) {w : Nat} (low : w % 2 ^ 11 ≠ 0) : (r.header w).err = some 0x45 := by
  simp only [DrfRow.header, low, ne_eq, not_false_eq_true, decide_true, Bool.true_or, if_true]

theorem DrfRow.place_beyond {r : DrfRow} {p : Nat} (far : r.k ≤ p) : (r.place p).err = some 0x47 := by
  simp [DrfRow.place, far]

theorem DrfRow.place_again {r : DrfRow} {p : Nat} (near : p < r.k) (seen : r.seen.getLsbD p = true) :
    (r.place p).err = some 0x48 := by
  simp [DrfRow.place, Nat.not_le.2 near, seen]

theorem DrfRow.place_new {r : DrfRow} {p : Nat} (near : p < r.k) (new : r.seen.getLsbD p = false) :
    (r.place p).emit = r.emit ++ [positionEntry p] ∧ (r.place p).left = r.left - 1 := by
  simp [DrfRow.place, Nat.not_le.2 near, new]

/-! ### Entries -/

/-- A tile whose decoder has emitted an entry of a row: it stands last in the request's queue, and the request ends with the row
token (R222, R226). -/
def Tile.emitted (x : Tile) (now : Nat) (q : DrfReq) (r : DrfRow) (e : BitVec 32) (rest : List (BitVec 32)) : Tile :=
  { x with eng := { x.eng with
      q := vset x.eng.q q.q (vget [] x.eng.q q.q ++ [e])
      drf := if r.stage = 5 then x.eng.drf.ended now
        else { x.eng.drf with row := some { r with emit := rest, charge := r.charge + 1 } } } }

section
variable {s : State} {t : Nat} {k : Task} {q : DrfReq} {qs : List DrfReq} {r : DrfRow} {e : BitVec 32} {rest : List (BitVec 32)}
  (part : t < Config.tiles) (working : (s.tile t).working = true) (task : (s.tile t).task = some k)
  (reqs : (s.tile t).eng.drf.reqs = q :: qs) (row : (s.tile t).eng.drf.row = some r) (waits : r.emit = e :: rest)
include part working task reqs row waits

theorem exec_decoderEntryEmit_charged (charge : q.ratio * 256 ≤ r.charge) :
    exec (.decoderEntryEmit t) s = .next (s.found t { code := 0x42, slot := 7 }) := by
  show execDecoderEntryEmit t s = _
  simp only [execDecoderEntryEmit, ge_iff_le, Nat.not_le.2 part, if_false, working, task, reqs, row, waits, charge, if_true]

theorem exec_decoderEntryEmit_emits (charge : r.charge < q.ratio * 256)
    (room : (vget [] (s.tile t).eng.q q.q).length + (s.tile t).eng.pops.count (s.icc t, q.q) < k.qOcc q.q) :
    Completes (.decoderEntryEmit t) s fun u => let v := s.onTile t (·.emitted (s.icc t) q r e rest)
      u = v ∨ ∃ f, u = v.found t f := by
  have step : exec (.decoderEntryEmit t) s = execDecoderEntryEmit t s := rfl
  simp only [execDecoderEntryEmit, ge_iff_le, Nat.not_le.2 part, if_false, working, task, reqs, row, waits, Nat.not_le.2 charge,
    Nat.not_le.2 room] at step
  split at step
  · exact ⟨_, step, .inr ⟨_, rfl⟩⟩
  · exact ⟨_, step, .inl rfl⟩

end

/-- Settles O32: the decoder's two steps by the cases of their ends, and what a header and a position make of a row. -/
theorem decoderSteps : Obligations.DecoderSteps := by
  refine ⟨?piece, ?entry, ?header, ?badHeader, ?place⟩
  case piece => exact fun t q r bs n s part ready =>
    ⟨exec_drfRowDecode_goesOn part ready, fun e err quiet => exec_drfRowDecode_errs part ready err quiet⟩
  case entry =>
    intro t k q qs r e rest s part working task reqs row waits
    refine ⟨exec_decoderEntryEmit_charged part working task reqs row waits, fun charge room queue => ?_⟩
    obtain ⟨u, step, ends⟩ := exec_decoderEntryEmit_emits part working task reqs row waits charge room
    refine ⟨u, step, ?_⟩
    have kept : (u.tile t).eng = ((s.tile t).emitted (s.icc t) q r e rest).eng ∧ (u.tile t).regs = (s.tile t).regs ∧
        (u.tile t).st = (s.tile t).st := by
      obtain rfl | ⟨f, rfl⟩ := ends
      · rw [State.tile_onTile_self]; exact ⟨rfl, rfl, rfl⟩
      · have kept := State.found_keeps (s.onTile t (·.emitted (s.icc t) q r e rest)) t f
        rwa [State.tile_onTile_self] at kept
    obtain ⟨eng, regs, st⟩ := kept
    beta_reduce
    rw [eng]
    refine ⟨vget_vset_self _ _ _ queue, fun j other => vget_vset_of_ne _ _ _ other, fun last => ?_, fun goesOn => ?_, regs, st⟩
    · simp [Tile.emitted, last, Drf.ended, reqs]
    · simp [Tile.emitted, goesOn, reqs]
  case header => exact fun r w low full => r.header_groups low full
  case badHeader => exact fun r w low => r.header_err low
  case place => exact fun r p => ⟨DrfRow.place_beyond, DrfRow.place_again, DrfRow.place_new⟩

end Sys2Proof.Machine
end

section
/-! PROOFS. Atomics and vector atomics: what performs, the old values, and the new values of R126 (R107, R126 to R131, R259, R282). -/

namespace Sys2Proof.Machine

/-! ### Memories -/

/-- The bytes of the stacks, of tier 1 and of the host's windows. -/
def State.memories (s : State) : Memory × Memory × Memory := (s.mem, s.mem2, s.hostMem)

@[simp] theorem State.memories_onTile (s : State) (t : Nat) (f : Tile → Tile) : (s.onTile t f).memories = s.memories := rfl

theorem State.memories_withTags (s : State) (tags : Table (BitVec 48)) : ({ s with tags := tags } : State).memories = s.memories := rfl

theorem State.memories_logIt (s : State) (source code place detail : Nat) :
    (s.logIt source code place detail).memories = s.memories := by
  unfold State.logIt
  dsimp only
  split <;> rfl

theorem State.memories_onLaunch (s : State) (serial : Nat) (f : Launch → Launch) : (s.onLaunch serial f).memories = s.memories := by
  unfold State.onLaunch
  split <;> rfl

theorem State.memories_epochReport (s : State) (a : Actor) (code va kind : Nat) (g : BitVec 48) :
    (s.epochReport a code va kind g).memories = s.memories :=
  (State.memories_onLaunch ..).trans (State.memories_logIt ..)

/-- A writer's tag is no byte of memory. -/
@[simp] theorem State.memories_tagAtom (s : State) (a : Actor) (line va : Nat) : (s.tagAtom a line va).memories = s.memories := by
  unfold State.tagAtom
  refine (apply_ite State.memories ..).trans ?_
  rw [State.memories_withTags, apply_ite State.memories, s.memories_epochReport, ite_self, ite_self]

@[simp] theorem State.memories_unordered (s : State) (line : Nat) : (s.unordered line).memories = s.memories := rfl

@[simp] theorem State.memories_tagRegion (s : State) (a : Actor) (l : Leaf) (line : Nat) (acc : List LineAccess) :
    (s.tagRegion a l line acc).memories = s.memories := by
  unfold State.tagRegion
  split
  · rfl
  · refine List.foldlRecOn (motive := fun u : State => u.memories = s.memories) _ _ rfl fun u same o _ => ?_
    rw [State.memories_unordered, State.memories_tagAtom, same]

theorem State.performAtomic_snd_memories (s : State) (who : Actor) (l : Leaf) (va size : Nat) (op : AOp) (n e : Word) :
    (s.performAtomic who l va size op n e).2.memories = (s.writePart l va (leBytes size (op.apply (8 * size)
      (leNat (s.readPart l va size)) (n.toNat % 2 ^ (8 * size)) (e.toNat % 2 ^ (8 * size))))).memories := by
  unfold State.performAtomic
  dsimp only
  split
  · rw [State.memories_unordered, State.memories_tagAtom]
  · rfl

@[simp] theorem State.readPart_onTile (s : State) (t : Nat) (f : Tile → Tile) (l : Leaf) (va n : Nat) :
    (s.onTile t f).readPart l va n = s.readPart l va n := rfl

/-! ### Values for flights -/

theorem Tile.writes_of_supply {x : Tile} {id now : Nat} {ws : List Write} {f : Flight}
    (mem : f ∈ (x.supply id now ws).seq.flights) (same : f.id = id) : f.writes = ws := by
  obtain ⟨g, -, rfl⟩ := List.mem_map.1 mem
  by_cases named : g.id = id
  · rw [if_pos named]
  · rw [if_neg named] at same; contradiction

theorem Tile.mem_of_mem_supply {x : Tile} {id now : Nat} {ws : List Write} {f : Flight}
    (mem : f ∈ (x.supply id now ws).seq.flights) (other : f.id ≠ id) : f ∈ x.seq.flights := by
  obtain ⟨g, mem, rfl⟩ := List.mem_map.1 mem
  by_cases named : g.id = id
  · rw [if_pos named] at other; contradiction
  · rwa [if_neg named]

/-- The writes of a line region's load, from the access and its value (R124, R131). -/
def loadWrites (p : LineAccess × Nat) : List Write :=
  if p.1.reg = 0 then [] else [.s p.1.reg (loadedValue p.1.size p.1.sx p.2)]

/-- The loads of a line region come to their flights. -/
def State.landLoads (s : State) (t now : Nat) (ps : List (LineAccess × Nat)) : State :=
  ps.foldl (fun s p => match p.1.flight with
    | some id => s.onTile t (·.supply id now (loadWrites p))
    | none => s) s

section
variable {t now : Nat}

theorem State.landLoads_cons_none {p : LineAccess × Nat} (h : p.1.flight = none) (s : State) (ps : List (LineAccess × Nat)) :
    s.landLoads t now (p :: ps) = s.landLoads t now ps := by
  simp [State.landLoads, h]

theorem State.landLoads_cons_some {p : LineAccess × Nat} {id : Nat} (h : p.1.flight = some id) (s : State)
    (ps : List (LineAccess × Nat)) :
    s.landLoads t now (p :: ps) = (s.onTile t (·.supply id now (loadWrites p))).landLoads t now ps := by
  simp [State.landLoads, h]

@[simp] theorem State.memories_landLoads (ps : List (LineAccess × Nat)) :
    ∀ s : State, (s.landLoads t now ps).memories = s.memories := by
  induction ps with
  | nil => exact fun _ => rfl
  | cons p ps ih =>
    intro s
    cases h : p.1.flight with
    | none => rw [State.landLoads_cons_none h, ih]
    | some id => rw [State.landLoads_cons_some h, ih, State.memories_onTile]

/-- A flight of no load stands as it did. -/
theorem State.mem_of_mem_landLoads {f : Flight} (ps : List (LineAccess × Nat)) (out : f.id ∉ ps.filterMap (·.1.flight)) :
    ∀ s : State, f ∈ ((s.landLoads t now ps).tile t).seq.flights → f ∈ (s.tile t).seq.flights := by
  induction ps with
  | nil => exact fun _ mem => mem
  | cons p ps ih =>
    intro s mem
    cases h : p.1.flight with
    | none =>
      rw [List.filterMap_cons_none (f := fun p : LineAccess × Nat => p.1.flight) h] at out
      rw [State.landLoads_cons_none h] at mem
      exact ih out s mem
    | some id =>
      rw [List.filterMap_cons_some (f := fun p : LineAccess × Nat => p.1.flight) h, List.mem_cons, not_or] at out
      rw [State.landLoads_cons_some h] at mem
      have earlier := ih out.2 _ mem
      rw [State.tile_onTile_self] at earlier
      exact Tile.mem_of_mem_supply earlier out.1

/-- With a flight of its own each load's flight holds the load's value. -/
theorem State.writes_of_landLoads {p : LineAccess × Nat} {id : Nat} {f : Flight} (flight : p.1.flight = some id) (same : f.id = id)
    (ps : List (LineAccess × Nat)) (own : (ps.filterMap (·.1.flight)).Nodup) (mem : p ∈ ps) :
    ∀ s : State, f ∈ ((s.landLoads t now ps).tile t).seq.flights → f.writes = loadWrites p := by
  induction ps with
  | nil => cases mem
  | cons q ps ih =>
    intro s flies
    cases h : q.1.flight with
    | none =>
      rw [State.landLoads_cons_none h] at flies
      rw [List.filterMap_cons_none (f := fun p : LineAccess × Nat => p.1.flight) h] at own
      obtain rfl | later := List.mem_cons.1 mem
      · rw [flight] at h; cases h
      · exact ih own later s flies
    | some n =>
      rw [State.landLoads_cons_some h] at flies
      rw [List.filterMap_cons_some (f := fun p : LineAccess × Nat => p.1.flight) h, List.nodup_cons] at own
      obtain ⟨out, own⟩ := own
      obtain rfl | later := List.mem_cons.1 mem
      · obtain rfl : id = n := Option.some.inj (flight.symm.trans h)
        have lands := State.mem_of_mem_landLoads ps (same ▸ out) _ flies
        rw [State.tile_onTile_self] at lands
        exact Tile.writes_of_supply lands same
      · exact ih own later _ flies

end

/-! ### What performs -/

/-- The state with an atomic out of its tile's list. -/
def State.dropAtomic (s : State) (t : Nat) (a : Atomic) : State :=
  s.onTile t fun x => { x with eng := { x.eng with atomics := x.eng.atomics.filter fun b => b.id != a.id } }

theorem State.finishAtomic_returning {a : Atomic} {op : AOp} {size d id : Nat} {n e : Word} (kind : a.kind = .scalar op size n e (some d))
    (flight : a.flight = some id) (s : State) (t : Nat) (l : Leaf) : s.finishAtomic t a l =
      ((s.dropAtomic t a).performAtomic (s.actor t) l a.va size op n e).2.onTile t
        (·.supply id (s.icc t) (if d = 0 then [] else [.s d (BitVec.ofNat 64 (leNat (s.readPart l a.va size)))])) := by
  unfold State.finishAtomic
  dsimp only
  rw [kind, flight]
  rfl

theorem State.finishAtomic_line {a : Atomic} {acc : List LineAccess} (kind : a.kind = .line acc) (s : State) (t : Nat) (l : Leaf) :
    s.finishAtomic t a l =
      (((s.dropAtomic t a).performLine l a.va acc).2.tagRegion (s.actor t) l a.va acc).landLoads t (s.icc t)
        ((s.dropAtomic t a).performLine l a.va acc).1 := by
  unfold State.finishAtomic
  dsimp only
  rw [kind]
  rfl

theorem State.performLine_store {e : LineAccess} (store : e.store = true) (s : State) (l : Leaf) (line : Nat) (r : List LineAccess) :
    s.performLine l line (e :: r) = (s.writePart l (line + e.off) (leBytes e.size e.data.toNat)).performLine l line r := by
  simp [State.performLine, store]

theorem State.performLine_load {e : LineAccess} (load : e.store = false) (s : State) (l : Leaf) (line : Nat) (r : List LineAccess) :
    s.performLine l line (e :: r) =
      ((e, leNat (s.readPart l (line + e.off) e.size)) :: (s.performLine l line r).1, (s.performLine l line r).2) := by
  simp [State.performLine, load]

section
variable {t id : Nat} {a : Atomic} {l : Leaf} {s : State} (part : t < Config.tiles)
  (found : (s.tile t).eng.atomics.find? (fun a => a.id == id) = some a) (leaf : a.leaf = some l) (goesOn : a.stopped = false)
  (leads : s.behind t id a.va = false)
  (comes : s.portFree (s.homeOf l a.va) = true ∨ s.atomicLate t a l = true ∨ s.pressed t id 0 = true)
include part found leaf goesOn leads comes

/-- A translated atomic behind no other performs or fails at its home, once that is free for it or its time has come. -/
theorem exec_atomicPerform : exec (.atomicPerform t id) s = .next ((s.homeFault l a.va).elim
    ((s.finishAtomic t a l).portMoves (s.homeOf l a.va) t 1).nextFree (s.stopAtomic t a)) := by
  have waits : (s.portFree (s.homeOf l a.va) || s.atomicLate t a l || s.pressed t id 0) = true := by
    simpa only [Bool.or_eq_true, or_assoc] using comes
  show execAtomicPerform t id s = _
  simp only [execAtomicPerform, ge_iff_le, Nat.not_le.2 part, if_false, found, leaf, goesOn, leads, waits, Bool.or_self, Bool.not_true,
    Bool.false_eq_true]
  cases s.homeFault l a.va <;> rfl

theorem exec_atomicPerform_fails {e : Nat} (fault : s.homeFault l a.va = some e) :
    exec (.atomicPerform t id) s = .next (s.stopAtomic t a e) := by
  rw [exec_atomicPerform part found leaf goesOn leads comes, fault, Option.elim_some]

theorem exec_atomicPerform_performs (sound : s.homeFault l a.va = none) :
    exec (.atomicPerform t id) s = .next ((s.finishAtomic t a l).portMoves (s.homeOf l a.va) t 1).nextFree := by
  rw [exec_atomicPerform part found leaf goesOn leads comes, sound, Option.elim_none]

end

/-! ### New values (R107, R126) -/

/-- A word's number with its sign is the one its bits stand for. -/
theorem sext_toNat {k : Nat} (pos : 0 < k) (x : BitVec k) : sext k x.toNat = x.toInt := by
  have half : 2 ^ k = 2 * 2 ^ (k - 1) := (mul_pow_sub_one pos.ne' 2).symm
  have cut : x.toNat < 2 ^ (k - 1) ↔ 2 * x.toNat < 2 ^ k := by omega
  rw [sext, Nat.mod_eq_of_lt x.isLt, BitVec.toInt_eq_toNat_cond, if_congr cut rfl rfl, Nat.cast_pow, Nat.cast_ofNat]

theorem AOp.apply_min {k : Nat} (pos : 0 < k) (m n : BitVec k) (e : Nat) :
    AOp.apply .min k m.toNat n.toNat e = (if n.toInt < m.toInt then n else m).toNat := by
  simp only [AOp.apply, sext_toNat pos]
  split <;> rfl

theorem AOp.apply_max {k : Nat} (pos : 0 < k) (m n : BitVec k) (e : Nat) :
    AOp.apply .max k m.toNat n.toNat e = (if m.toInt < n.toInt then n else m).toNat := by
  simp only [AOp.apply, sext_toNat pos]
  split <;> rfl

/-- Of two numbers compared without a sign the smaller, and the larger, is the new value. -/
theorem AOp.apply_unsigned (k m n e : Nat) :
    AOp.apply .minu k m n e = Min.min n m ∧ AOp.apply .maxu k m n e = Max.max n m := by
  simp only [AOp.apply]
  constructor <;> split <;> omega

@[simp] theorem Fmt.read_kept (f : Fmt) (x : Nat) : f.read false x = (f.unpack x, 0) := rfl
@[simp] theorem Fmt.asRead_kept (f : Fmt) (x : Nat) : f.asRead false x = x := rfl

section
variable (f : Fmt) (max : Bool) {x y : Nat}

/-- Without a NaN, the second operand where it lies beyond the first. -/
theorem Fmt.extreme_numbers (hx : (f.unpack x).isNan = false) (hy : (f.unpack y).isNan = false) : (f.extreme false max x y).1 =
    if max then if Fp.below true (f.unpack x) (f.unpack y) then y else x
    else if Fp.below true (f.unpack y) (f.unpack x) then y else x := by
  simp only [Fmt.extreme, hx, hy, Fmt.read, Fmt.asRead, Bool.false_and, Bool.false_eq_true, if_false]

theorem Fmt.extreme_nan_right (hx : (f.unpack x).isNan = false) (hy : (f.unpack y).isNan = true) :
    (f.extreme false max x y).1 = x := by
  simp [Fmt.extreme, hx, hy]

theorem Fmt.extreme_nan_left (hx : (f.unpack x).isNan = true) (hy : (f.unpack y).isNan = false) :
    (f.extreme false max x y).1 = y := by
  simp [Fmt.extreme, hx, hy]

theorem Fmt.extreme_nans {z : Nat} (hx : (f.unpack x).isNan = true) (hy : (f.unpack y).isNan = true)
    (leads : f.firstNan [f.unpack x] = some z) : (f.extreme false max x y).1 = z := by
  simp [Fmt.extreme, hx, hy, leads]

end

theorem Fmt.firstNan_cons {f : Fmt} {a : Fp} {x : Nat} (h : f.firstNan [a] = some x) (r : List Fp) :
    f.firstNan (a :: r) = some x := by
  cases a with
  | nan neg sig frac => exact h
  | inf neg => cases h
  | num neg m e => cases h

theorem Fmt.addFp_nan_left {f : Fmt} {a : Fp} {x : Nat} (h : f.firstNan [a] = some x) (flush : Bool) (rm : Rm) (b : Fp) :
    (f.addFp flush rm a b).1 = x := by
  simp [Fmt.addFp, Fmt.firstNan_cons h]

section
variable {k : Nat} {f : Fmt} (fmt : (if k = 32 then fp32 else fp64) = f) (m n e : Nat)
include fmt

theorem AOp.apply_fadd : AOp.apply .fadd k m n e = (f.addFp false .rne (f.unpack m) (f.unpack n)).1 := fmt ▸ rfl
theorem AOp.apply_fmin : AOp.apply .fmin k m n e = (f.extreme false false m n).1 := fmt ▸ rfl
theorem AOp.apply_fmax : AOp.apply .fmax k m n e = (f.extreme false true m n).1 := fmt ▸ rfl

end

/-! ### The engine of vector atomics -/

section
variable {t : Nat} {a : VAtomic} {as : List VAtomic} {s : State} (part : t < Config.tiles)
  (head : (s.tile t).eng.vatomics = a :: as) (goesOn : a.stopped = false)
include part head goesOn

theorem exec_vectorAtomicProcess_starts (fresh : a.started = false) (working : (s.tile t).working = true) (filled : a.lanes ≠ []) :
    exec (.vectorAtomicProcess t) s =
      .next (s.onVatomics t fun as => as.map fun b => if b.id = a.id then { b with started := true } else b) := by
  obtain ⟨⟨lane, va, n⟩, rest, lanes⟩ := List.exists_cons_of_ne_nil filled
  show execVectorAtomicProcess t s = _
  simp [execVectorAtomicProcess, Nat.not_le.2 part, head, goesOn, fresh, working, lanes]

theorem exec_vectorAtomicProcess_sends {lane va : Nat} {n : Word} {rest : List (Nat × Nat × Word)} (started : a.started = true)
    (lanes : a.lanes = (lane, va, n) :: rest) (leads : s.behind t a.id va = false) :
    exec (.vectorAtomicProcess t) s = .next (s.sendLane t a lane va n rest) := by
  show execVectorAtomicProcess t s = _
  simp [execVectorAtomicProcess, Nat.not_le.2 part, head, goesOn, started, lanes, leads]

theorem exec_vectorAtomicProcess_finishes (may : a.started = true ∨ (s.tile t).working = true) (lanes : a.lanes = []) :
    exec (.vectorAtomicProcess t) s = .next (s.finishVatomic t a) := by
  have may_ : (!a.started && !(s.tile t).working) = false := by
    obtain h | h := may <;> simp [h]
  show execVectorAtomicProcess t s = _
  simp [execVectorAtomicProcess, Nat.not_le.2 part, head, goesOn, may_, lanes]

end

/-- Settles O35: the step by its home's answer, what is put into the flights, and each operation's value. -/
theorem atomicSteps : Obligations.AtomicSteps := by
  refine ⟨?perform, ?value, ?returned, ?accesses, ?line, ?words, ?signed, ?floats, ?engine⟩
  case perform => exact fun t id a l s part found leaf goesOn leads comes =>
    ⟨fun e => exec_atomicPerform_fails part found leaf goesOn leads comes,
      exec_atomicPerform_performs part found leaf goesOn leads comes⟩
  case value => exact fun who l va size op n e s => ⟨rfl, congrArg Prod.fst (s.performAtomic_snd_memories who l va size op n e)⟩
  case returned =>
    intro s t a l op size n e d id _ kind flight named f flies same
    rw [State.finishAtomic_returning kind flight, State.tile_onTile_self, if_neg named] at flies
    exact Tile.writes_of_supply flies same
  case accesses => exact fun s l line e r =>
    ⟨rfl, fun store => s.performLine_store store l line r, fun load => s.performLine_load load l line r⟩
  case line =>
    intro s t a l acc kind
    have memories : (s.finishAtomic t a l).memories = ((s.dropAtomic t a).performLine l a.va acc).2.memories := by
      rw [State.finishAtomic_line kind, State.memories_landLoads, State.memories_tagRegion]
    refine ⟨congrArg (·.1) memories, congrArg (·.2.1) memories, congrArg (·.2.2) memories, fun own p load id flight f flies same => ?_⟩
    rw [State.finishAtomic_line kind] at flies
    exact State.writes_of_landLoads flight same _ own load _ flies
  case words => exact fun k m n e => ⟨rfl, rfl, rfl, rfl, rfl, rfl, AOp.apply_unsigned k m n e⟩
  case signed =>
    intro k width m n e
    have pos : 0 < k := by
      obtain rfl | rfl : k = 32 ∨ k = 64 := by simpa using width
      all_goals decide
    exact ⟨AOp.apply_min pos m n e, AOp.apply_max pos m n e⟩
  case floats =>
    intro m n e nan below p width
    have fmt : (if p.1 = 32 then fp32 else fp64) = p.2 := by
      obtain rfl | rfl : p = (32, fp32) ∨ p = (64, fp64) := by simpa using width
      all_goals rfl
    rw [AOp.apply_fadd fmt, AOp.apply_fmin fmt, AOp.apply_fmax fmt]
    exact ⟨rfl, fun hm hn => ⟨p.2.extreme_numbers false hm hn, p.2.extreme_numbers true hm hn⟩,
      fun hm hn => ⟨p.2.extreme_nan_right false hm hn, p.2.extreme_nan_right true hm hn⟩,
      fun hm hn => ⟨p.2.extreme_nan_left false hm hn, p.2.extreme_nan_left true hm hn⟩,
      fun hm hn x leads => ⟨Fmt.addFp_nan_left leads false .rne _, p.2.extreme_nans false hm hn leads,
        p.2.extreme_nans true hm hn leads⟩⟩
  case engine => exact fun t a as s part head goesOn =>
    ⟨exec_vectorAtomicProcess_starts part head goesOn,
      fun lane va n rest => exec_vectorAtomicProcess_sends part head goesOn,
      exec_vectorAtomicProcess_finishes part head goesOn⟩

end Sys2Proof.Machine
end

section
/-! PROOFS. The denomination path: requests, entries and activation rows (R240, R245, R246), and what a chunk and a group make of the
sums and of the row (R101, R242, R243). -/

namespace Sys2Proof.Machine

/-! ### Numbers and bytes -/

theorem leNat_drop (n : Nat) : ∀ bs : List Byte, leNat (bs.drop n) = leNat bs / 256 ^ n := by
  induction n with
  | zero => simp
  | succ n ih =>
    intro bs
    cases bs with
    | nil => simp [leNat]
    | cons x r =>
      have rest : leNat (x :: r) / 256 = leNat r := by
        have byte : x.toNat < 256 := x.isLt
        rw [leNat]; omega
      rw [List.drop_succ_cons, ih, Nat.pow_succ', ← Nat.div_div_eq_div_mul, rest]

theorem leNat_take (n : Nat) : ∀ bs : List Byte, leNat (bs.take n) = leNat bs % 256 ^ n := by
  induction n with
  | zero => simp [leNat, Nat.mod_one]
  | succ n ih =>
    intro bs
    cases bs with
    | nil => simp [leNat]
    | cons x r =>
      have byte : x.toNat < 256 := x.isLt
      rw [List.take_succ_cons, leNat, ih, Nat.pow_succ', Nat.mod_mul, leNat, Nat.add_mul_mod_self_left, Nat.mod_eq_of_lt byte,
        Nat.add_mul_div_left _ _ (by decide), Nat.div_eq_of_lt byte, Nat.zero_add]

theorem readBytes_part (m : Memory) {a n i k : Nat} (within : i + k ≤ n) :
    ((readBytes m a n).drop i).take k = readBytes m (a + i) k := by
  simp only [readBytes_eq]
  refine List.ext_getElem (by simp; omega) fun j _ _ => ?_
  simp [Nat.add_assoc]

theorem readNat_part (m : Memory) {a n i k : Nat} (within : i + k ≤ n) :
    readNat m a n / 256 ^ i % 256 ^ k = readNat m (a + i) k := by
  rw [readNat, ← leNat_drop, ← leNat_take, readBytes_part m within, readNat]

theorem readNat_lt (m : Memory) (a n : Nat) : readNat m a n < 256 ^ n := by
  have whole := readNat_part m (a := a) (Nat.le_of_eq (Nat.zero_add n))
  rw [Nat.pow_zero, Nat.div_one, Nat.add_zero] at whole
  exact whole ▸ Nat.mod_lt _ (Nat.pow_pos (by decide))

theorem toNat_ofNat_readNat (m : Memory) (a n : Nat) : (BitVec.ofNat (8 * n) (readNat m a n)).toNat = readNat m a n := by
  rw [BitVec.toNat_ofNat, Nat.pow_mul, Nat.mod_eq_of_lt (readNat_lt m a n)]

/-- Column b of an activation row stands at 2 b of its bytes (R240). -/
theorem Tile.activation_column (x : Tile) (r : MmadReq) (p : Nat) {b : Nat} (column : b < 32) :
    ((x.activation r p).extractLsb' (16 * b) 16).toNat = readNat x.st (r.base + 64 * p + 2 * b) 2 := by
  have bits : 2 ^ (16 * b) = 256 ^ (2 * b) := by rw [show 256 = 2 ^ 8 from rfl, ← Nat.pow_mul]; congr 1; omega
  have whole : (x.activation r p).toNat = readNat x.st (r.base + 64 * p) 64 := toNat_ofNat_readNat x.st _ 64
  rw [← readNat_part x.st (n := 64) (by omega), BitVec.extractLsb'_toNat, whole, Nat.shiftRight_eq_div_pow, bits]
  rfl

/-! ### Rows of an accumulator tile -/

/-- A bit of an element is that bit among elements side by side. -/
theorem testBit_packElems {k i : Nat} (inside : i < k) (xs : List Nat) :
    ∀ j, (packElems k xs).testBit (k * j + i) = (xs.getD j 0).testBit i := by
  induction xs with
  | nil => simp [packElems]
  | cons x xs ih =>
    intro j
    rw [packElems, Nat.add_comm, Nat.mul_comm (packElems k xs), Nat.testBit_two_pow_mul_add _ (Nat.mod_lt _ (Nat.two_pow_pos k))]
    cases j with
    | zero => simp [inside]
    | succ j =>
      rw [if_neg (by rw [Nat.mul_succ]; omega), Nat.mul_succ, show k * j + k + i - k = k * j + i by omega, ih, List.getD_cons_succ]

/-- Replacing a row's columns 0 to 31 replaces these elements alone (R248). -/
theorem AccTile.setRow_elem (a : AccTile) (r : Nat) {xs : List (BitVec 32)} (whole : xs.length = 32) {n : Nat} (inside : n < 2048) :
    (AccTile.setRow a r xs).extractLsb' (32 * n) 32 =
      if 64 * r ≤ n ∧ n < 64 * r + 32 then xs.getD (n - 64 * r) 0 else a.extractLsb' (32 * n) 32 := by
  refine BitVec.eq_of_getLsbD_eq fun i bit => ?_
  have within : 32 * n + i < 65536 := by omega
  have row : rowBit r = 32 * (64 * r) := by unfold rowBit; omega
  have packed : ∀ j, (packElems 32 (xs.map (·.toNat))).testBit (32 * j + i) = (xs.getD j 0).getLsbD i := fun j =>
    (testBit_packElems bit _ j).trans (by rw [show (0 : Nat) = (0 : BitVec 32).toNat from rfl, List.getD_map]; rfl)
  rw [AccTile.setRow, BitVec.getLsbD_extractLsb', BitVec.getLsbD_or, BitVec.getLsbD_and, BitVec.getLsbD_not, BitVec.getLsbD_ofNat,
    BitVec.getLsbD_ofNat, Nat.testBit_mul_two_pow, Nat.testBit_mul_two_pow, Nat.testBit_two_pow_sub_one, row]
  by_cases before : n < 64 * r
  · have out : ¬ (64 * r ≤ n ∧ n < 64 * r + 32) := by omega
    have short : ¬ 32 * (64 * r) ≤ 32 * n + i := by omega
    simp [out, short, within, bit]
  · have place : 32 * n + i - 32 * (64 * r) = 32 * (n - 64 * r) + i := by omega
    have after : 32 * (64 * r) ≤ 32 * n + i := by omega
    rw [place, packed]
    by_cases beyond : n < 64 * r + 32
    · have inRow : 64 * r ≤ n ∧ n < 64 * r + 32 := by omega
      have hole : 32 * (n - 64 * r) + i < 1024 := by omega
      simp [inRow, after, hole, within, bit]
    · have out : ¬ (64 * r ≤ n ∧ n < 64 * r + 32) := by omega
      have past : ¬ 32 * (n - 64 * r) + i < 1024 := by omega
      have absent : xs.getD (n - 64 * r) 0 = 0 := List.getD_eq_default _ _ (by omega)
      rw [absent]
      simp [out, past, within, bit]

/-! ### The open chunk and a group's boundary -/

theorem Mmad.position_ready {m : Mmad} {p : Nat} {row : BitVec 512} (h : find p m.ahead = some row) :
    (m.position p).chunk = m.chunk ++ [(p, some row)] := by
  simp [Mmad.position, h]

theorem Mmad.position_unread {m : Mmad} {p : Nat} (h : find p m.ahead = none) :
    (m.position p).chunk = m.chunk ++ [(p, none)] ∧ (m.position p).ahead = m.ahead := by
  simp [Mmad.position, h]

theorem Mmad.length_position (m : Mmad) (p : Nat) : (m.position p).chunk.length = m.chunk.length + 1 := by
  simp [Mmad.position]

/-- The window sum of column b over a tile's open chunk (R101). -/
def Tile.chunkSum (x : Tile) (r : MmadReq) (b : Nat) : Nat × Flags :=
  windowSum (termOf fp32 (x.eng.mmad.sums.getD b 0).toNat :: x.eng.mmad.chunk.map fun e =>
    termOf bf16 ((e.2.getD (x.activation r e.1)).extractLsb' (16 * b) 16).toNat)

theorem Tile.flush_empty {x : Tile} (r : MmadReq) (h : x.eng.mmad.chunk = []) : x.flush r = x := by
  simp [Tile.flush, h]

theorem Tile.flush_open {x : Tile} (r : MmadReq) (h : x.eng.mmad.chunk ≠ []) : x.flush r =
    ({ x with eng := { x.eng with mmad := { x.eng.mmad with
        sums := (List.range 32).map fun b => BitVec.ofNat 32 (x.chunkSum r b).1, chunk := [] } } } : Tile).raise
      (anyFlags ((List.range 32).map fun b => (x.chunkSum r b).2)) := by
  simp only [Tile.flush, List.isEmpty_iff, h, if_false, flushChunk, List.map_map]
  rfl

/-- A column's sum times the group's value (R101). -/
def Mmad.groupProduct (m : Mmad) (v : BitVec 16) (b : Nat) : Nat × Flags :=
  windowSum [(termOf fp32 (m.sums.getD b 0).toNat).mul (termOf bf16 v.toNat)]

/-- A column's element of the row with that added (R101). -/
def Mmad.groupSum (m : Mmad) (v : BitVec 16) (b : Nat) : Nat × Flags :=
  windowSum [termOf fp32 (m.row.getD b 0).toNat, termOf fp32 (m.groupProduct v b).1]

/-- The request's row after a group. -/
def Mmad.groupRow (m : Mmad) (v : BitVec 16) : List (BitVec 32) := (List.range 32).map fun b => BitVec.ofNat 32 (m.groupSum v b).1

theorem Mmad.getD_groupRow (m : Mmad) (v : BitVec 16) {b : Nat} (column : b < 32) :
    (m.groupRow v).getD b 0 = BitVec.ofNat 32 (m.groupSum v b).1 := by
  simp [Mmad.groupRow, column]

theorem Tile.accumulate_eq (x : Tile) (r : MmadReq) (v : BitVec 16) : x.accumulate r v = ({ x with
      regs := { x.regs with acc := put 0 r.acc (AccTile.setRow (look 0 r.acc x.regs.acc) r.row (x.eng.mmad.groupRow v)) x.regs.acc }
      eng := { x.eng with mmad := { x.eng.mmad with row := x.eng.mmad.groupRow v, sums := List.replicate 32 0 } } } : Tile).raise
    (anyFlags ((List.range 32).map fun b => (x.eng.mmad.groupProduct v b).2 ||| (x.eng.mmad.groupSum v b).2)) := by
  simp only [Tile.accumulate, List.map_map]
  rfl

/-- An element of the request's accumulator tile after a group's boundary. -/
theorem Tile.accumulate_elem (x : Tile) (r : MmadReq) (v : BitVec 16) {n : Nat} (inside : n < 2048) :
    (look 0 r.acc (x.accumulate r v).regs.acc).extractLsb' (32 * n) 32 =
      if 64 * r.row ≤ n ∧ n < 64 * r.row + 32 then (x.eng.mmad.groupRow v).getD (n - 64 * r.row) 0
      else (look 0 r.acc x.regs.acc).extractLsb' (32 * n) 32 := by
  rw [Tile.accumulate_eq]
  show (look 0 r.acc (put 0 r.acc _ x.regs.acc)).extractLsb' (32 * n) 32 = _
  rw [look_put, if_pos rfl, AccTile.setRow_elem _ _ (by simp [Mmad.groupRow]) inside]

/-! ### Steps of the path -/

/-- A started request works with empty sums on a copy of its row (log entry 35). -/
def Mmad.startedOn (m : Mmad) (row : List (BitVec 32)) : Mmad :=
  { m with started := true, row := row, chunk := [], ahead := [], sums := List.replicate 32 0 }

/-- The state after an entry of a request's queue has gone. -/
def State.entryPopped (s : State) (t : Nat) (r : MmadReq) (rest : List (BitVec 32)) : State :=
  s.onTile t fun x => { x with eng := { x.eng with
    q := vset x.eng.q r.q rest, pops := (s.icc t, r.q) :: x.eng.pops.filter fun e => e.1 == s.icc t } }

/-- An activation row that has been read: it goes to the chunk's positions that have none, or waits for a position to come (R246). -/
def Mmad.rowRead (m : Mmad) (pos : Nat) (row : BitVec 512) : Mmad :=
  if m.chunk.any fun e => e.1 == pos && e.2.isNone then
    { m with chunk := m.chunk.map fun e => if e.1 = pos && e.2.isNone then (pos, some row) else e }
  else { m with ahead := m.ahead ++ [(pos, row)] }

theorem Mmad.rowRead_keeps (m : Mmad) (pos : Nat) (row : BitVec 512) :
    (m.rowRead pos row).reqs = m.reqs ∧ (m.rowRead pos row).sums = m.sums := by
  unfold Mmad.rowRead
  split <;> exact ⟨rfl, rfl⟩

theorem Mmad.rowRead_joins {m : Mmad} {pos : Nat} (waits : ∃ e ∈ m.chunk, e.1 = pos ∧ e.2 = none) (row : BitVec 512) :
    m.rowRead pos row =
      { m with chunk := m.chunk.map fun e => if e.1 = pos ∧ e.2 = none then (pos, some row) else e } := by
  have any : (m.chunk.any fun e => e.1 == pos && e.2.isNone) = true := by
    simpa only [List.any_eq_true, Bool.and_eq_true, beq_iff_eq, Option.isNone_iff_eq_none] using waits
  simp only [Mmad.rowRead, any, if_true, Bool.and_eq_true, decide_eq_true_eq, Option.isNone_iff_eq_none]

theorem Mmad.rowRead_ahead {m : Mmad} {pos : Nat} (absent : ∀ e ∈ m.chunk, ¬ (e.1 = pos ∧ e.2 = none)) (row : BitVec 512) :
    m.rowRead pos row = { m with ahead := m.ahead ++ [(pos, row)] } := by
  refine if_neg fun any => ?_
  obtain ⟨e, mem, waits⟩ := List.any_eq_true.1 any
  exact absent e mem (by simpa only [Bool.and_eq_true, beq_iff_eq, Option.isNone_iff_eq_none] using waits)

section
variable {s : State} {t : Nat} {r : MmadReq} {rs : List MmadReq} (part : t < Config.tiles) (working : (s.tile t).working = true)
  (reqs : (s.tile t).eng.mmad.reqs = r :: rs)
include part working reqs

section
variable (idle : (s.tile t).eng.mmad.started = false)
include idle

theorem exec_mmadRequestStart_landed (landed : (s.tile t).pending (s.icc t) (.acc r.acc) = false) : exec (.mmadRequestStart t) s =
    .next (s.onMmad t (·.startedOn (AccTile.row (look 0 r.acc (s.tile t).regs.acc) r.row))).nextFree := by
  show execMmadRequestStart t s = _
  simp only [execMmadRequestStart, ge_iff_le, Nat.not_le.2 part, if_false, working, idle, reqs, landed, Bool.false_and,
    Bool.false_eq_true]
  rfl

theorem exec_mmadRequestStart_waits (busy : (s.tile t).pending (s.icc t) (.acc r.acc) = true) (gm : (s.tile t).sys.gm = true) :
    exec (.mmadRequestStart t) s = .next s := by
  show execMmadRequestStart t s = _
  simp only [execMmadRequestStart, ge_iff_le, Nat.not_le.2 part, if_false, working, idle, reqs, busy, gm, Bool.and_self, if_true]

theorem exec_mmadRequestStart_open (busy : (s.tile t).pending (s.icc t) (.acc r.acc) = true) (gm : (s.tile t).sys.gm = false) :
    ∃ row, exec (.mmadRequestStart t) s = .next (s.onMmad t (·.startedOn row)).nextFree := by
  have step : exec (.mmadRequestStart t) s = execMmadRequestStart t s := rfl
  simp only [execMmadRequestStart, ge_iff_le, Nat.not_le.2 part, if_false, working, idle, reqs, busy, gm, Bool.and_false,
    Bool.false_eq_true] at step
  exact ⟨_, step⟩

end

variable (started : (s.tile t).eng.mmad.started = true)
include started

section
variable {e : BitVec 32} {rest : List (BitVec 32)} (queue : vget [] (s.tile t).eng.q r.q = e :: rest)
include queue

/-- A position below the limit joins the chunk, which is closed at 64. -/
theorem exec_mmadEntryPop_position (kind : e.extractLsb' 30 2 = 0)
    (below : r.base + 64 * (e.extractLsb' 0 14).toNat + 64 ≤ r.lim) :
    let u := (s.entryPopped t r rest).onMmad t (·.position (e.extractLsb' 0 14).toNat)
    exec (.mmadEntryPop t) s =
      .next (if (s.tile t).eng.mmad.chunk.length < 63 then u else u.onTile t (·.flush r)) := by
  intro u
  have length : (u.tile t).eng.mmad.chunk.length < 64 ↔ (s.tile t).eng.mmad.chunk.length < 63 := by
    have grown : (u.tile t).eng.mmad.chunk.length = (s.tile t).eng.mmad.chunk.length + 1 := by
      simp only [u, State.onMmad, State.entryPopped, State.tile_onTile_self, Mmad.length_position]
    omega
  rw [← if_congr length rfl rfl]
  show execMmadEntryPop t s = _
  simp only [execMmadEntryPop, ge_iff_le, Nat.not_le.2 part, if_false, working, started, reqs, queue, kind, if_true,
    Nat.not_lt.2 below]
  rfl

theorem exec_mmadEntryPop_beyond (kind : e.extractLsb' 30 2 = 0)
    (beyond : r.lim < r.base + 64 * (e.extractLsb' 0 14).toNat + 64) :
    exec (.mmadEntryPop t) s = .next ((s.entryPopped t r rest).found t { code := 0x4A, slot := 3 }) := by
  show execMmadEntryPop t s = _
  simp only [execMmadEntryPop, ge_iff_le, Nat.not_le.2 part, if_false, working, started, reqs, queue, kind, if_true, beyond]
  rfl

theorem exec_mmadEntryPop_boundary (kind : e.extractLsb' 30 2 = 1) : exec (.mmadEntryPop t) s =
    .next ((s.entryPopped t r rest).onTile t fun x => (x.flush r).accumulate r (e.extractLsb' 0 16)) := by
  have other : ¬ (1 : BitVec 2) = 0 := by decide
  show execMmadEntryPop t s = _
  simp only [execMmadEntryPop, ge_iff_le, Nat.not_le.2 part, if_false, working, started, reqs, queue, kind, other, if_true]
  rfl

theorem exec_mmadEntryPop_row (kind : e.extractLsb' 30 2 = 2) : exec (.mmadEntryPop t) s =
    .next ((s.entryPopped t r rest).onMmad t (·.ended (s.icc t))) := by
  have others : ¬ (2 : BitVec 2) = 0 ∧ ¬ (2 : BitVec 2) = 1 := by decide
  show execMmadEntryPop t s = _
  simp only [execMmadEntryPop, ge_iff_le, Nat.not_le.2 part, if_false, working, started, reqs, queue, kind, others.1, others.2]
  rfl

end

variable {pos : Nat} (below : r.base + 64 * pos + 64 ≤ r.lim)
include below

/-- An activation row is what staging holds on this cycle. -/
theorem exec_mmadActivationRead : exec (.mmadActivationRead t pos) s =
    .next (s.onMmad t (·.rowRead pos ((s.tile t).activation r pos))) := by
  show execMmadActivationRead t pos s = _
  simp only [execMmadActivationRead, ge_iff_le, Nat.not_le.2 part, if_false, working, started, reqs, Nat.not_lt.2 below]
  rfl

end

/-- Settles O33: one equation per branch of the three steps, and what a chunk's closing and a boundary write. -/
theorem denominationPathSteps : Obligations.DenominationPathSteps := by
  refine ⟨?start, ?early, ?pop, ?read, ?column, ?position, ?flush, ?boundary⟩
  case start =>
    intro t r rs s part working idle reqs landed
    refine ⟨_, exec_mmadRequestStart_landed part working reqs idle landed, ?_⟩
    beta_reduce
    rw [State.tile_nextFree, State.onMmad, State.tile_onTile_self]
    exact ⟨rfl, rfl, rfl⟩
  case early =>
    intro t r rs s part working idle reqs busy
    refine ⟨exec_mmadRequestStart_waits part working reqs idle busy, fun gm => ?_⟩
    obtain ⟨row, step⟩ := exec_mmadRequestStart_open part working reqs idle busy gm
    refine ⟨_, step, ?_⟩
    beta_reduce
    rw [State.tile_nextFree, State.onMmad, State.tile_onTile_self]
    exact ⟨rfl, reqs, rfl⟩
  case pop =>
    intro t r rs e rest s part working started reqs queue
    refine ⟨exec_mmadEntryPop_beyond part working reqs started queue, fun kind below short => ?_, fun kind below full => ?_,
      exec_mmadEntryPop_boundary part working reqs started queue,
      fun kind => ⟨_, exec_mmadEntryPop_row part working reqs started queue kind, ?_⟩⟩
    · exact (exec_mmadEntryPop_position part working reqs started queue kind below).trans (by rw [if_pos short]; rfl)
    · exact (exec_mmadEntryPop_position part working reqs started queue kind below).trans (by rw [if_neg (Nat.not_lt.2 full)]; rfl)
    · beta_reduce
      rw [State.onMmad, State.tile_onTile_self, State.entryPopped, State.tile_onTile_self]
      exact ⟨by simp [Mmad.ended, reqs], rfl, vget_vset_self _ _ _, fun j => vget_vset_of_ne _ _ _, rfl, rfl, rfl⟩
  case read =>
    intro t pos r rs s part working started reqs below
    refine ⟨_, exec_mmadActivationRead part working reqs started below, ?_⟩
    beta_reduce
    rw [State.onMmad, State.tile_onTile_self]
    obtain ⟨list, sums⟩ := (s.tile t).eng.mmad.rowRead_keeps pos ((s.tile t).activation r pos)
    refine ⟨fun absent => ?_, fun waits => ?_, list.trans reqs, sums, rfl, rfl, rfl, rfl,
      fun v other => (State.tile_onTile ..).trans (if_neg other)⟩
    · rw [Mmad.rowRead_ahead absent]; exact ⟨rfl, rfl⟩
    · rw [Mmad.rowRead_joins waits]; exact ⟨rfl, rfl⟩
  case column => exact fun x r p b => x.activation_column r p
  case position => exact fun m p => ⟨fun row => Mmad.position_ready, Mmad.position_unread⟩
  case flush =>
    intro x r m sum
    refine ⟨x.flush_empty r, fun filled => ?_⟩
    rw [Tile.flush_open r filled]
    refine ⟨rfl, rfl, fun b column => ?_, rfl, rfl, rfl⟩
    simp [Tile.raise, column, Tile.chunkSum, sum, m]
  case boundary =>
    intro x r v row m prod new y elem
    have written : ∀ b, b < 32 → (m.groupRow v).getD b 0 = BitVec.ofNat 32 (new b).1 := fun b => m.getD_groupRow v
    have others : ∀ j, j ≠ r.acc → look 0 j y.regs.acc = look 0 j x.regs.acc := fun j other => by
      simp only [y, Tile.accumulate_eq]
      exact (look_put ..).trans (if_neg other)
    have kept : y.sys = { x.sys with fpsr := x.sys.fpsr ||| anyFlags ((List.range 32).map fun b => (prod b).2 ||| (new b).2) } := by
      simp only [y, Tile.accumulate_eq]
      rfl
    refine ⟨fun b column => ⟨?_, ?_, ?_⟩, fun q c hq hc out => ?_, kept, others, rfl, rfl, rfl, rfl, rfl, rfl⟩
    · refine (x.accumulate_elem r v (by omega)).trans ?_
      rw [if_pos (by omega), Nat.add_sub_cancel_left, written b column]
    · simp only [y, Tile.accumulate_eq]
      exact written b column
    · simp only [y, Tile.accumulate_eq]
      exact List.getD_replicate _ column
    · exact (x.accumulate_elem r v (by omega)).trans (if_neg (by omega))

end Sys2Proof.Machine
end

section
/-! PROOFS. The scalar results at issue: integer operations, compares, LIH and YIELDCHK (R109, R112 to R114, R136). -/

namespace Sys2Proof.Machine

/-! ### What the arithmetic computes (R112) -/

theorem divU_eq (a b : Word) : divU a b = if b = 0 then -1 else BitVec.ofNat 64 (a.toNat / b.toNat) := by
  unfold divU
  rw [← BitVec.toNat_udiv, BitVec.ofNat_toNat, BitVec.setWidth_eq]

theorem remU_eq (a b : Word) : remU a b = if b = 0 then a else BitVec.ofNat 64 (a.toNat % b.toNat) := by
  unfold remU
  rw [← BitVec.toNat_umod, BitVec.ofNat_toNat, BitVec.setWidth_eq]

theorem minS_eq (a b : Word) : minS a b = if a.toInt < b.toInt then a else b := by
  unfold minS
  simp only [BitVec.slt_iff_toInt_lt]

theorem maxS_eq (a b : Word) : maxS a b = if a.toInt < b.toInt then b else a := by
  unfold maxS
  simp only [BitVec.slt_iff_toInt_lt]

theorem minU_eq (a b : Word) : minU a b = if a.toNat < b.toNat then a else b := by
  unfold minU
  simp only [BitVec.ult_iff_lt, BitVec.lt_def]

theorem maxU_eq (a b : Word) : maxU a b = if a.toNat < b.toNat then b else a := by
  unfold maxU
  simp only [BitVec.ult_iff_lt, BitVec.lt_def]

/-- LIH's result is its two parts side by side, and so their sum (R113). -/
theorem lihResult_eq (imm : BitVec 40) (a : Word) : imm.extractLsb' 0 24 ++ a.extractLsb' 0 40 =
    BitVec.ofNat 64 (imm.toNat % 2 ^ 24 * 2 ^ 40 + a.toNat % 2 ^ 40) := by
  apply BitVec.eq_of_toNat_eq
  rw [toNat_append_eq_add, BitVec.extractLsb'_toNat, BitVec.extractLsb'_toNat, BitVec.toNat_ofNat]
  omega

/-! ### LIH's word (R113) -/

/-- The upper 16 bits of the immediate are 0 where it is one of 24 bits. -/
theorem extractLsb'_upper_eq_zero (imm : BitVec 40) : imm.extractLsb' 24 16 = 0 ↔ imm.toNat < 0x1000000 := by
  have bound := imm.isLt
  rw [← BitVec.toNat_inj, BitVec.extractLsb'_toNat, Nat.shiftRight_eq_div_pow]
  simp only [BitVec.ofNat_eq_ofNat, BitVec.toNat_ofNat]
  omega

theorem decodeWord_lih (g : Guard) (f : SI) : decodeWord .s (0x070#10 ++ BitVec.ofBool g.gn ++ g.gp ++ f.bits) =
    if f.imm.extractLsb' 24 16 = 0 then .ok (.lih f) else .error .reservedField := by
  have reads : decodeWide .s 0x070 f.bits = decodeLih f.bits := rfl
  rw [decodeWord_wide _ (by decide) (by decide), word_opcode, word_fields, show (0x070#10).toNat = 0x070 from rfl, reads,
    decodeLih, SI.ofBits_bits]
  simp only [extractLsb'_upper_eq_zero]
  split
  · next small => exact checkFields_eq_ok.2 ⟨rfl, decide_eq_true small⟩
  · rfl

/-! ### The obligations -/

/-- Settles O1: the values that the statement writes out are the arithmetic's, and each meaning is the one form with its value. -/
theorem scalarRegisterResults : Obligations.ScalarRegisterResults := by
  unfold Obligations.ScalarRegisterResults
  simp only [← divU_eq, ← remU_eq, ← minS_eq, ← maxS_eq, ← minU_eq, ← maxU_eq]
  and_intros
  all_goals exact fun _ => issuesAs_of_runSlot fun _ => rfl

/-- Settles O2: the same arithmetic on the sign-extended immediate. -/
theorem scalarImmediateResults : Obligations.ScalarImmediateResults := by
  unfold Obligations.ScalarImmediateResults
  simp only [← divU_eq, ← remU_eq, ← minS_eq, ← maxS_eq, ← minU_eq, ← maxU_eq]
  and_intros
  all_goals exact fun _ => issuesAs_of_runSlot fun _ => rfl

/-- Settles O3: each meaning is its test in flight, and the orders of words are by definition those of their numbers. -/
theorem compareResults : Obligations.CompareResults := by
  unfold Obligations.CompareResults
  and_intros
  all_goals exact fun _ => issuesAs_of_runSlot fun _ => rfl

/-- Settles O57: the result's parts do not overlap, and the immediate's upper bits alone decide whether the word decodes. -/
theorem lihRule : Obligations.LihRule := by
  unfold Obligations.LihRule
  simp only [← lihResult_eq]
  exact ⟨fun _ => issuesAs_of_runSlot fun _ => rfl,
    fun g f => ⟨fun h => (decodeWord_lih g f).trans (if_neg h), fun h => (decodeWord_lih g f).trans (if_pos h)⟩, rfl⟩

/-- Settles O58: YIELDCHK issues as it does among the operations on system registers, with a mask of 0 no bit is selected, and the
word's two fields are read back. -/
theorem yieldchkRule : Obligations.YieldchkRule := by
  unfold Obligations.YieldchkRule
  obtain ⟨-, -, -, -, -, -, selects, -⟩ := systemRegisterResults
  refine ⟨selects, fun pd s goes => selects pd 0 s goes, ?word⟩
  case word =>
    intro g pd mask
    rw [decodeWord_wide _ (by decide) (by decide), word_opcode, word_fields]
    exact checkFields_eq_ok.2 ⟨decodeFields_twoFields pd mask .yieldchk, rfl⟩

end Sys2Proof.Machine
end

section
/-! PROOFS. What generators, loops, branches, waits, accesses of staging, atomics and line regions leave at issue (R111, R116 to R118,
R122, R124 to R128, R131, R133 to R135, R148, R149, R154). -/

namespace Sys2Proof.Machine

/-- The next state of an operation that goes, with its effect written in another way. -/
theorem IssuesAs.next_eq {i : Instr} {eff : Ctx → State → State} {s u : State} (h : IssuesAs i eff) (goes : Goes i s)
    (same : eff (s.ctx i) s = u) : exec i s = .next u.nextFree := same ▸ h s goes

/-! ### Accesses of staging (R124, R125, R131) -/

section
variable {s : State} {c : Ctx}

theorem State.load_closed (closed : (s.tile c.t).eng.region = none) (f : SM) : s.load c f =
    let a := (s.gen c f.g).2.toNat
    let far := (s.gen c f.g).1.space = 1
    let h := hopCount c.t (islandTarget c.t a).1
    let src := if far then islandTarget c.t a else (c.t, a)
    let cycle := if far then c.now + 6 + h else c.now + 1
    (s.flightTo c (if f.d = 0 then [] else [.s f.d.toNat]) cycle (if far then c.now + 12 + 2 * h else c.now + 4)).onSeq c.t
      fun q => { q with stReads := q.stReads ++
        [{ cycle := cycle, tile := src.1, slot := c.slot, addr := src.2, len := Machine.sizeOf f.size
           use := .scalar s.nextId f.d.toNat f.sx, issue := c.now }] } := by
  unfold State.load
  simp only [closed]

theorem State.store_closed (closed : (s.tile c.t).eng.region = none) (f : SM) : s.store c f =
    let a := (s.gen c f.g).2.toNat
    let far := (s.gen c f.g).1.space = 1
    let h := hopCount c.t (islandTarget c.t a).1
    let dst := if far then islandTarget c.t a else (c.t, a)
    s.onSeq c.t fun q => { q with stWrites := q.stWrites ++
        [{ cycle := if far then c.now + 6 + h else c.now + 1, tile := dst.1, slot := c.slot, addr := dst.2
           bytes := leBytes (Machine.sizeOf f.size) (s.readS c f.d).toNat, issue := c.now, isle := far }] } := by
  unfold State.store
  simp only [closed, storeBytes]

variable {line : Nat} {acc : List LineAccess}

theorem State.load_region (opened : (s.tile c.t).eng.region = some (line, acc)) (f : SM) : s.load c f =
    (s.flightTo c (if f.d = 0 then [] else [.s f.d.toNat]) never never).onTile c.t fun x => { x with eng := { x.eng with
      region := some (line, acc ++ [{ store := false, off := (s.gen c f.g).2.toNat % 128, size := Machine.sizeOf f.size
                                      reg := f.d.toNat, sx := f.sx, data := 0, flight := some s.nextId }]) } } := by
  unfold State.load
  simp only [opened]

theorem State.store_region (opened : (s.tile c.t).eng.region = some (line, acc)) (f : SM) : s.store c f =
    s.onTile c.t fun x => { x with eng := { x.eng with
      region := some (line, acc ++ [{ store := true, off := (s.gen c f.g).2.toNat % 128, size := Machine.sizeOf f.size
                                      reg := 0, sx := false, data := s.readS c f.d }]) } } := by
  unfold State.store
  simp only [opened]

end

/-- LD and ST complete with their access. -/
theorem issuesAs_ld (f : SM) : IssuesAs (.ld f) fun c s => s.load c f := issuesAs_of_runSlot fun _ => rfl
theorem issuesAs_st (f : SM) : IssuesAs (.st f) fun c s => s.store c f := issuesAs_of_runSlot fun _ => rfl

/-! ### Reads of staging (R124, R277) -/

/-- Reading an arrival word's generation changes what is ordered after it alone. -/
theorem State.seesGen_same (s : State) (tile addr n gen : Nat) : ∃ os, s.seesGen tile addr n gen = { s with ordered := os } :=
  ⟨_, rfl⟩

theorem State.readsGens_same (s : State) (r : StRead) : ∃ os, s.readsGens r = { s with ordered := os } := by
  unfold State.readsGens
  refine List.foldlRecOn (motive := fun u : State => ∃ os, u = { s with ordered := os }) _ _ ⟨s.ordered, rfl⟩ ?_
  rintro u ⟨os, rfl⟩ a -
  split
  · exact State.seesGen_same ..
  · exact ⟨_, rfl⟩

theorem State.deliver_scalar {t : Nat} {r : StRead} {id reg : Nat} {sx : Bool} (use : r.use = .scalar id reg sx) (s : State) :
    ∃ os, s.deliver t r = State.onSeq { s with ordered := os } t fun q => { q with flights := q.flights.map fun g =>
      if g.id = id then { g with writes := if reg = 0 then [] else
        [.s reg (loadedValue r.len sx (leNat (readBytes (s.tile r.tile).st r.addr r.len)))] } else g } := by
  obtain ⟨os, same⟩ := s.readsGens_same r
  refine ⟨os, ?_⟩
  unfold State.deliver
  simp only [same, use]
  rfl

theorem loadedValue_signed {size n : Nat} (pos : 0 < size) (fits : n < 2 ^ (8 * size)) :
    loadedValue size true n = (BitVec.ofNat (8 * size) n).signExtend 64 := by
  have toNat : (BitVec.ofNat (8 * size) n).toNat = n := Nat.mod_eq_of_lt fits
  calc loadedValue size true n = BitVec.ofInt 64 (sext (8 * size) (BitVec.ofNat (8 * size) n).toNat) := by rw [toNat]; rfl
    _ = (BitVec.ofNat (8 * size) n).signExtend 64 := by rw [sext_toNat (by omega)]; rfl

/-! ### Atomics and line regions (R126 to R128, R131) -/

theorem State.atomic_atomics (c : Ctx) (s : State) (f : SM) (op : AOp) (ret : Bool) :
    ((s.atomic c f op ret).tile c.t).eng.atomics = (s.tile c.t).eng.atomics ++
      [{ id := s.nextId, va := (s.gen c f.g).2.toNat, issue := c.now, flight := if ret then some s.nextId else none
         kind := .scalar op (Machine.sizeOf f.size) (s.readS c f.b) (s.readS c f.d) (if ret then some f.d.toNat else none) }] := by
  cases ret <;> simp [State.atomic, State.flightTo]

/-- What ALEND does to its tile: the region is closed, and one with accesses is the last of the tile's atomics. -/
def State.regionSent (s : State) (c : Ctx) (line : Nat) (acc : List LineAccess) : State :=
  let first := acc.findSome? (·.flight)
  ((s.fresh.2.onTile c.t fun x => { x with eng := { x.eng with
      region := none
      atomics := if acc.isEmpty then x.eng.atomics else x.eng.atomics ++
        [{ id := s.nextId, va := line, kind := .line acc, issue := c.now, flight := first }] } }).onSeq c.t fun q =>
      { q with flights := q.flights.map fun g => if first == some g.id then { g with atomic := true } else g }).singleShot c

theorem issuesAs_alend : IssuesAs .alend fun c s =>
    s.regionSent c (((s.tile c.t).eng.region.getD (0, [])).1) (((s.tile c.t).eng.region.getD (0, [])).2) := by
  refine issuesAs_of_runSlot fun s => ?_
  show execAlend s = _
  unfold execAlend
  congr 1
  funext c s
  cases (s.tile c.t).eng.region <;> rfl

theorem State.regionSent_eng (s : State) (c : Ctx) (line : Nat) (acc : List LineAccess) :
    ((s.regionSent c line acc).tile c.t).eng.region = none ∧ ((s.regionSent c line acc).tile c.t).eng.atomics =
      (s.tile c.t).eng.atomics ++ (if acc.isEmpty then [] else
        [{ id := s.nextId, va := line, kind := .line acc, issue := c.now, flight := acc.findSome? (·.flight) }]) := by
  cases acc <;> simp [State.regionSent, State.singleShot]

/-! ### The obligations -/

/-- Settles O4: each meaning is its effect; a level's count has the immediate extended with zeros. -/
theorem generatorLoopAndBranchResults : Obligations.GeneratorLoopAndBranchResults := by
  unfold Obligations.GeneratorLoopAndBranchResults
  and_intros
  all_goals exact fun _ => issuesAs_of_runSlot fun _ => rfl

/-- Settles O5: LD and ST have one access each, due on its cycle outside a line region and recorded in one; the read brings
its flight the loaded value. -/
theorem stagingAccessResults : Obligations.StagingAccessResults := by
  unfold Obligations.StagingAccessResults
  refine ⟨?ldClosed, ?stClosed, ?ldRegion, ?stRegion, ?deliver, ?value⟩
  case ldClosed => exact fun f s goes closed => (issuesAs_ld f).next_eq goes (State.load_closed closed f)
  case stClosed => exact fun f s goes closed => (issuesAs_st f).next_eq goes (State.store_closed closed f)
  case ldRegion => exact fun f s _ _ goes opened => (issuesAs_ld f).next_eq goes (State.load_region opened f)
  case stRegion => exact fun f s _ _ goes opened => (issuesAs_st f).next_eq goes (State.store_region opened f)
  case deliver =>
    intro t r id reg sx s use n
    obtain ⟨os, delivered⟩ := s.deliver_scalar (t := t) use
    rw [delivered]
    have stores : SameStores s { s with ordered := os } := .of_eq rfl rfl rfl rfl
    refine ⟨?_, stores.onSeq t _⟩
    rw [State.onSeq_eq, State.tile_onTile_self]
    rfl
  case value =>
    intro size sizes n fits
    have pos : 0 < size := by simp only [List.mem_cons, List.not_mem_nil, or_false] at sizes; omega
    exact ⟨rfl, loadedValue_signed pos fits⟩

/-- Settles O6: each meaning is the one form of an atomic, which is the tile's last outstanding one. -/
theorem scalarAtomicResults : Obligations.ScalarAtomicResults := by
  unfold Obligations.ScalarAtomicResults
  refine ⟨?stadd, ?stand, ?stor, ?stxor, ?stmin, ?stmax, ?stminu, ?stmaxu, ?stfadd, ?stfmin, ?stfmax, ?ldadd, ?ldand, ?ldor, ?ldxor,
    ?ldmin, ?ldmax, ?ldminu, ?ldmaxu, ?ldfadd, ?ldfmin, ?ldfmax, ?swp, ?cas, State.atomic_atomics⟩
  all_goals exact fun _ => issuesAs_of_runSlot fun _ => rfl

/-- Settles O7: ALEND sends what the open region holds, and an empty list of accesses adds no atomic. -/
theorem lineRegionResults : Obligations.LineRegionResults := by
  unfold Obligations.LineRegionResults
  refine ⟨fun _ => issuesAs_of_runSlot fun _ => rfl, fun s goes => ?_⟩
  have place : (s.ctx .alend).t = s.focus.tile := rfl
  have now : (s.ctx .alend).now = s.icc s.focus.tile := rfl
  have sent := s.regionSent_eng (s.ctx .alend)
  have issues := issuesAs_alend s goes
  simp only [place, now] at sent issues
  refine ⟨_, issues, ?closed, fun line acc opened => ?sent⟩
  case closed => rw [State.tile_nextFree]; exact (sent _ _).1
  case sent => rw [State.tile_nextFree, opened, Option.getD_some]; exact (sent line acc).2

/-- Settles O9: each meaning is its effect, with the S latch idle. -/
theorem waitAndControlResults : Obligations.WaitAndControlResults := by
  unfold Obligations.WaitAndControlResults
  refine ⟨?nop, ?waita, ?waits, ?fence, ?endTask, ?tret, ?trap⟩
  case nop | endTask | tret => exact issuesAs_of_runSlot fun _ => rfl
  case waita | waits | fence | trap => exact fun _ => issuesAs_of_runSlot fun _ => rfl

end Sys2Proof.Machine
end

section
/-! PROOFS. The ends of waits: WAITA, WAITS, FENCE, the drain of MODE, and END (R133 to R135, R140, R143, R148, R278). -/

namespace Sys2Proof.Machine

@[simp] theorem State.tile_seesGen (s : State) (tile addr n gen u : Nat) : (s.seesGen tile addr n gen).tile u = s.tile u := rfl

/-- A tile's wait is over, with the early-read checker's entries that it answers for dropped (R278). -/
def Tile.goesOn (x : Tile) (answered : Listed → Bool) : Tile := ({ x with seq := { x.seq with stall := .none } } : Tile).observed answered

@[simp] theorem Tile.goesOn_regs (x : Tile) (p : Listed → Bool) : (x.goesOn p).regs = x.regs := rfl
@[simp] theorem Tile.goesOn_seq (x : Tile) (p : Listed → Bool) : (x.goesOn p).seq = { x.seq with stall := .none } := rfl

section
variable {s : State} {t : Nat} (part : t < Config.tiles)
include part

/-! ### WAITA (R133) -/

/-- The state once a WAITA's wait is over: what the generation read comes after is noted (R275, R277, R278). -/
def State.waitaEnded (s : State) (t addr : Nat) : State :=
  (s.onTile t fun x => x.goesOn fun e =>
    e.advanced && (match e.arrival with | some a => a.tile == t && a.addr == addr | none => false)
      && x.eng.copies.all fun g => g.id != e.copy).seesGen t addr 12 (genAt (s.tile t).st addr).toNat

section
variable {d a : Nat} {old : BitVec 32} {k : Task} (stall : (s.tile t).seq.stall = .waita d a old)
  (task : (s.tile t).task = some k) (issued : (s.tile t).seq.issuedAt < s.icc t)
  (ends : genAt (s.tile t).st a ≠ old ∨ (s.tile t).sys.pre = true ∨ (s.tile t).sys.thr = true ∨ (s.tile t).sys.rcls = true ∨
    k.yieldMax - 256 ≤ s.icc t - (s.tile t).seq.yieldAt)
include stall task issued ends

theorem exec_waitaComplete : exec (.waitaComplete t) s = .next (if d % 32 = 0 then s.waitaEnded t a else (s.waitaEnded t a).flightBy t
      (s.icc t + (s.tile t).divisor 0) [.s (d % 32) ((genAt (s.tile t).st a).setWidth 64)]) := by
  show execWaitaComplete t s = _
  have ready : ((s.tile t).seq.issuedAt < s.icc t && (genAt (s.tile t).st a != old ||
      k.yieldMax - 256 ≤ s.icc t - (s.tile t).seq.yieldAt || (s.tile t).sys.pre || (s.tile t).sys.thr || (s.tile t).sys.rcls)) = true := by
    rcases ends with h | h | h | h | h <;> simp [issued, h]
  simp only [execWaitaComplete, ge_iff_le, Nat.not_le.2 part, if_false, stall, task]
  exact if_pos ready

theorem completes_waitaComplete :
    Completes (.waitaComplete t) s fun u => (u.tile t).seq.stall = .none ∧ (u.tile t).regs = (s.tile t).regs ∧
      (d % 32 ≠ 0 → ∃ g ∈ (u.tile t).seq.flights, g.writes = [.s (d % 32) ((genAt (s.tile t).st a).setWidth 64)] ∧
        g.issue < s.icc t ∧ g.bound = s.icc t + (s.tile t).divisor 0) := by
  refine ⟨_, exec_waitaComplete part stall task issued ends, ?_⟩
  by_cases zero : d % 32 = 0
  · rw [if_pos zero]
    simp [State.waitaEnded, zero]
  · rw [if_neg zero]
    dsimp only
    rw [State.flightBy_tile_self]
    refine ⟨?_, ?_, fun _ => ⟨_, List.mem_append_right _ (List.mem_singleton_self _), rfl, ?_, rfl⟩⟩
    all_goals simp [State.waitaEnded, issued]

end

/-! ### WAITS (R134) -/

/-- The copies that a WAITS waits for: of C0, of C1, or of both. -/
def waitsSlot (sel slot : Nat) : Bool := (sel = 1 && slot = 4) || (sel = 2 && slot = 5) || sel = 3

/-- What a WAITS waits for: MMADs, copies, or the decoder. -/
def Engines.waitsDone (e : Engines) (sel upto : Nat) : Bool :=
  if sel = 0 then e.mmad.reqs.all fun r => upto ≤ r.id
  else if sel = 4 then e.df.toList.all (·.isEmpty) && e.drf.reqs.isEmpty
  else e.copiesDone upto (waitsSlot sel)

theorem completes_waitsComplete {sel upto : Nat} (issued : (s.tile t).seq.issuedAt < s.icc t)
    (stall : (s.tile t).seq.stall = .waits sel upto) (done : (s.tile t).eng.waitsDone sel upto = true) :
    Completes (.waitsComplete t) s fun u => (u.tile t).seq.stall = .none := by
  have ended : exec (.waitsComplete t) s =
      .next (s.onTile t (·.goesOn fun e => waitsSlot sel e.slot && e.copy < upto)) := by
    show execWaitsComplete t s = _
    simp only [execWaitsComplete, ge_iff_le, Nat.not_le.2 part, if_false, stall]
    exact if_pos (Bool.and_eq_true_iff.2 ⟨done, decide_eq_true issued⟩)
  exact ⟨_, ended, by simp⟩

/-! ### FENCE and MODE (R135, R140, R143) -/

theorem completes_fenceComplete {sel upto : Nat} (stall : (s.tile t).seq.stall = .fence sel upto)
    (fenced : (s.tile t).fenced sel upto (s.icc t) = true) (issued : (s.tile t).seq.issuedAt < s.icc t) :
    Completes (.fenceComplete t) s fun u => (u.tile t).seq.stall = .none ∧ (u.tile t).regs = (s.tile t).regs := by
  have ended : exec (.fenceComplete t) s = .next (s.onTile t (·.goesOn fun e => sel < 2 && e.copy < upto)) := by
    show execFenceComplete t s = _
    simp only [execFenceComplete, ge_iff_le, Nat.not_le.2 part, if_false, stall, fenced, issued, decide_true, Bool.and_self, if_true]
    rfl
  exact ⟨_, ended, by simp⟩

theorem completes_modeSwitch {gm er : Bool} (stall : (s.tile t).seq.stall = .modeDrain gm er)
    (drained : (s.tile t).drained = true) (calm : (s.tile t).seq.checks = []) :
    Completes (.modeSwitch t) s fun u => (u.tile t).sys = { (s.tile t).sys with gm := gm, er := er } ∧ (u.tile t).seq.stall = .none ∧
      (u.tile t).regs = (s.tile t).regs := by
  have switched : exec (.modeSwitch t) s = .next (s.onTile t fun x =>
      { x with sys := { x.sys with gm := gm, er := er }, seq := { x.seq with stall := .none }
               eng := { x.eng with early := if er then x.eng.early else [] } }) := by
    show execModeSwitch t s = _
    simp only [execModeSwitch, ge_iff_le, Nat.not_le.2 part, if_false, stall, drained, if_true]
    rw [State.settle_of_no_checks (by simpa using calm)]
  exact ⟨_, switched, by simp⟩

/-! ### END (R148) -/

theorem exec_endExit {k : Task} (task : (s.tile t).task = some k) (phase : (s.tile t).seq.phase = .running)
    (stall : (s.tile t).seq.stall = .ending) (closed : (s.tile t).eng.region = none) (quiet : (s.tile t).quiet (s.icc t) = true) :
    exec (.endExit t) s = .next (((s.onSeq t fun q => { q with phase := .ended, stall := .exiting, nextAt := s.icc t + 3 }).roleEnded
      k.serial k.role).finish k.serial) := by
  show execEndExit t s = _
  simp [execEndExit, Nat.not_le.2 part, task, phase, stall, closed, quiet]

end

/-- Settles O28: each wait's end is its own step, and leaves the tile at its next bundle. -/
theorem stallEndSteps : Obligations.StallEndSteps := by
  unfold Obligations.StallEndSteps
  refine ⟨?waita, ?waits, ?fence, ?mode, ?ending⟩
  case waita => exact fun _ _ _ _ _ _ part => completes_waitaComplete part
  case waits =>
    intro t upto s part issued
    refine ⟨?mmads, ?copies, ?both, ?decoder⟩
    case mmads | both | decoder => exact fun stall done => completes_waitsComplete part issued stall done
    case copies =>
      rintro slot (rfl | rfl) stall done
      all_goals exact completes_waitsComplete part issued stall (by simpa [Engines.waitsDone, Engines.copiesDone, waitsSlot] using done)
  case fence => exact fun _ _ _ _ part => completes_fenceComplete part
  case mode => exact fun _ _ _ _ part => completes_modeSwitch part
  case ending => exact fun _ _ _ part => exec_endExit part

end Sys2Proof.Machine
end

section
/-! PROOFS. Barriers' releases and the exit barrier (R148, R292, R293, R298, R299, R340). -/

namespace Sys2Proof.Machine

/-! ### Barrier records (R290, R292) -/

theorem State.onBarrier_same (s : State) (serial lev group : Nat) (f : Barrier → Barrier) :
    ∃ bs, s.onBarrier serial lev group f = { s with barriers := bs } := by
  unfold State.onBarrier
  split
  · exact ⟨_, rfl⟩
  · exact ⟨_, rfl⟩

theorem State.noteArrival_same (s : State) (serial lev group : Nat) :
    ∃ bs, s.noteArrival serial lev group = { s with barriers := bs } := by
  unfold State.noteArrival
  split
  · exact ⟨s.barriers, rfl⟩
  · dsimp only
    split
    · exact s.onBarrier_same ..
    · exact ⟨s.barriers, rfl⟩

/-- A barrier that is over leaves everything but the records of barriers. -/
theorem State.barrierDone_same (s : State) (serial lev group : Nat) :
    ∃ bs, s.barrierDone serial lev group = { s with barriers := bs } := by
  obtain ⟨bs, same⟩ := State.noteArrival_same { s with barriers := s.barriers.filter fun b => !b.isOf serial lev group } serial lev group
  exact ⟨bs, same⟩

/-! ### Releases of groups (R292, R293, R298, R299) -/

section
variable {serial lev group : Nat} {l : Launch} {b : Barrier} {s : State} (level : lev < 8) (launch : s.launch serial = some l)
  (barrier : s.barriers.find? (fun b => b.isOf serial lev group) = some b)
include level launch barrier

theorem exec_islandBarrierRelease {a t : Nat} (last : b.last = some a) (first : l.tiles[(l.group lev group).headD 0]? = some t)
    (domain : l.domain lev < 2) (due : a + (if l.domain lev = 0 then 1 else 3) ≤ s.icc t) :
    exec (.islandBarrierRelease serial lev group) s =
      .next (((l.group lev group).foldl (fun s r => s.releaseRole l serial lev r) s).barrierDone serial lev group) := by
  show execIslandBarrierRelease serial lev group s = _
  have now : (decide (2 ≤ l.domain lev) || decide (s.icc t < a + if l.domain lev = 0 then 1 else 3)) = false := by simp [domain, due]
  simp only [execIslandBarrierRelease, Nat.not_le.2 level, launch, barrier, last, first, now, Bool.false_eq_true, if_false]

theorem exec_lamplighterReleaseBase (domain : 2 ≤ l.domain lev) (known : b.known l = true) (unfixed : b.base = none) :
    exec (.lamplighterReleaseBase serial lev group) s = .next (s.onBarrier serial lev group fun b =>
      { b with base := some s.pcc
               toResume := (((l.group lev group).filter fun r => !l.ends.contains r).filterMap fun r =>
                 (l.tiles[r]?).map (· / 16)).dedup }) := by
  show execLamplighterReleaseBase serial lev group s = _
  simp [execLamplighterReleaseBase, Nat.not_le.2 level, launch, barrier, Nat.not_lt.2 domain, known, unfixed]

/-- The roles of a group on an island. -/
def Launch.groupOn (l : Launch) (lev group island : Nat) : List Nat :=
  (l.group lev group).filter fun r => match l.tiles[r]? with | some t => t / 16 == island | none => false

theorem exec_lamplighterPhaseSignal {island t0 : Nat} (part : island < Config.islands) (base : b.base = some t0)
    (waits : island ∈ b.toResume) (even : (s.island island).stretch = false)
    (due : t0 + l.sigOffset (l.phaseOf island) ≤ s.pcc) :
    exec (.lamplighterPhaseSignal serial lev group island) s =
      let s' := (l.groupOn lev group island).foldl (fun s r => s.releaseRole l serial lev r) s
      let left := b.toResume.filter (· != island)
      .next (if left.isEmpty then s'.barrierDone serial lev group
        else s'.onBarrier serial lev group fun b => { b with toResume := left }) := by
  show execLamplighterPhaseSignal serial lev group island s = _
  have now : (!b.toResume.contains island || (s.island island).stretch || decide (s.pcc < t0 + l.sigOffset (l.phaseOf island))) = false := by
    simp [waits, even, due]
  have here : (decide (8 ≤ lev) || decide (island ≥ Config.islands)) = false := by simp [level, part]
  simp only [execLamplighterPhaseSignal, here, launch, barrier, base, now, Bool.false_eq_true, if_false]
  rfl

end

/-! ### The release of a member (R137, R292, R293, R306) -/

/-- A member that waits goes on on this cycle, with its barrier state released. -/
theorem State.releaseRole_waiting {l : Launch} {serial lev role t : Nat} {s : State} (bound : l.tiles[role]? = some t)
    (runs : (s.tile t).runs serial = true) (phase : (s.tile t).seq.phase = .running)
    (stall : (s.tile t).seq.stall = .released lev) (arrived : (s.tile t).bar.arrived = some lev) :
    ∃ ch task, (s.releaseRole l serial lev role).tile t = { (s.tile t).observed (fun _ => true) with
      seq := { (s.tile t).seq with stall := .none, nextAt := s.icc t }
      bar := (s.tile t).bar.release ch lev (l.domain lev) (s.icc t)
      task := task } := by
  unfold State.releaseRole State.onRoleBar
  simp only [bound, runs, phase, stall, beq_self_eq_true, Bool.and_self, Bool.not_true, Bool.false_eq_true, if_false, if_true,
    State.tile_onTile_self, arrived]
  exact ⟨_, _, rfl⟩

/-! ### The exit barrier (R34, R148) -/

theorem exec_exitBarrierRelease {serial island : Nat} {l : Launch} {s : State} (part : island < Config.islands)
    (launch : s.launch serial = some l) :
    let gang := (List.range l.roles).filter fun r => match l.tiles[r]? with | some t => t / 16 == island | none => false
    let here := gang.filterMap fun r => l.tiles[r]?
    gang ≠ [] → (∀ r ∈ gang, r ∈ l.ends) → (∃ t ∈ here, (s.tile t).runs serial = true) →
    (∀ t ∈ here, (s.tile t).runs serial = true → (s.tile t).seq.nextAt ≤ s.icc t) →
    exec (.exitBarrierRelease serial island) s =
      .next ((here.foldl (fun s t => if (s.tile t).runs serial then s.releaseTile t else s) s).finish serial) := by
  intro gang here inhabited ended runs due
  show execExitBarrierRelease serial island s = _
  have ready : (gang.isEmpty || !(gang.all l.ends.contains) || here.all (fun t => !(s.tile t).runs serial)
      || here.any (fun t => (s.tile t).runs serial && decide (s.icc t < (s.tile t).seq.nextAt))) = false := by
    simp only [Bool.or_eq_false_iff, Bool.not_eq_false', List.isEmpty_eq_false_iff, List.all_eq_true, List.all_eq_false,
      List.any_eq_false, List.contains_iff_mem]
    refine ⟨⟨⟨inhabited, ended⟩, ?_⟩, fun t mem late => ?_⟩
    · obtain ⟨t, mem, own⟩ := runs
      exact ⟨t, mem, by simp [own]⟩
    · obtain ⟨own, after⟩ := Bool.and_eq_true_iff.1 late
      exact absurd (due t mem own) (Nat.not_le.2 (of_decide_eq_true after))
  simp only [execExitBarrierRelease, ge_iff_le, Nat.not_le.2 part, if_false, launch]
  exact if_neg (ne_true_of_eq_false ready)

theorem State.tile_releaseTile (s : State) (t : Nat) : let y := (s.releaseTile t).tile t
    y.task = none ∧ y.seq = { } ∧ y.vault.keeper = false := by
  simp [State.releaseTile, Tile.dropFalls]

/-- Settles O30: each release is its own step, and changes a waiting member as the release of its role has it. -/
theorem barrierSteps : Obligations.BarrierSteps := by
  unfold Obligations.BarrierSteps
  refine ⟨?island, ?base, ?signal, ?done, fun _ _ => rfl, ?member, ?exits, ?tile⟩
  case island =>
    exact fun _ _ _ _ _ _ _ _ level launch barrier last first => exec_islandBarrierRelease level launch barrier last first
  case base => exact fun _ _ _ _ _ _ level launch barrier => exec_lamplighterReleaseBase level launch barrier
  case signal => exact fun _ _ _ _ _ _ _ _ level part launch barrier => exec_lamplighterPhaseSignal level launch barrier part
  case done =>
    intro serial lev group s u
    obtain ⟨bs, same⟩ := s.barrierDone_same serial lev group
    simp only [u, same, and_self]
  case member =>
    intro l serial lev role t s bound runs phase stall arrived y
    obtain ⟨ch, task, same⟩ := State.releaseRole_waiting bound runs phase stall arrived
    have waited : y = _ := same
    rw [waited]
    exact ⟨rfl, rfl, rfl, rfl, rfl, rfl⟩
  case exits => exact fun _ _ _ _ part launch => exec_exitBarrierRelease part launch
  case tile => exact fun t s => s.tile_releaseTile t

end Sys2Proof.Machine
end

section
/-! PROOFS. Canonical memories (R157, R158; log entry 2): what the shared operations of the machine, its traps and its global traffic keep. -/

namespace Sys2Proof.Machine

/-! ### How a canonical state is made -/

/-- An outcome whose next state, where it has one, has its memories in canonical form. -/
def KeepsCanonical (o : Host.Outcome State Fault Refusal) : Prop := ∀ u, o = .next u → Canonical u

theorem KeepsCanonical.next {u : State} (h : Canonical u) : KeepsCanonical (.next u) := fun _ e => Host.Outcome.next.inj e ▸ h

theorem KeepsCanonical.fault (f : Fault) : KeepsCanonical (.fault f) := by
  intro u e
  cases e

theorem KeepsCanonical.ite {c : Prop} [Decidable c] {o p : Host.Outcome State Fault Refusal} (ho : KeepsCanonical o)
    (hp : KeepsCanonical p) : KeepsCanonical (if c then o else p) := by
  split
  · exact ho
  · exact hp

/-- A part that the machine does not have is a fault; one that it has is dealt with. -/
theorem KeepsCanonical.part {c : Prop} [Decidable c] {f : Fault} {o : Host.Outcome State Fault Refusal} (ho : KeepsCanonical o) :
    KeepsCanonical (if c then .fault f else o) := .ite (.fault f) ho

theorem wf_foldl_writeBytes {α : Type} (place : α → Nat) (bytes : α → List Byte) (xs : List α) {m : Memory} (wf : m.wf = true) :
    Memory.wf (xs.foldl (fun m x => writeBytes m (place x) (bytes x)) m) = true := by
  induction xs generalizing m with
  | nil => exact wf
  | cons x xs ih => exact ih (wf_writeBytes wf _ _)

namespace Canonical

/-- A step that changes neither tiles nor memories, as most fields of the state are no part of them. -/
theorem same {s u : State} (h : Canonical s) (e : (u.tiles, u.mem, u.mem2, u.hostMem) = (s.tiles, s.mem, s.mem2, s.hostMem)) :
    Canonical u := by
  simp only [Prod.mk.injEq] at e
  obtain ⟨tiles, mem, mem2, hostMem⟩ := e
  exact h.of_eq tiles mem mem2 hostMem

theorem ite {c : Prop} [Decidable c] {s u : State} (hs : Canonical s) (hu : Canonical u) : Canonical (if c then s else u) := by
  split
  · exact hs
  · exact hu

section
variable {s : State} (h : Canonical s)
include h

/-- A change of one tile that leaves its staging as it is. -/
theorem keepTile (t : Nat) (f : Tile → Tile) (st : ∀ x, (f x).st = x.st) : Canonical (s.onTile t f) :=
  h.onTile t fun x wf => (st x).symm ▸ wf

/-! ### Reports and messages -/

theorem logIt (a b c d : Nat) : Canonical (s.logIt a b c d) := .ite (h.same rfl) (h.same rfl)

theorem tell (p : Nat) (m : Told) : Canonical (s.tell p m) := h.same rfl

theorem tellOwner (m : Told) : Canonical (s.tellOwner m) := by
  obtain ⟨_, e⟩ := s.tellOwner_same m
  rw [e]
  exact h.same rfl

theorem reportFault (a b c d : Nat) : Canonical (s.reportFault a b c d) := ((h.logIt _ _ _ _).tellOwner _).same rfl

theorem countCorrected (t n : Nat) : Canonical (s.countCorrected t n) := .ite ((h.same (by rfl)).logIt _ _ _ _) (h.same rfl)

theorem onLaunch (serial : Nat) (f : Launch → Launch) : Canonical (s.onLaunch serial f) := by
  obtain ⟨_, e⟩ := s.onLaunch_same serial f
  rw [e]
  exact h.same rfl

theorem homeMoves (a r n : Nat) : Canonical (s.homeMoves a r n) := h.same rfl

theorem portMoves (a : Option Nat) (t n : Nat) : Canonical (s.portMoves a t n) := by
  cases a with
  | none => exact h
  | some a => exact h.homeMoves a t n

theorem rawLines (a n : Nat) : Canonical (s.rawLines a n) := h.same rfl

theorem fresh : Canonical s.fresh.2 := h.same rfl

theorem nextFree : Canonical s.nextFree := h.same rfl

/-! ### Lines and bytes of memory (R157, R257, R258) -/

theorem putLine (key tier line : Nat) (bs : List Byte) : Canonical (s.putLine key tier line bs) := by
  obtain ⟨mem, mem2, host, st⟩ := h
  unfold State.putLine
  split
  · exact ⟨wf_writeBytes mem _ _, mem2, host, st⟩
  · exact ⟨mem, wf_writeBytes mem2 _ _, host, st⟩

theorem store? (tier : Nat) : (s.store? tier).1.wf = true := by
  unfold State.store?
  split
  · exact h.1
  · exact h.2.1

theorem writeRaw (tier a : Nat) (bs : List Byte) : Canonical (s.writeRaw tier a bs) := by
  have bare := wf_foldl_writeBytes (fun e : Nat × Nat => e.1 * 64) (fun e => s.storedLine tier e.1)
    ((s.store? tier).2.filter fun e => meet a bs.length (e.1 * 64) 64) (h.store? tier)
  obtain ⟨mem, mem2, host, st⟩ := h
  unfold State.writeRaw
  split
  · exact ⟨wf_writeBytes bare _ _, mem2, host, st⟩
  · exact ⟨mem, wf_writeBytes bare _ _, host, st⟩

theorem writeLine (l : Leaf) (va : Nat) (bs : List Byte) : Canonical (s.writeLine l va bs) := by
  unfold State.writeLine
  split
  · exact h.putLine _ _ _ _
  · split
    · obtain ⟨mem, mem2, host, st⟩ := h
      exact ⟨mem, mem2, wf_writeBytes host _ _, st⟩
    · exact h

theorem writePart (l : Leaf) (va : Nat) (bs : List Byte) : Canonical (s.writePart l va bs) := h.writeLine _ _ _

/-! ### Traps (R150 to R153, R335) -/

theorem takeTrapAt (t : Nat) (r : TrapReq) (addr next issue : Nat) (rest : Bool) (v : Option Snap) :
    Canonical (s.takeTrapAt t r addr next issue rest v) := by
  unfold State.takeTrapAt
  extract_lets x v arith good r' rec' s'
  have stopped : Canonical s' := h.keepTile t _ fun x => by split <;> rfl
  exact .ite h (.ite (h.keepTile t Tile.closed fun _ => rfl) (.ite stopped (.foldl (fun _ u hs => hs.onSeq u _) _ stopped)))

theorem takeTrap (t : Nat) (r : TrapReq) (addr next issue : Nat) (rest : Bool) : Canonical (s.takeTrap t r addr next issue rest) :=
  h.takeTrapAt _ _ _ _ _ _ _

theorem trapAt (t : Nat) (r : TrapReq) : Canonical (s.trapAt t r) := h.takeTrap _ _ _ _ _ _

theorem refuse (t : Nat) (r : TrapReq) : Canonical (s.refuse t r) := (ite (h.keepTile t Tile.dropRegion fun _ => rfl) h).trapAt t r

theorem flowTrap (t code : Nat) : Canonical (s.flowTrap t code) := h.takeTrapAt _ _ _ _ _ _ _

theorem writeFrame (t : Nat) (r : TrapRec) : Canonical (s.writeFrame t r) := by
  obtain ⟨mem, mem2, host, st⟩ := h
  exact ⟨wf_writeBytes mem _ _, mem2, host, st⟩

theorem enterHandler (t : Nat) (r : TrapRec) : Canonical (s.enterHandler t r) :=
  (h.writeFrame t r).setTile t (Tile.stageBy_wf ((h.writeFrame t r).2.2.2 t) _ _ _ _)

theorem found (t : Nat) (r : TrapReq) : Canonical (s.found t r) := h.onSeq t _

/-! ### Transfers and loop ends (R44, R119, R120) -/

theorem flightBy (t bound : Nat) (ws : List Write) : Canonical (s.flightBy t bound ws) := h.fresh.keepTile t _ fun _ => rfl

theorem linkCall (t ret : Nat) : Canonical (s.linkCall t ret) := by
  unfold State.linkCall
  extract_lets q u
  have flown : Canonical u := h.flightBy _ _ _
  split
  · exact .ite (flown.keepTile t _ fun _ => rfl) flown
  · exact flown

theorem transfer (t : Nat) (xt : BitVec 3) : Canonical (s.transfer t xt) := by
  unfold State.transfer
  extract_lets e a s'
  have left : Canonical s' := h.onSeq t _
  split
  · exact left.flowTrap _ _
  · exact left.onSeq t _
  · exact .ite (left.flowTrap _ _) (left.onSeq t _)

theorem taken (t : Nat) (xt : BitVec 3) (call : Bool) : Canonical (s.taken t xt call) :=
  .ite ((h.keepTile t Tile.dropRegion fun _ => rfl).flowTrap _ _) ((ite (h.linkCall _ _) h).transfer t xt)

theorem runLoopEnd (t : Nat) (lend : BitVec 6) : Canonical (s.runLoopEnd t lend) := by
  unfold State.runLoopEnd
  extract_lets q r s'
  have advanced : Canonical s' := h.onSeq t _
  refine .ite (h.flowTrap _ _) ?_
  split
  · exact advanced.onSeq t _
  · split
    · exact advanced.onSeq t _
    · exact advanced.flowTrap _ _

theorem leaveBundle (t : Nat) (is : List Instr) : Canonical (s.leaveBundle t is) := by
  fun_induction State.leaveBundle s t is with
  | case1 => assumption
  | case2 => exact h.taken _ _ _
  | case3 => assumption
  | case4 => exact h.taken _ _ _
  | case5 => exact h.runLoopEnd _ _
  | case6 => assumption
  | case7 => assumption
  | case8 => exact h

theorem left (t : Nat) : Canonical (s.left t) := by
  unfold State.left
  extract_lets x point
  split
  · exact h
  · exact h
  · exact h
  · exact .ite h (h.leaveBundle _ _)
  · exact h.leaveBundle _ _

theorem trapWaiting (t : Nat) (r : TrapReq) : Canonical (s.trapWaiting t r) := (h.left t).takeTrap _ _ _ _ _ _

theorem trapNext (t : Nat) (r : TrapReq) : Canonical (s.trapNext t r) := .ite (h.onSeq t _) (h.trapWaiting t r)

theorem haltTile (t other : Nat) : Canonical (s.haltTile t other) := by
  unfold State.haltTile
  extract_lets v u
  have left : Canonical u := h.left t
  refine .ite h ?_
  split
  · exact left
  · exact left.keepTile t _ fun _ => rfl
  · exact left.keepTile t _ fun _ => rfl

theorem raiseFound (t : Nat) (p : TrapReq → Bool) : Canonical (s.raiseFound t p) := by
  unfold State.raiseFound
  split
  · exact h
  · exact (h.trapWaiting t _).onSeq t _

/-! ### Writer tags (R308 to R311) -/

theorem epochReport (a : Actor) (code va kind : Nat) (g : BitVec 48) : Canonical (s.epochReport a code va kind g) := by
  obtain ⟨_, _, _, e⟩ := s.epochReport_same a code va kind g
  rw [e]
  exact h.same rfl

theorem tagWrite (a : Actor) (line va : Nat) : Canonical (s.tagWrite a line va).2 := by
  obtain ⟨_, _, _, _, e⟩ := s.tagWrite_same a line va
  rw [e]
  exact h.same rfl

theorem tagAtom (a : Actor) (line va : Nat) : Canonical (s.tagAtom a line va) :=
  .ite (h.same rfl) (.ite h (h.epochReport _ _ _ _ _))

theorem unordered (line : Nat) : Canonical (s.unordered line) := h.same rfl

theorem readUnit (a : Actor) (l : Leaf) (va : Nat) (after : Bool) : Canonical (s.readUnit a l va after).2 := by
  unfold State.readUnit
  extract_lets g
  split
  · exact h.epochReport _ _ _ _ _
  · exact h

theorem writeUnit (a : Actor) (l : Leaf) (va : Nat) (bs : List Byte) : Canonical (s.writeUnit a l va bs) :=
  have tagged := h.tagWrite a (l.phys va / 64) va
  .ite (.ite ((tagged.writeLine l va bs).unordered _) tagged) (h.writeLine l va bs)

/-! ### Translation and faults (R252, R279) -/

theorem translate (t : Nat) (w : Want) (va : Nat) : Canonical (s.translate t w va).2 := by
  unfold State.translate
  extract_lets root k secure r fresh s'
  have walked : Canonical s' := h.same rfl
  split
  · exact walked
  · split
    · exact walked
    · exact walked

theorem globalFound (t slot code va kind : Nat) (mask : BitVec 1024) : Canonical (s.globalFound t slot code va kind mask) :=
  (ite (h.reportFault _ _ _ _) h).found t _

/-! ### Atomics (R126, R131, R282) -/

theorem performAtomic (a : Actor) (l : Leaf) (va size : Nat) (op : AOp) (n e : Word) :
    Canonical (s.performAtomic a l va size op n e).2 :=
  have written := h.writePart l va _
  .ite ((written.tagAtom a _ va).unordered _) written

theorem tagRegion (a : Actor) (l : Leaf) (line : Nat) (acc : List LineAccess) : Canonical (s.tagRegion a l line acc) :=
  .ite h (.foldl (fun _ _ hs => (hs.tagAtom a _ _).unordered _) _ h)

theorem stopAtomic (t : Nat) (a : Atomic) (code : Nat) : Canonical (s.stopAtomic t a code) :=
  (h.keepTile t _ fun _ => by rfl).globalFound _ _ _ _ _ _

end
end Canonical
end Sys2Proof.Machine
end

section
/-! PROOFS. Canonical memories: atomics, copies and the steps of global traffic (R126, R131, R263 to R291). -/

namespace Sys2Proof.Machine
namespace Canonical

section
variable {s : State} (h : Canonical s)
include h

/-! ### Atomics performed (R126, R131, R282) -/

theorem performLine (l : Leaf) (line : Nat) (acc : List LineAccess) : Canonical (s.performLine l line acc).2 := by
  fun_induction State.performLine s l line acc with
  | case1 => exact h
  | case2 s e r va store ih => exact ih (h.writePart _ _ _)
  | case3 s e r va load v t ih => exact ih h

theorem finishAtomic (t : Nat) (a : Atomic) (l : Leaf) : Canonical (s.finishAtomic t a l) := by
  unfold State.finishAtomic
  extract_lets who now s'
  have taken : Canonical s' := h.keepTile t _ fun _ => rfl
  split
  · rename_i op size n e ret _
    have done := taken.performAtomic who l a.va size op n e
    extract_lets r
    split
    · exact done.keepTile t _ fun _ => rfl
    · exact done
  · rename_i acc _
    refine .foldl (fun u p hu => ?_) _ ((taken.performLine l a.va acc).tagRegion who l a.va acc)
    split
    · exact hu.keepTile t _ fun _ => rfl
    · exact hu

theorem performAll (t : Nat) : Canonical (s.performAll t) := by
  refine .foldl (fun u a hu => .ite hu ?_) _ h
  have walked := hu.translate t a.want a.va
  extract_lets r
  split
  · exact .ite walked (walked.finishAtomic _ _ _)
  · exact walked

theorem onVatomics (t : Nat) (f : List VAtomic → List VAtomic) : Canonical (s.onVatomics t f) := h.keepTile t _ fun _ => rfl

theorem finishVatomic (t : Nat) (a : VAtomic) : Canonical (s.finishVatomic t a) := by
  unfold State.finishVatomic
  extract_lets now s'
  have taken : Canonical s' := h.keepTile t _ fun _ => rfl
  split
  · exact taken
  · exact taken.keepTile t _ fun _ => rfl

theorem sendLane (t : Nat) (a : VAtomic) (lane va : Nat) (n : Word) (rest : List (Nat × Nat × Word)) :
    Canonical (s.sendLane t a lane va n rest) := by
  have walked := h.translate t { atomic := true, writes := true } va
  unfold State.sendLane
  extract_lets fail r
  split
  · exact (walked.onVatomics t _).globalFound _ _ _ _ _ _
  · split
    · exact (walked.onVatomics t _).globalFound _ _ _ _ _ _
    · exact .ite h (.ite ((((walked.portMoves _ t 1).performAtomic _ _ _ _ _ _ _).onVatomics t _).finishVatomic _ _)
        (((walked.portMoves _ t 1).performAtomic _ _ _ _ _ _ _).onVatomics t _))

/-! ### Copies (R263 to R281) -/

theorem setCopy (t : Nat) (g : GCopy) : Canonical (s.setCopy t g) := h.keepTile t _ fun _ => rfl

theorem failCopy (t : Nat) (g : GCopy) (u code va : Nat) : Canonical (s.failCopy t g u code va) :=
  (h.setCopy t _).globalFound _ _ _ _ _ _

theorem walkCopy (t : Nat) (g : GCopy) : Canonical (s.walkCopy t g) := by
  unfold State.walkCopy
  split
  · exact h.setCopy t _
  · rename_i u va _
    extract_lets w r
    have walked : Canonical r.2 := h.translate t w va
    split
    · exact walked.failCopy _ _ _ _ _
    · split
      · exact walked.failCopy _ _ _ _ _
      · exact walked.failCopy _ _ _ _ _
      · exact walked.setCopy t _

omit h in
/-- Steps that each keep memories canonical keep them so over a list, beside what they gather. -/
theorem foldl_snd {α β : Type} {f : β × State → α → β × State} (keep : ∀ p a, Canonical p.2 → Canonical (f p a).2)
    (xs : List α) {p : β × State} (hp : Canonical p.2) : Canonical (xs.foldl f p).2 := by
  induction xs generalizing p with
  | nil => exact hp
  | cons a r ih => exact ih (keep p a hp)

theorem readSpan (t : Nat) (g : GCopy) (va n : Nat) : Canonical (s.readSpan t g va n).2 := by
  refine foldl_snd (fun p k hp => ?_) _ h
  extract_lets v
  split
  · exact (hp.readUnit _ _ _ _).nextFree
  · exact hp

theorem readRanges (t : Nat) (g : GCopy) (rs : List (Nat × Nat)) : Canonical (s.readRanges t g rs).2 := by
  refine foldl_snd (p := ([], s)) (fun p k hp => ?_) _ h
  exact hp.readSpan t g (k * 64) 64

theorem countUnit (t : Nat) (g : GCopy) (u : Nat) : Canonical (s.countUnit t g u) := by
  unfold State.countUnit
  split
  · exact .ite h (h.same rfl)
  · exact h

theorem unitDone (t : Nat) (g : GCopy) (u : Nat) : Canonical (s.unitDone t g u) :=
  have counted := h.countUnit t g u
  .ite (counted.keepTile t _ fun _ => rfl) (counted.setCopy t _)

theorem landUnit (t : Nat) (g : GCopy) (addr : Nat) (bs : List Byte) : Canonical (s.landUnit t g addr bs) := h.onSeq t _

theorem orders (g : GCopy) (l : Leaf) (u : Nat) (gone : Bool) : Canonical (s.orders g l u gone) := by
  unfold State.orders
  split
  · exact .ite (h.same rfl) h
  · exact h

theorem accepted (t : Nat) (g : GCopy) (l : Leaf) (u : Nat) : Canonical (s.accepted t g l u) := .ite h (h.keepTile t _ fun _ => rfl)

theorem performUnit (t : Nat) (g : GCopy) (u : Nat) : Canonical (s.performUnit t g u) := by
  unfold State.performUnit
  split
  · split
    · exact (((h.writeUnit _ _ _ _).orders _ _ _ _).accepted _ _ _ _).unitDone _ _ _
    · exact h
  · exact (h.readSpan _ _ _ _).setCopy _ _
  · split
    · exact h
    · have read := h.readRanges t g (g.ranges u)
      extract_lets r
      split
      · exact read.failCopy _ _ _ _ _
      · exact ((read.landUnit _ _ _ _).keepTile t _ fun _ => by rfl).unitDone _ _ _
  · extract_lets r
    have read : Canonical r.2 := by
      unfold r
      split
      · exact h
      · exact h.readSpan _ _ _ _
    exact (read.landUnit _ _ _ _).unitDone _ _ _

theorem ackFails (t code : Nat) (a : HostAck) : Canonical (s.ackFails t code a) := (h.keepTile t _ fun _ => by rfl).globalFound _ _ _ _ _ _

theorem outsideFailure (t id code : Nat) : Canonical (s.outsideFailure t id code) := by
  unfold State.outsideFailure
  extract_lets e
  split
  · exact .ite h (h.failCopy _ _ _ _ _)
  · exact .ite h (h.stopAtomic _ _ _)
  · exact .ite h ((h.onVatomics _ _).globalFound _ _ _ _ _ _)
  · split
    · exact h.ackFails _ _ _
    · exact h

/-! ### The steps of global traffic -/

theorem execVectorAtomicProcess (t : Nat) : KeepsCanonical (execVectorAtomicProcess t s) := by
  refine .part ?_
  extract_lets x
  split
  · exact .next h
  · refine .ite (.next h) ?_
    split
    · exact .next (h.finishVatomic _ _)
    · exact .ite (.next (h.onVatomics _ _)) (.ite (.next h) (.next (h.sendLane _ _ _ _ _ _)))

theorem execTranslationWalk (t id : Nat) : KeepsCanonical (execTranslationWalk t id s) := by
  refine .part ?_
  extract_lets x
  split
  · exact .ite (.next (h.walkCopy _ _)) (.next h)
  · rename_i a _ _
    have walked := h.translate t a.want a.va
    refine .ite (.next h) ?_
    extract_lets r
    split
    · exact .next (walked.stopAtomic _ _ _)
    · exact .next (walked.keepTile t _ fun _ => rfl)
  · exact .next h

theorem execGlobalCopyUnitPerform (t id unit : Nat) : KeepsCanonical (execGlobalCopyUnitPerform t id unit s) := by
  refine .part ?_
  extract_lets x
  refine .ite (.next (h.keepTile t _ fun _ => rfl)) ?_
  split
  · exact .next h
  · extract_lets ready homes
    refine .ite (.next h) ?_
    split
    · exact .next (h.failCopy _ _ _ _ _)
    · exact .next (nextFree (.foldl (fun _ _ hs => hs.homeMoves _ _ _) _ (h.performUnit _ _ _)))

theorem execCfeedUnitEntry (t id : Nat) : KeepsCanonical (execCfeedUnitEntry t id s) := by
  refine .part ?_
  extract_lets x now
  split
  · extract_lets u fifo bytes first
    refine .ite (.next h) ?_
    clear_value bytes
    split
    · exact .next h
    · exact .next ((h.keepTile t _ fun _ => by rfl).unitDone _ _ _)
  · exact .next h

theorem execGlobalFaultTrap (t id code : Nat) : KeepsCanonical (execGlobalFaultTrap t id code s) := by
  refine .part (.ite (.next (h.raiseFound _ _)) (.ite ?_ (.ite (.next ((h.reportFault _ _ _ _).trapNext _ _))
    (.ite (.next (h.countCorrected _ _)) (.next h)))))
  split
  · exact .next (h.ackFails _ _ _)
  · exact .next (h.outsideFailure _ _ _)

theorem execAtomicPerform (t id : Nat) : KeepsCanonical (execAtomicPerform t id s) := by
  refine .part ?_
  split
  · exact .next h
  · split
    · exact .next h
    · refine .ite (.next h) ?_
      split
      · exact .next (h.stopAtomic _ _ _)
      · exact .next ((h.finishAtomic _ _ _).portMoves _ _ _).nextFree

end
end Canonical
end Sys2Proof.Machine
end

section
/-! PROOFS. Canonical memories: the denomination path, the vault, landings, issues and the ends of stalls (R27, R42 to R45, R133 to R154, R158 to
R180, R221 to R226, R240 to R246). -/

namespace Sys2Proof.Machine

/-- Steps that each keep the staging as it is keep it so over a list. -/
theorem Tile.st_foldl {α : Type} {f : Tile → α → Tile} (keep : ∀ x a, (f x a).st = x.st) (as : List α) (x : Tile) :
    (as.foldl f x).st = x.st := by
  induction as generalizing x with
  | nil => rfl
  | cons a as ih => rw [List.foldl_cons, ih, keep]

@[simp] theorem Tile.raise_st (x : Tile) (f : Flags) : (x.raise f).st = x.st := rfl

@[simp] theorem Tile.flush_st (x : Tile) (r : MmadReq) : (x.flush r).st = x.st := by
  unfold Tile.flush
  extract_lets
  split <;> rfl

@[simp] theorem Tile.accumulate_st (x : Tile) (r : MmadReq) (v : BitVec 16) : (x.accumulate r v).st = x.st := rfl

namespace Canonical

section
variable {s : State} (h : Canonical s)
include h

/-! ### The denomination path and decoder (R221 to R226, R240 to R246) -/

theorem execDrfRowDecode (t : Nat) : KeepsCanonical (execDrfRowDecode t s) := by
  refine .part ?_
  split
  · exact .next h
  · extract_lets r u
    have decoded : Canonical u := h.keepTile t _ fun _ => rfl
    split
    · exact .next (decoded.found _ _)
    · exact .next decoded

theorem execDecoderEntryEmit (t : Nat) : KeepsCanonical (execDecoderEntryEmit t s) := by
  refine .part ?_
  extract_lets x
  split
  · split
    · exact .next h
    · extract_lets into taken r u
      refine .ite (.next (h.found _ _)) (.ite (.next h) ?_)
      have emitted : Canonical u := h.keepTile t _ fun _ => rfl
      split
      · exact .next (emitted.found _ _)
      · exact .next emitted
  · exact .next h

theorem onMmad (t : Nat) (f : Mmad → Mmad) : Canonical (s.onMmad t f) := h.keepTile t _ fun _ => rfl

theorem execMmadRequestStart (t : Nat) : KeepsCanonical (execMmadRequestStart t s) := by
  refine .part ?_
  extract_lets x
  split
  · exact .ite (.next h) (.next (h.onMmad _ _).nextFree)
  · exact .next h

theorem execMmadEntryPop (t : Nat) : KeepsCanonical (execMmadEntryPop t s) := by
  refine .part ?_
  extract_lets x now
  split
  · split
    · exact .next h
    · extract_lets u
      have popped : Canonical u := h.keepTile t _ fun _ => rfl
      exact .ite (.ite (.next (popped.found _ _)) (.next (.ite (popped.onMmad _ _)
          ((popped.onMmad _ _).keepTile t _ fun x => x.flush_st _))))
        (.ite (.next (popped.keepTile t _ fun x => (Tile.accumulate_st _ _ _).trans (x.flush_st _))) (.next (popped.onMmad _ _)))
  · exact .next h

theorem execMmadActivationRead (t pos : Nat) : KeepsCanonical (execMmadActivationRead t pos s) := by
  refine .part ?_
  extract_lets x
  split
  · exact .ite (.next h) (.next (h.onMmad _ _))
  · exact .next h

/-! ### The vault (R158 to R180) -/

theorem execVaultRdLanding (t id : Nat) (err : Ecc) : KeepsCanonical (execVaultRdLanding t id err s) := by
  refine .part ?_
  split
  · exact .next h
  · refine .ite (.next h) ?_
    extract_lets u
    have landed : Canonical u := .ite h (h.keepTile t _ fun _ => rfl)
    split
    · exact .next landed
    · exact .next (landed.countCorrected _ _)
    · exact .next ((landed.reportFault _ _ _ _).trapNext _ _)

theorem execRefreshDuePoint (t bank : Nat) : KeepsCanonical (execRefreshDuePoint t bank s) :=
  .part (.ite (.next h) (.next (h.onVault t _)))

theorem execSequencerRefresh (t bank : Nat) : KeepsCanonical (execSequencerRefresh t bank s) :=
  .part (.ite (.next h) (.ite (.ite (.next (h.onVault t _)) (.next h)) (.ite (.next (h.onVault t _)) (.next h))))

theorem onLayer (t n : Nat) (f : Layer → Layer) : Canonical (s.onLayer t n f) := h.keepTile t _ fun _ => rfl

theorem execVaultSensorRead (t layer : Nat) (r : Option Int) : KeepsCanonical (execVaultSensorRead t layer r s) := by
  refine .part ?_
  extract_lets x l now comp
  refine .ite (.next h) ?_
  split
  · exact .next (h.onLayer _ _ _)
  · exact .next (.ite ((h.onLayer _ _ _).reportFault _ _ _ _) (h.onLayer _ _ _))

theorem execSensorFailureReport (which : Sensor) : KeepsCanonical (execSensorFailureReport which s) := by
  unfold Machine.execSensorFailureReport
  split
  · exact .part (.ite (.next (((h.onLayer _ _ _).onSys _ _).reportFault _ _ _ _)) (.next h))
  · exact .part (.ite (.next ((h.same (by rfl)).reportFault _ _ _ _)) (.next h))
  · exact .part (.next h)

theorem execClassLeadExpiry (t layer : Nat) : KeepsCanonical (execClassLeadExpiry t layer s) := .part (.next (h.onVault t _))

/-! ### Landings and issues (R27, R42 to R45, R79) -/

theorem settle (t : Nat) : Canonical (s.settle t) := by
  unfold State.settle
  extract_lets x traps rest u
  have noted : Canonical u := h.keepTile t _ fun _ => rfl
  refine .ite h ?_
  clear_value traps
  split
  · exact noted
  · exact noted.takeTrapAt _ _ _ _ _ _ _

theorem settleDrain (t : Nat) : Canonical (s.settleDrain t) := by
  unfold State.settleDrain
  extract_lets x point held u
  have noted : Canonical u := h.keepTile t _ fun _ => rfl
  refine .ite h (.ite (h.onSeq t _) (.ite (h.onSeq t _) ?_))
  split
  split
  · exact noted
  · exact noted.takeTrapAt _ _ _ _ _ _ _

theorem landFlight (t : Nat) (f : Flight) : Canonical (s.landFlight t f) := ((h.keepTile t _ fun _ => by rfl).settle t).settleDrain t

theorem execResultLanding (t id : Nat) : KeepsCanonical (execResultLanding t id s) := by
  refine .part ?_
  split
  · exact .ite (.next (h.landFlight _ _).nextFree) (.next h)
  · exact .next h

theorem execLineArrival (t : Nat) (what : FetchOf) : KeepsCanonical (execLineArrival t what s) := by
  refine .part ?_
  extract_lets q
  split
  · split
    · exact .ite (.next ((h.onSeq t _).homeMoves _ _ _)) (.next h)
    · exact .next h
  · extract_lets e
    split
    · exact .ite (.next ((h.onSeq t _).homeMoves _ _ _)) (.next h)
    · exact .next h

theorem focusOn (t slot index addr : Nat) (checked : Bool) : Canonical (s.focusOn t slot index addr checked) := h.same rfl

theorem issueSlots (t : Nat) (hd : Head) (ws : List (Slot × Word)) (latches : Vector Latch 8) :
    Canonical (s.issueSlots t hd ws latches) := by
  unfold State.issueSlots
  extract_lets q ps taken latched ops x u
  have latch : Canonical latched := h.onSeq t _
  refine .ite h ?_
  split
  · exact h.refuse _ _
  · split
    · exact latch.refuse _ _
    · refine .ite h ?_
      split
      · exact latch.refuse _ _
      · exact same (s := u) (latch.onSeq t _) rfl

theorem beginBundle (t : Nat) : Canonical (s.beginBundle t) := h.onSeq t _

theorem issueHushed (t : Nat) : Canonical (s.issueHushed t) := h.onSeq t _

theorem issueFirst (t : Nat) (err : Ecc) : Canonical (s.issueFirst t err) := by
  unfold State.issueFirst
  extract_lets q hd u
  have counted : Canonical u := .ite (h.countCorrected _ _) h
  refine .ite ((counted.reportFault _ _ _ _).trapAt _ _) ?_
  split
  · exact counted.trapAt _ _
  · exact .ite (counted.issueHushed _) (counted.issueSlots _ _ _ _)

theorem issueAgain (t : Nat) : Canonical (s.issueAgain t) :=
  .ite h (.ite ((h.onSeq t _).issueHushed t) ((h.onSeq t _).issueSlots _ _ _ _))

theorem issueNext (t : Nat) (err : Ecc) : Canonical (s.issueNext t err) := by
  unfold State.issueNext
  extract_lets u q
  have settled : Canonical u := h.keepTile t _ fun x => by split <;> rfl
  exact .ite (settled.issueAgain t) (.ite ((settled.beginBundle t).issueFirst t err) (.ite settled (settled.onSeq t _)))

theorem execBundleIssue (t : Nat) (err : Ecc) : KeepsCanonical (execBundleIssue t err s) :=
  .part (.ite (.next h) (.ite (.next ((h.settle t).issueNext t err).nextFree) (.next (h.settle t))))

theorem closeBundle (t : Nat) : Canonical (s.closeBundle t) := h.onSeq t _

/-! ### Post-operations of a bundle (R44, R119, R137 to R139) -/

theorem runTransfer (t : Nat) (xt xp : BitVec 3) (xn call : Bool) : Canonical (s.runTransfer t xt xp xn call) :=
  .ite (h.onSeq t _) (.ite (h.onSeq t _) (h.taken t xt call))

theorem execTransferJump (t : Nat) (xt xp : BitVec 3) (xn : Bool) : KeepsCanonical (execTransferJump t xt xp xn s) :=
  .part (.ite (.next h) (.next (h.runTransfer t xt xp xn false).nextFree))

theorem execTransferCall (t : Nat) (xt xp : BitVec 3) (xn : Bool) : KeepsCanonical (execTransferCall t xt xp xn s) :=
  .part (.ite (.next h) (.next (h.runTransfer t xt xp xn true).nextFree))

theorem execLoopEnd (t : Nat) (lend : BitVec 6) : KeepsCanonical (execLoopEnd t lend s) :=
  .part (.ite (.next h) (.next (h.runLoopEnd t lend)))

theorem suspendAt (t point : Nat) : Canonical (s.suspendAt t point) := h.keepTile t _ fun _ => rfl

theorem throttle (t : Nat) : Canonical (s.throttle t) := h.onSys t _

theorem yieldPoint (t point : Nat) : Canonical (s.yieldPoint t point) :=
  have throttled := (h.onSeq t fun q => { q with yieldAt := s.icc t, after := q.after.drop 1 }).throttle t
  .ite (throttled.suspendAt t point) throttled

theorem dropRegion_flowTrap (t code : Nat) : Canonical ((s.onTile t Tile.dropRegion).flowTrap t code) :=
  (h.keepTile t Tile.dropRegion fun _ => rfl).flowTrap t code

theorem execSync (t : Nat) (slev : BitVec 3) : KeepsCanonical (execSync t slev s) :=
  .part (.ite (.next h) (.ite (.next (h.dropRegion_flowTrap t _)) (.next (h.onSeq t _))))

theorem execYield (t : Nat) : KeepsCanonical (execYield t s) :=
  .part (.ite (.next h) (.ite (.next (h.dropRegion_flowTrap t _)) (.next (h.yieldPoint t 0))))

theorem writeCode (t : Nat) (code : List Word) : Canonical (s.writeCode t code) := by
  obtain ⟨mem, mem2, host, st⟩ := h
  exact ⟨wf_writeBytes mem _ _, mem2, host, st⟩

theorem swapVariant (t : Nat) : Canonical (s.swapVariant t) := by
  unfold State.swapVariant
  extract_lets x now
  split
  · exact h
  · split
    · exact h
    · split
      · exact h
      · exact ((h.keepTile t _ fun _ => by rfl).writeCode t _).onSeq t _

theorem execRplan (t : Nat) : KeepsCanonical (execRplan t s) := by
  refine .part (.ite (.next h) (.ite (.next (h.dropRegion_flowTrap t _)) ?_))
  extract_lets u
  have yielded : Canonical u := (h.yieldPoint t 1).onSeq t _
  exact .ite (.next (yielded.swapVariant t)) (.next yielded)

theorem execYieldIntervalExpiry (t : Nat) : KeepsCanonical (execYieldIntervalExpiry t s) := by
  refine .part ?_
  extract_lets x
  split
  · exact .ite (.next (h.trapWaiting _ _)) (.next h)
  · exact .next h

theorem execReplanIntervalExpiry (t : Nat) : KeepsCanonical (execReplanIntervalExpiry t s) := by
  refine .part ?_
  extract_lets x
  split
  · exact .ite (.next (h.trapWaiting _ _)) (.next h)
  · exact .next h

/-! ### The ends of stalls and of handlers (R133 to R135, R140, R153, R154) -/

theorem seesGen (tile addr n gen : Nat) : Canonical (s.seesGen tile addr n gen) := h.same rfl

theorem execWaitaComplete (t : Nat) : KeepsCanonical (execWaitaComplete t s) := by
  refine .part ?_
  extract_lets x now
  split
  · extract_lets gen near u v
    refine .ite ?_ (.next h)
    have seen : Canonical v := (h.keepTile t _ fun _ => by rfl).seesGen t _ _ _
    exact .next (.ite seen (seen.flightBy _ _ _))
  · exact .next h

theorem execWaitsComplete (t : Nat) : KeepsCanonical (execWaitsComplete t s) := by
  refine .part ?_
  extract_lets x e
  split
  · exact .ite (.next (h.keepTile t _ fun _ => rfl)) (.next h)
  · exact .next h

theorem execFenceComplete (t : Nat) : KeepsCanonical (execFenceComplete t s) := by
  refine .part ?_
  extract_lets x
  split
  · exact .ite (.next (h.keepTile t _ fun _ => rfl)) (.next h)
  · exact .next h

theorem execModeSwitch (t : Nat) : KeepsCanonical (execModeSwitch t s) := by
  refine .part ?_
  extract_lets x
  split
  · exact .ite (.next ((h.keepTile t _ fun _ => by rfl).settle t)) (.next h)
  · exact .next h

theorem execHandlerEntry (t : Nat) : KeepsCanonical (execHandlerEntry t s) := by
  refine .part ?_
  extract_lets x
  split
  · rename_i r _ _
    refine .ite (.next ?_) (.next h)
    have entered := h.enterHandler t r
    split
    · exact entered.haltTile _ _
    · exact entered
  · exact .next h

theorem execTretResume (t : Nat) : KeepsCanonical (execTretResume t s) := by
  refine .part ?_
  extract_lets x base now head addrs u v
  refine .ite (.next h) ?_
  have restored : Canonical u := h.keepTile t _ fun _ => rfl
  split
  · have closed : Canonical v := restored.closeBundle t
    refine .next ?_
    split
    · exact closed.keepTile t _ fun _ => rfl
    · exact closed
  · exact .next ((restored.keepTile t _ fun _ => by rfl).takeTrapAt _ _ _ _ _ _ _)

end
end Canonical
end Sys2Proof.Machine
end

section
/-! PROOFS. Canonical memories: barriers, the ends of tasks, padded links, commands and pages (R257 to R261, R290 to R307, R318 to R342). -/

namespace Sys2Proof.Machine

@[simp] theorem Tile.dropFalls_st (x : Tile) : x.dropFalls.st = x.st := rfl

/-- Tiles that keep their staging, wherever the table lists them. -/
theorem look_map_st {f : Tile → Tile} (st : ∀ x, (f x).st = x.st) (t : Nat) (m : Table Tile) :
    (look { } t (m.map fun e => (e.1, f e.2))).st = (look { } t m).st := by
  induction m with
  | nil => rfl
  | cons e r ih =>
    obtain ⟨a, x⟩ := e
    simp only [List.map_cons, look]
    split
    · exact st x
    · exact ih

namespace Canonical

section
variable {s : State} (h : Canonical s)
include h

/-! ### Barriers (R290 to R301) -/

theorem onRoleBar (l : Launch) (serial role : Nat) (f : Bar → Bar) : Canonical (s.onRoleBar l serial role f) := by
  unfold State.onRoleBar
  split
  · exact h
  · exact h.keepTile _ _ fun x => by split <;> rfl

theorem onBarrier (serial lev group : Nat) (f : Barrier → Barrier) : Canonical (s.onBarrier serial lev group f) := .ite (h.same rfl) (h.same rfl)

theorem noteArrival (serial lev group : Nat) : Canonical (s.noteArrival serial lev group) := by
  unfold State.noteArrival
  split
  · exact h
  · exact .ite (h.onBarrier _ _ _ _) h

theorem releaseRole (l : Launch) (serial lev role : Nat) : Canonical (s.releaseRole l serial lev role) := by
  unfold State.releaseRole
  split
  · exact h
  · exact .ite (h.onRoleBar _ _ _ _) ((h.onRoleBar _ _ _ _).keepTile _ _ fun _ => rfl)

theorem barrierDone (serial lev group : Nat) : Canonical (s.barrierDone serial lev group) := (h.same (by rfl)).noteArrival _ _ _

theorem execIslandBarrierRelease (serial lev group : Nat) : KeepsCanonical (execIslandBarrierRelease serial lev group s) := by
  refine .part ?_
  split
  · extract_lets rs
    split
    · exact .ite (.next h) (.next ((foldl (fun _ _ hs => hs.releaseRole _ _ _ _) _ h).barrierDone _ _ _))
    · exact .next h
  · exact .next h

theorem execLamplighterReleaseBase (serial lev group : Nat) : KeepsCanonical (execLamplighterReleaseBase serial lev group s) := by
  refine .part ?_
  split
  · exact .ite (.next h) (.next (h.onBarrier _ _ _ _))
  · exact .next h

theorem execLamplighterPhaseSignal (serial lev group island : Nat) :
    KeepsCanonical (execLamplighterPhaseSignal serial lev group island s) := by
  refine .part ?_
  split
  · split
    · exact .next h
    · refine .ite (.next h) ?_
      extract_lets rs u left
      have released : Canonical u := .foldl (fun _ _ hs => hs.releaseRole _ _ _ _) _ h
      exact .next (.ite (released.barrierDone _ _ _) (released.onBarrier _ _ _ _))
  · exact .next h

theorem cutOff (l : Launch) (serial lev : Nat) : Canonical (s.cutOff l serial lev) :=
  .foldl (fun _ _ hs => .ite (hs.found _ _) hs) _ h

theorem podLost (l : Launch) (serial lev rank role : Nat) : Canonical (s.podLost l serial lev rank role) :=
  .foldl (fun _ _ hs => hs.onRoleBar _ _ _ _) _ (h.onLaunch _ _)

theorem execBarrierMessage (serial lev : Nat) (what : BarrierNews) (rank : Nat) :
    KeepsCanonical (execBarrierMessage serial lev what rank s) := by
  refine .part ?_
  split
  · exact .next h
  · refine .ite (.next h) ?_
    split
    · exact .next (.ite h (h.podLost _ _ _ _ _))
    · exact .next (h.cutOff _ _ _)
    · exact .ite (.next (h.cutOff _ _ _)) (.next (h.onBarrier _ _ _ _))
    · exact .ite (.ite (.next (h.cutOff _ _ _)) (.next h)) (.next (h.onBarrier _ _ _ _))

theorem execSyncArrival (t : Nat) : KeepsCanonical (execSyncArrival t s) := by
  refine .part ?_
  extract_lets x
  split
  · exact .ite (.next h) (.ite (.next (h.trapWaiting _ _)) (.next ((h.keepTile t _ fun _ => by rfl).noteArrival _ _ _)))
  · exact .next h

theorem execMemberLostTrap (t : Nat) : KeepsCanonical (execMemberLostTrap t s) := by
  refine .part ?_
  extract_lets x trap
  split
  · exact .next (.ite (h.trapWaiting _ _) h)
  · exact .next h

/-! ### The ends of tasks and launches (R148, R151, R292, R331, R342) -/

theorem voidNotices (t : Nat) : Canonical (s.voidNotices t) := h.same rfl

theorem releaseTile (t : Nat) : Canonical (s.releaseTile t) := by
  have performed := (h.performAll t).voidNotices t
  exact performed.setTile t (performed.2.2.2 t)

theorem noteEnding (serial : Nat) (l : Launch) : Canonical (s.noteEnding serial l) := .ite h (h.same rfl)

theorem concludes (serial : Nat) : Canonical (s.concludes serial) := by
  unfold State.concludes
  split
  · exact h
  · split
    · exact h
    · refine .ite h (.foldl (fun _ _ hs => .ite (hs.releaseTile _) hs) _ ?_)
      exact (((h.onLaunch serial _).noteEnding _ _).logIt _ _ _ _).same rfl

theorem finish (serial : Nat) : Canonical (s.finish serial) := by
  unfold State.finish
  split
  · exact h
  · exact .ite h ((h.onLaunch _ _).concludes _)

theorem settled (serial : Nat) : Canonical (s.settled serial) := by
  unfold State.settled
  split
  · exact h
  · exact .ite h (.ite (.ite (h.onLaunch _ _) h) (.ite (h.onLaunch _ _) h))

theorem roleEnded (serial role : Nat) : Canonical (s.roleEnded serial role) := by
  unfold State.roleEnded
  split
  · exact h
  · exact .foldl (fun _ _ hs => hs.noteArrival _ _ _) _ ((h.onLaunch _ _).settled _)

theorem roleLost (serial role : Nat) : Canonical (s.roleLost serial role) := by
  unfold State.roleLost
  split
  · exact h
  · exact .foldl (fun _ _ hs => .foldl (fun _ _ hs => hs.onRoleBar _ _ _ _) _ hs) _ (h.onLaunch _ _)

theorem decide (serial : Nat) (l : Launch) (n : Notice) : Canonical (s.decide serial l n) := h.same rfl

theorem reportStop (t : Nat) (r : TrapRec) : Canonical (s.reportStop t r) := by
  unfold State.reportStop
  split
  · exact h
  · extract_lets code serial first u v
    have logged : Canonical v := (h.onLaunch _ _).logIt _ _ _ _
    split
    · split
      · exact logged
      · exact .ite logged ((ite logged (logged.decide _ _ _)).onLaunch _ _)
    · exact ((logged.roleLost _ _).finish _).settled _

theorem execTaskStop (t : Nat) : KeepsCanonical (execTaskStop t s) := by
  refine .part ?_
  extract_lets x
  split
  · rename_i r _ _
    have framed := ((h.keepTile t Tile.dropRegion fun _ => rfl).writeFrame t r)
    exact .ite (.next h) (.next (((framed.keepTile t _ fun _ => by rfl).keepTile t Tile.dropFalls fun _ => rfl).reportStop t r))
  · exact .next h

theorem execEndExit (t : Nat) : KeepsCanonical (execEndExit t s) := by
  refine .part ?_
  extract_lets x
  split
  · exact .ite (.next h) (.ite (.next ((h.keepTile t Tile.dropRegion fun _ => rfl).takeTrap _ _ _ _ _ _))
      (.ite (.next h) (.next (((h.onSeq t _).roleEnded _ _).finish _))))
  · exact .next h

theorem execExitBarrierRelease (serial island : Nat) : KeepsCanonical (execExitBarrierRelease serial island s) := by
  refine .part ?_
  split
  · exact .next h
  · exact .ite (.next h) (.next ((foldl (fun _ _ hs => .ite (hs.releaseTile _) hs) _ h).finish _))

/-! ### Padded links (R302 to R307) -/

theorem execLinkLineAccept (t chan : Nat) : KeepsCanonical (execLinkLineAccept t chan s) := by
  refine .part ?_
  extract_lets x now
  split
  · split
    · extract_lets u r
      have marked : Canonical u := h.keepTile t _ fun _ => rfl
      exact .ite (.next h) (.ite (.next (marked.found _ _)) (.next (same (s := u.fresh.2) marked.fresh rfl)))
    · exact .next h
  · exact .next h

theorem landLine (e : Landing) : Canonical (s.landLine e) := h.onTile e.tile fun _ wf => Tile.stageBy_wf wf _ _ _ _

theorem execLinkLineDelivery (seq : Nat) : KeepsCanonical (execLinkLineDelivery seq s) := by
  unfold Machine.execLinkLineDelivery
  split
  · exact .next h
  · refine .ite (.next h) (.ite (.next (h.same rfl)) ?_)
    split
    · exact .next (.ite h (h.same rfl))
    · exact .next (h.same rfl)

theorem execLinkDeliveryFailure (seq : Nat) : KeepsCanonical (execLinkDeliveryFailure seq s) := by
  unfold Machine.execLinkDeliveryFailure
  split
  · exact .next h
  · exact .ite (.next h) (.next (.ite ((h.same (by rfl)).found _ _) (h.same rfl)))

theorem execLinkSyncIntervalExpiry (t : Nat) : KeepsCanonical (execLinkSyncIntervalExpiry t s) := by
  refine .part ?_
  extract_lets x
  split
  · exact .ite (.next (h.trapWaiting _ _)) (.next h)
  · exact .next h

/-! ### Commands, submissions, images, sessions (R318 to R332, R357) -/

theorem asOwner (port : Nat) {f : State → State} (hf : ∀ {u}, Canonical u → Canonical (f u)) : Canonical (s.asOwner port f) :=
  .ite h (.ite (h.logIt _ _ _ _) (.ite (hf h) (((h.logIt _ _ _ _).tell _ _).tell _ _)))

theorem refuseTo (port code : Nat) : Canonical (s.refuseTo port code) := (h.logIt _ _ _ _).tell _ _

theorem doneTo (port : Nat) : Canonical (s.doneTo port) := h.tell _ _

theorem reportDone (port : Nat) : Canonical (s.reportDone port) := (h.logIt _ _ _ _).doneTo _

theorem breakReplay (l : Launch) : Canonical (s.breakReplay l) := by
  unfold State.breakReplay
  split
  · exact h.same rfl
  · exact h

theorem turnAway (serial : Nat) (l : Launch) (code : Nat) : Canonical (s.turnAway serial l code) :=
  (((ite (h.breakReplay l) h).same (by rfl)).logIt _ _ _ _).tell _ _

theorem enqueue (serial : Nat) (l : Launch) : Canonical (s.enqueue serial l) := by
  unfold State.enqueue
  extract_lets l'
  split
  · exact h.same rfl
  · exact h.same rfl

theorem submit (port disp : Nat) (sub : Submission) (start : Option Nat) : Canonical (s.submit port disp sub start) :=
  have numbered := (same (u := { s with serial := s.serial + 1 }) h rfl).tell port (.serial s.serial)
  .ite (numbered.enqueue _ _) (numbered.turnAway _ _ _)

theorem execSubmission (port disp : Nat) (sub : Submission) : KeepsCanonical (execSubmission port disp sub s) :=
  .part (.next (h.asOwner _ fun hu => hu.submit _ _ _ _))

theorem execImageLoad (port handle : Nat) (img : Image) : KeepsCanonical (execImageLoad port handle img s) :=
  .part (.next (h.asOwner _ fun hu => .ite hu (.ite (hu.refuseTo _ _) ((hu.same (by rfl)).tell _ _))))

theorem execParamBlockPatch (port handle : Nat) (bytes : List Byte) : KeepsCanonical (execParamBlockPatch port handle bytes s) :=
  .part (.next (h.asOwner _ fun hu => .ite (hu.refuseTo _ _) ((hu.same (by rfl)).doneTo _)))

theorem execTimedTableWrite (port disp index : Nat) (entry : Option (Word × Word)) (slot : Option Submission) :
    KeepsCanonical (execTimedTableWrite port disp index entry slot s) := by
  refine .part (.next (h.asOwner _ fun {u} hu => ?_))
  extract_lets v
  have slotted : Canonical v := by
    unfold v
    split
    · exact .ite (hu.same rfl) (hu.refuseTo _ _)
    · exact hu
  split
  · exact slotted
  · exact .ite (slotted.refuseTo _ _) (slotted.same rfl)

theorem execTimedEntryFire (disp index : Nat) : KeepsCanonical (execTimedEntryFire disp index s) := by
  refine .part (.ite (.next h) ?_)
  split
  · exact .next h
  · exact .next ((h.same (by rfl)).submit _ _ _ _)

theorem execSessionOpen (port num : Nat) (replay : Bool) : KeepsCanonical (execSessionOpen port num replay s) :=
  .part (.next (h.asOwner _ fun hu => .ite (hu.refuseTo _ _) ((hu.same (by rfl)).doneTo _)))

theorem execSessionClose (port num : Nat) : KeepsCanonical (execSessionClose port num s) := by
  refine .part (.next (h.asOwner _ fun hu => ?_))
  split
  · exact (hu.same (by rfl)).doneTo _
  · exact hu.refuseTo _ _

/-! ### Pages (R257, R260, R261) -/

theorem copyPage (l : Leaf) (tier frame : Nat) : Canonical (s.copyPage l tier frame) := by
  obtain ⟨mem, mem2, host, st⟩ := h
  unfold State.copyPage
  split
  · split
    · exact ⟨wf_putCells mem _ _ _, mem2, host, st⟩
    · exact ⟨mem, wf_putCells mem2 _ _ _, host, st⟩
  · split
    · exact ⟨wf_putCells mem _ _ _, mem2, host, st⟩
    · exact ⟨mem, wf_putCells mem2 _ _ _, host, st⟩

/-- Tiles changed alike, that each keep their staging. -/
theorem mapTiles {f : Tile → Tile} (st : ∀ x, (f x).st = x.st) : Canonical { s with tiles := s.tiles.map fun e => (e.1, f e.2) } := by
  obtain ⟨mem, mem2, host, staged⟩ := h
  exact ⟨mem, mem2, host, fun t => (look_map_st st t s.tiles).symm ▸ staged t⟩

theorem movePage (p : Page) (tier frame : Nat) : Canonical (s.movePage p tier frame) := by
  unfold State.movePage
  extract_lets l inside s1 s2 swap s3
  have copied : Canonical s1 := h.copyPage _ _ _
  have placed : Canonical s2 := .ite (copied.same rfl) copied
  have mapped : Canonical s3 := .foldl (fun _ _ hs => hs.writeRaw _ _ _) _ placed
  exact (mapped.mapTiles (f := fun x => { x with eng := { x.eng with
    copies := x.eng.copies.map fun g => { g with leaves := g.leaves.map swap }
    atomics := x.eng.atomics.map fun g => { g with leaf := g.leaf.map swap } } }) fun _ => rfl).same rfl

omit h in
/-- Steps that each keep memories canonical where they succeed keep them so over a list that all succeed on. -/
theorem foldl_bind {α : Type} {f : State → α → Option State} (keep : ∀ s a u, Canonical s → f s a = some u → Canonical u)
    (xs : List α) {o : Option State} (ho : ∀ v, o = some v → Canonical v) {u : State}
    (e : xs.foldl (fun o a => o.bind fun s => f s a) o = some u) : Canonical u := by
  induction xs generalizing o with
  | nil => exact ho u e
  | cons a r ih =>
    refine ih (fun v step => ?_) e
    obtain ⟨w, start, next⟩ := Option.bind_eq_some_iff.1 step
    exact keep w a v (ho w start) next

theorem evacuate (own : BitVec 31) (ts : List Nat) {u : State} (e : s.evacuate own ts = some u) : Canonical u := by
  refine foldl_bind (fun v p w hv moved => ?_) _ (fun v start => Option.some.inj start ▸ h) e
  obtain ⟨d, -, rfl⟩ := Option.map_eq_some_iff.1 moved
  exact hv.movePage _ _ _

theorem execPageMigration (entry frame tier : Nat) : KeepsCanonical (execPageMigration entry frame tier s) := by
  unfold Machine.execPageMigration
  split
  · exact .next h
  · exact .next (.ite (h.movePage _ _ _) h)

end
end Canonical
end Sys2Proof.Machine
end

section
/-! PROOFS. Canonical memories: operating points, arbitration, binding, saved contexts, boot and the owner's tables (R313 to R370). -/

namespace Sys2Proof.Machine

theorem wf_foldl_preload (ps : List (Nat × List Byte)) : Memory.wf (ps.foldl (fun m p => writeBytes m p.1 p.2) []) = true :=
  wf_foldl_writeBytes (fun p : Nat × List Byte => p.1) (·.2) ps wf_nil

theorem Tile.revive_st (x : Tile) (a : Atomic) : (x.revive a).st = x.st := by
  unfold Tile.revive
  extract_lets fly
  split
  · split <;> rfl
  · refine Tile.st_foldl (fun y e => ?_) _ x
    split
    · split <;> rfl
    · rfl
  · rfl

theorem Tile.ceases_st (x : Tile) (st : LState) : (x.ceases st).st = x.st := by
  unfold Tile.ceases
  split
  · rfl
  · split <;> rfl

/-- A task's staging as its context has it: cells moved from its rows (R337). -/
theorem State.restoredTile_st (s : State) (t : Nat) (k : Task) (cost : Nat) :
    (s.restoredTile t k cost).st = shiftCells s.mem (rowAddr t 400) Config.stagingBytes 0 := rfl

theorem restoreScalars_st (x : Tile) (m : Memory) (base : Nat) : (restoreScalars x m base).st = x.st := by
  unfold restoreScalars
  rfl

theorem State.restartedTile_st (s : State) (t : Nat) : (s.restartedTile t).st = (s.tile t).st := by
  unfold State.restartedTile
  extract_lets x now base a wait since stopped live y z hd
  calc z.st = y.st := Tile.st_foldl Tile.revive_st stopped y
    _ = x.st := restoreScalars_st _ _ _

namespace Canonical

/-- The package without power has no tile that is not as after reset, and no byte (R349). -/
theorem powerOff (s : State) : Canonical s.powerOff := ⟨rfl, rfl, rfl, fun _ => rfl⟩

section
variable {s : State} (h : Canonical s)
include h

/-! ### Operating points (R363 to R366) -/

theorem setPoint (i : Nat) (x : Island) : Canonical (s.setPoint i x) :=
  have set : Canonical (s.setIsland i x) := h.same rfl
  .ite set ((set.logIt _ _ _ _).tellOwner _)

theorem postTo (t : Nat) : Canonical (s.postTo t) := .ite (h.same rfl) h

theorem postFloors (i n : Nat) : Canonical (s.postFloors i n) := h.same rfl

theorem startRamp (i n : Nat) : Canonical (s.startRamp i n) :=
  .ite h (.ite ((h.setPoint _ _).postFloors _ _) (h.setPoint _ _))

theorem holdRequest (i n : Nat) : Canonical (s.holdRequest i n) := (ite ((h.logIt _ _ _ _).tellOwner _) h).setPoint _ _

theorem raiseIsland (i : Nat) : Canonical (s.raiseIsland i) := .ite h ((ite h (h.holdRequest _ _)).setPoint _ _)

theorem startHeld (i : Nat) : Canonical (s.startHeld i) := .ite h ((h.setPoint _ _).startRamp _ _)

theorem execOperatingPointRequest (port island point : Nat) : KeepsCanonical (execOperatingPointRequest port island point s) :=
  .part (.next (h.asOwner _ fun hu => .ite ((hu.setPoint _ _).doneTo _) (.ite (hu.refuseTo _ _)
    (.ite ((hu.holdRequest _ _).doneTo _) ((hu.startRamp _ _).doneTo _)))))

theorem execVoltageStepComplete (island : Nat) : KeepsCanonical (execVoltageStepComplete island s) :=
  .part (.ite (.next (h.startHeld _)) (.ite (.next h)
    (.next ((ite ((h.setPoint _ _).postFloors _ _) (h.setPoint _ _)).startHeld _))))

/-! ### Arbitration and notices (R322, R323, R333, R334) -/

theorem grantBinding (serial : Nat) (ts : List Nat) (v : Nat) : Canonical (s.grantBinding serial ts v) :=
  .foldl (fun _ _ hs => hs.raiseIsland _) _ (h.onLaunch _ _)

theorem grantResume (serial : Nat) (ts : List Nat) : Canonical (s.grantResume serial ts) :=
  .foldl (fun _ _ hs => hs.raiseIsland _) _ (h.onLaunch _ _)

theorem preempt (l : Launch) (need : List Nat) : Canonical (s.preempt l need) := by
  refine .ite h (.foldl (fun u v hu => ?_) _ h)
  split
  · exact hu
  · exact .ite hu ((hu.decide _ _ _).onLaunch _ _)

theorem consider (serial : Nat) : Canonical (s.consider serial) := by
  unfold State.consider
  split
  · exact h
  · rename_i l _
    extract_lets opened reserve
    have reserved : ∀ {u : State} (ts : List Nat), Canonical u → Canonical (reserve u ts) :=
      fun ts hu => .foldl (fun _ _ hs => .ite (hs.same (by rfl)) hs) ts hu
    split
    · split
      · exact h
      · split
        refine .ite (.ite (h.grantBinding _ _ _) (.ite h (((h.onLaunch _ _).logIt _ _ _ _).tellOwner _))) ?_
        exact (reserved _ h).preempt _ _
    · exact .foldl (fun _ _ hs => .ite hs (.ite (hs.grantResume _ _) (reserved _ hs))) _ h

theorem execArbitration : KeepsCanonical (execArbitration s) :=
  .ite (.next h) (.next (.foldl (fun _ _ hs => hs.consider _) _ (h.same rfl)))

theorem throttleAll (islands : List Nat) (floors : Vector (BitVec 4) 4) : Canonical (s.throttleAll islands floors) := by
  obtain ⟨_, _, e⟩ := s.throttleAll_same islands floors
  rw [e]
  exact h.same rfl

theorem execNoticeDelivery (t : Nat) (n : Notice) : KeepsCanonical (execNoticeDelivery t n s) := by
  refine .part ?_
  split
  · exact .next h
  · exact .next (.ite (h.same rfl) (h.same rfl))

theorem showNotices (t : Nat) : Canonical (s.showNotices t) := by
  unfold State.showNotices
  extract_lets mine u
  have shown : Canonical u := by
    refine .foldl (fun v e hv => hv.keepTile t _ fun x => ?_) _ h
    split
    · rfl
    · split <;> rfl
  exact shown.same rfl

/-! ### Binding and the starts of gangs (R9, R25, R176, R325 to R331) -/

theorem takeBanks (t : Nat) (own : BitVec 31) (world : Bool) : Canonical (s.takeBanks t own world) := by
  refine .foldl (fun u b hu => keepTile (ite ?_ hu) t _ fun _ => by rfl) _ h
  obtain ⟨mem, mem2, host, st⟩ := hu
  exact ⟨wf_zeroBytes mem _ _, mem2, host, st⟩

theorem bindRole (serial : Nat) (l : Launch) (v : Variant) (role : Nat) : Canonical (s.bindRole serial l v role) := by
  unfold State.bindRole
  split
  · exact h
  · rename_i t _
    extract_lets e k stage block preload bytes
    split
    exact (((h.takeBanks t _ _).writeCode t _).onTile t fun _ _ => wf_foldl_preload _).postTo t

theorem notePointer (serial : Nat) (l : Launch) : Canonical (s.notePointer serial l) := h.same rfl

theorem traceBinding (serial : Nat) (l : Launch) : Canonical (s.traceBinding serial l) := by
  unfold State.traceBinding
  split
  · exact h
  · exact .ite (h.same rfl) (.ite (((h.same (by rfl)).logIt _ _ _ _).tellOwner _) (h.same rfl))

theorem execBinding (serial : Nat) : KeepsCanonical (execBinding serial s) := by
  unfold Machine.execBinding
  split
  · exact .next h
  · refine .ite (.next h) (.ite (.next (((h.onLaunch _ _).logIt _ _ _ _).tell _ _)) ?_)
    split
    · rename_i moved
      have evacuated := h.evacuate _ _ moved
      refine .ite (.next (h.onLaunch _ _)) (.next ?_)
      exact ((foldl (fun _ _ hs => hs.bindRole _ _ _ _) _ (evacuated.onLaunch _ _)).notePointer _ _).traceBinding _ _
    · exact .next (h.onLaunch _ _)

theorem reactivate (t : Nat) : Canonical (s.reactivate t) := by
  unfold State.reactivate
  extract_lets x now
  split
  · exact h
  · exact .ite h (h.keepTile t _ fun _ => rfl)

theorem startMember (t : Nat) : Canonical (s.startMember t) := h.keepTile t _ fun _ => rfl

theorem execGangStart (serial island : Nat) : KeepsCanonical (execGangStart serial island s) := by
  refine .part ?_
  split
  · exact .next h
  · exact .ite (.next h) (.next (onLaunch (foldl (fun _ _ hs => hs.startMember _) _ h) _ _))

/-! ### Saved contexts and restarts (R335 to R342) -/

theorem withContext (t : Nat) (k : Task) : Canonical (s.withContext t k) := by
  obtain ⟨mem, mem2, host, st⟩ := h
  have rows := wf_foldl_writeBytes (fun e : Nat × List Byte => rowAddr t e.1) (·.2) (s.tile t).extended
    (wf_putCells (wf_writeBytes mem (rowAddr t 8) (s.contextFrame t k ++ contextRecord (s.tile t) k (s.receives k)))
      (rowAddr t 16) (2048 * 1024) (s.sramCells t))
  refine ⟨?_, mem2, host, st⟩
  unfold State.withContext
  extract_lets x m1 m2 m3
  split
  · exact wf_putCells rows _ _ _
  · exact rows

theorem parkInPlace (t : Nat) : Canonical (s.parkInPlace t) := h.keepTile t _ fun _ => rfl

theorem saveContext (t : Nat) (k : Task) : Canonical (s.saveContext t k) :=
  (((h.keepTile t _ fun _ => by rfl).voidNotices t).withContext t _).setTile t rfl

theorem execContextSave (t : Nat) : KeepsCanonical (execContextSave t s) := by
  refine .part ?_
  split
  · exact .next h
  · exact .ite (.next h) (.ite (.next ((h.parkInPlace _).settled _)) (.next ((h.saveContext _ _).settled _)))

theorem execCheckpointPathEntry (t : Nat) : KeepsCanonical (execCheckpointPathEntry t s) := by
  refine .part ?_
  extract_lets x now
  split
  · exact .next h
  · split
    · exact .next h
    · exact .ite (.next h) (.next ((h.keepTile t _ fun _ => by rfl).onLaunch _ _))

theorem restoreTile (t : Nat) (k : Task) (cost : Nat) : Canonical (s.restoreTile t k cost) := by
  have restored : Canonical (s.setTile t (s.restoredTile t k cost)) := h.setTile t (wf_shiftCells h.1 _ _ _)
  obtain ⟨mem, mem2, host, st⟩ := restored
  refine ⟨?_, mem2, host, st⟩
  unfold State.restoreTile
  extract_lets x m
  unfold m
  split
  · exact wf_putCells mem _ _ _
  · exact mem

theorem endLaunch (serial : Nat) (st : LState) (code : Nat) : Canonical (s.endLaunch serial st code) := by
  unfold State.endLaunch
  split
  · exact h
  · rename_i l _
    have ending := (same (u := { s with barriers := s.barriers.filter fun b => b.serial != serial }) h rfl).onLaunch serial fun l =>
      { l with endsAs := some (st, code) }
    refine concludes (.foldl (fun u t hu => ?_) _ ending) _
    have discarded := ite (c := (u.tile t).saves serial = true) (hu.keepTile t Tile.discard fun _ => rfl) hu
    exact .ite ((discarded.voidNotices t).keepTile t _ fun x => x.ceases_st st) discarded

theorem execResume (serial island : Nat) (err : Ecc) : KeepsCanonical (execResume serial island err s) := by
  refine .part ?_
  split
  · exact .next h
  · refine .ite (.next h) (.ite (.next ((h.reportFault _ _ _ _).endLaunch _ _ _)) (.next ?_))
    refine .foldl (fun u t hu => ?_) _ (ite (h.countCorrected _ _) h)
    split
    · exact hu
    · exact ((hu.writeCode _ _).restoreTile _ _ _).postTo _

theorem restartTile (t : Nat) : Canonical (s.restartTile t) := h.setTile t ((s.restartedTile_st t).symm ▸ h.2.2.2 t)

theorem resumeInPlace (t : Nat) : Canonical (s.resumeInPlace t) := h.keepTile t _ fun _ => rfl

theorem restartGang (serial : Nat) (l : Launch) : Canonical (s.restartGang serial l) := by
  unfold State.restartGang
  extract_lets mine down roles s1 s2 s3 waits
  have told : Canonical s1 := h.same rfl
  have restarted : Canonical s2 := .foldl (fun _ _ hs => hs.restartTile _) _ told
  have resumed : Canonical s3 := .foldl (fun _ _ hs => hs.resumeInPlace _) _ restarted
  exact resumed.onLaunch _ _

theorem execGangRestart (port serial : Nat) : KeepsCanonical (execGangRestart port serial s) := by
  refine .part (.next (h.asOwner _ fun hu => ?_))
  split
  · exact hu.refuseTo _ _
  · exact .ite (hu.refuseTo _ _) ((hu.restartGang _ _).doneTo _)

theorem execHoldEnd (port serial : Nat) : KeepsCanonical (execHoldEnd port serial s) := by
  refine .part (.next (h.asOwner _ fun hu => ?_))
  split
  · exact .ite ((hu.endLaunch _ _ _).doneTo _) (hu.refuseTo _ _)
  · exact hu.refuseTo _ _

theorem execCancel (port serial : Nat) : KeepsCanonical (execCancel port serial s) := by
  refine .part (.next (h.asOwner _ fun hu => ?_))
  split
  · exact .ite (hu.refuseTo _ _) ((hu.endLaunch _ _ _).doneTo _)
  · exact hu.refuseTo _ _

theorem execFrameRelease (port t : Nat) : KeepsCanonical (execFrameRelease port t s) :=
  .part (.next (h.asOwner _ fun hu => .ite ((hu.releaseTile _).doneTo _) (hu.refuseTo _ _)))

theorem execFailedTileReleaseTimeout (t : Nat) : KeepsCanonical (execFailedTileReleaseTimeout t s) :=
  .part (.next (.ite (h.releaseTile t) h))

theorem readFrames (port serial t : Nat) : Canonical (s.readFrames port serial t) :=
  .ite (h.refuseTo _ _) (.ite ((h.tell _ _).releaseTile t) (h.tell _ _))

theorem execLaunchStatusRead (port : Nat) (what : StatusRead) : KeepsCanonical (execLaunchStatusRead port what s) := by
  refine .part (.ite (.next (.ite (h.logIt _ _ _ _) h)) ?_)
  split
  · split
    · exact .next (.ite (h.refuseTo _ _) (h.tell _ _))
    · exact .next (h.refuseTo _ _)
  · split
    · exact .next (h.readFrames _ _ _)
    · exact .next (h.refuseTo _ _)

theorem execStatusAck (port serial : Nat) : KeepsCanonical (execStatusAck port serial s) := by
  refine .part (.next (h.asOwner _ fun hu => ?_))
  split
  · exact .ite ((hu.onLaunch _ _).doneTo _) (hu.refuseTo _ _)
  · exact hu.refuseTo _ _

theorem execStatusRecordExpiry (serial : Nat) : KeepsCanonical (execStatusRecordExpiry serial s) := by
  unfold Machine.execStatusRecordExpiry
  split
  · exact .next (.ite (h.onLaunch _ _) h)
  · exact .next h

/-! ### Boot and ownership (R349 to R359) -/

theorem bootCode (code : Nat) : Canonical (s.bootCode code) := (h.logIt _ _ _ _).tell _ _

theorem stages (codes : List Nat) : Canonical (s.stages codes) := .foldl (fun _ _ hs => hs.bootCode _) codes h

theorem bootFails (code : Nat) : Canonical (s.bootFails code) := (h.bootCode code).same rfl

theorem execWakePattern (on : WakeOn) (record : Option ConfigRecord) (railOk : Bool) :
    KeepsCanonical (execWakePattern on record railOk s) := by
  refine .part ?_
  extract_lets go o p u v
  have woken : Canonical u := (powerOff s).same rfl
  have stage1 : Canonical v := woken.stages [1]
  refine .ite (.next h) (.ite (.next (woken.bootFails _)) ?_)
  split
  · exact .next (stage1.bootFails _)
  · extract_lets w x
    have stage2 : Canonical w := (same stage1 rfl).stages [2]
    have stage3 : Canonical x := stage2.stages [3]
    exact .ite (.next (stage1.bootFails _)) (.ite (.next (stage1.bootFails _)) (.ite (.next (stage2.bootFails _))
      (.next (same stage3 rfl))))

theorem execFirmwarePush (port : Nat) (fw : Firmware) (found : SelfTest) : KeepsCanonical (execFirmwarePush port fw found s) := by
  refine .part ?_
  split
  · extract_lets code refused vaults u links
    have failed : Canonical u := .foldl (fun _ t hs => hs.onVault t _) _ h
    have told : Canonical refused := h.bootCode _
    exact .ite (.next h) (.ite (.next (same told rfl)) (.next (stages (same failed (by rfl)) _)))
  · exact .next h

theorem execLightRemovalTimeout : KeepsCanonical (execLightRemovalTimeout s) := by
  unfold Machine.execLightRemovalTimeout
  extract_lets dark
  split
  · exact .next (.ite (powerOff s) h)
  · exact .next h

theorem resets : Canonical s.resets := .ite (powerOff s) h

theorem execPackageReset (port : Nat) : KeepsCanonical (execPackageReset port s) :=
  .part (.next (h.asOwner _ fun hu => resets (same (foldl (fun _ _ hs => hs.endLaunch _ _ _) _ hu) rfl)))

theorem execQuoteRequest (port nonce : Nat) : KeepsCanonical (execQuoteRequest port nonce s) := by
  refine .part ?_
  extract_lets p
  split
  · exact .ite (.next h) (.next ((h.same (by rfl)).tell _ _))
  · exact .next h

theorem execClaim (port key sig : Nat) : KeepsCanonical (execClaim port key sig s) := by
  refine .part ?_
  split
  · refine .ite (.next (h.logIt _ _ _ _)) ?_
    split
    · exact .next (h.refuseTo _ _)
    · exact .ite (.next (h.refuseTo _ _)) (.ite (.next (h.refuseTo _ _)) (.next ((h.same (by rfl)).doneTo _)))
  · exact .next h

theorem execHandover (port key : Nat) : KeepsCanonical (execHandover port key s) :=
  .part (.next (h.asOwner _ fun hu => (hu.same (by rfl)).doneTo _))

theorem execHandoverTimeout : KeepsCanonical (execHandoverTimeout s) := by
  unfold Machine.execHandoverTimeout
  split
  · exact .next (.ite (h.same rfl) h)
  · exact .next h

theorem execOwnerLinkLossTimeout : KeepsCanonical (execOwnerLinkLossTimeout s) := by
  unfold Machine.execOwnerLinkLossTimeout
  split
  · exact .next h
  · exact .ite (.next h) (.next (((h.same (by rfl)).logIt _ _ _ _).tell _ _))

theorem execLanternLinkLoss (port : Nat) : KeepsCanonical (execLanternLinkLoss port s) :=
  .part (.ite (.next h) (.next (.ite ((h.same (by rfl)).reportFault _ _ _ _) (h.same rfl))))

theorem execLanternLinkReturn (port : Nat) : KeepsCanonical (execLanternLinkReturn port s) :=
  .part (.ite (.next h) (.next (h.same rfl)))

theorem execLanternMessage (port message : Nat) (use : LanternUse) : KeepsCanonical (execLanternMessage port message use s) := by
  refine .part (.ite (.next h) (.ite (.next (h.logIt _ _ _ _)) (.next ?_)))
  split
  · exact h.asOwner _ fun hu => hu
  · exact h.asOwner _ fun hu => (hu.throttleAll _ _).doneTo _
  · exact h.tell _ _
  · exact h.tell _ _
  · exact h

/-! ### The owner's tables (R313, R357 to R370) -/

theorem execPtpMessage (port sec ns : Nat) : KeepsCanonical (execPtpMessage port sec ns s) :=
  .part (.ite (.next h) (.next (.ite (h.same rfl) (h.same rfl))))

theorem execHostWindowOpen (port base size node : Nat) : KeepsCanonical (execHostWindowOpen port base size node s) :=
  .part (.next (h.asOwner _ fun hu => .ite (hu.refuseTo _ _) ((hu.same (by rfl)).doneTo _)))

theorem execTableCacheInvalidate (port : Nat) (root : Word) (lo hi : Nat) :
    KeepsCanonical (execTableCacheInvalidate port root lo hi s) :=
  .part (.next (h.asOwner _ fun hu => (hu.same (by rfl)).reportDone _))

theorem execWriterTagClear (port lo hi : Nat) : KeepsCanonical (execWriterTagClear port lo hi s) :=
  .part (.next (h.asOwner _ fun hu => (hu.same (by rfl)).reportDone _))

theorem onWriting (f : Launch → Launch) : Canonical (s.onWriting f) := h.same rfl

theorem execLamplighterWrite (port : Nat) (word : Word) (phases : List (BitVec 5)) :
    KeepsCanonical (execLamplighterWrite port word phases s) :=
  .part (.next (h.asOwner _ fun hu => .ite (hu.refuseTo _ _) (((hu.same (by rfl)).onWriting _).doneTo _)))

theorem execKeyLoad (port slot wrapped : Nat) : KeepsCanonical (execKeyLoad port slot wrapped s) := by
  refine .part (.next (h.asOwner _ fun hu => ?_))
  extract_lets key
  clear_value key
  split
  · exact .ite (hu.refuseTo _ _) ((hu.same (by rfl)).doneTo _)
  · exact hu.refuseTo _ _

theorem execKeyErase (port slot : Nat) : KeepsCanonical (execKeyErase port slot s) :=
  .part (.next (h.asOwner _ fun hu => (hu.same (by rfl)).doneTo _))

theorem execRegionWrite (port stack index : Nat) (w0 w1 : Word) : KeepsCanonical (execRegionWrite port stack index w0 w1 s) :=
  .part (.next (h.asOwner _ fun hu => .ite (hu.refuseTo _ _) ((hu.same (by rfl)).doneTo _)))

theorem execWorldAssign (port : Nat) (which : WorldOf) (secure : Bool) : KeepsCanonical (execWorldAssign port which secure s) := by
  refine .part (.next (h.asOwner _ fun hu => ?_))
  split
  · exact .ite (hu.refuseTo _ _) ((hu.keepTile _ _ fun _ => by rfl).doneTo _)
  · exact .ite (hu.refuseTo _ _) ((hu.same (by rfl)).doneTo _)

theorem execRouteWrite (port : Nat) (routes : List (Nat × Nat × Nat)) (parent : Option Nat) (hops : Nat) :
    KeepsCanonical (execRouteWrite port routes parent hops s) :=
  .part (.next (h.asOwner _ fun hu => ((hu.same (by rfl)).onWriting _).doneTo _))

theorem execServiceClear (port : Nat) (bits : BitVec 8) : KeepsCanonical (execServiceClear port bits s) :=
  .part (.next (h.asOwner _ fun hu => (hu.same (by rfl)).doneTo _))

end
end Canonical
end Sys2Proof.Machine
end

section
/-! PROOFS. Canonical memories: sensors, links, windows and flits (R317, R360, R367 to R376), and every instruction. -/

namespace Sys2Proof.Machine

/-- What an issue leaves as it was, its frame (R27), takes in every memory. -/
theorem IssueFrame.canonical {t : Nat} {s u : State} (frame : IssueFrame t s u) (h : Canonical s) : Canonical u := by
  obtain ⟨mem, mem2, host, st⟩ := h
  refine ⟨frame.mem ▸ mem, frame.mem2 ▸ mem2, frame.hostMem ▸ host, fun v => ?_⟩
  by_cases own : v = t
  · rw [own, frame.st]
    exact st t
  · rw [frame.others v own]
    exact st v

namespace Canonical

section
variable {s : State} (h : Canonical s)
include h

/-! ### Sensors, failures and links (R371 to R376) -/

theorem computeRead (island : Nat) (reading : Option Int) : Canonical (s.computeRead island reading) := by
  unfold State.computeRead
  extract_lets x base
  split
  · exact h.same rfl
  · extract_lets jump same' stuck bad hot u lit
    have read : Canonical u := h.same rfl
    exact .ite (powerOff _) (.ite (read.reportFault _ _ _ _) (.ite (read.reportFault _ _ _ _) read))

theorem execComputeSensorRead (which : Sensor) (reading : Option Int) : KeepsCanonical (execComputeSensorRead which reading s) := by
  unfold Machine.execComputeSensorRead
  split
  · exact .fault _
  · exact .part (.ite (.next h) (.next (h.computeRead _ _)))
  · refine .part (.ite (.next h) (.next ?_))
    split
    · exact h.same rfl
    · exact h.same rfl

theorem execSecondTierDown (unit : Nat) : KeepsCanonical (execSecondTierDown unit s) :=
  .ite (.next h) (.next ((h.same (by rfl)).reportFault _ _ _ _))

theorem failVault (t : Nat) : Canonical (s.failVault t) := by
  unfold State.failVault
  extract_lets u v req w
  have marked : Canonical v := same ((h.onVault t fun v => { v with failed := true }).reportFault 6 10 0x15 t) rfl
  have noted : Canonical w := .ite (marked.found _ _) marked
  refine .ite h ?_
  split
  · exact noted
  · split
    · exact noted
    · exact .ite (noted.endLaunch _ _ _) ((((noted.keepTile t Tile.discard fun _ => rfl).onLaunch _ _).roleLost _ _).finish _)

theorem execVaultFailure (t : Nat) : KeepsCanonical (execVaultFailure t s) := .part (.ite (.next h) (.next (h.failVault t)))

theorem execRemapCopyLoss (t layer : Nat) (shadow : Bool) : KeepsCanonical (execRemapCopyLoss t layer shadow s) :=
  have lost := fun lose => (h.onVault t lose).reportFault 5 11 layer (t * 4 + layer)
  .part (.ite (.next h) (.next (.ite ((lost _).failVault t) (lost _))))

theorem execIslandClockStretch (island : Nat) : KeepsCanonical (execIslandClockStretch island s) :=
  .part (.ite (.next h) (.next (h.same rfl)))

theorem linkFails (k : Nat) : Canonical (s.linkFails k) := .ite h ((h.same (by rfl)).reportFault _ _ _ _)

theorem execLinkLockLoss (link : Nat) : KeepsCanonical (execLinkLockLoss link s) := .part (.ite (.next h) (.next (h.linkFails _)))

theorem execLinkUpCommand (port link : Nat) : KeepsCanonical (execLinkUpCommand port link s) :=
  .part (.next (h.asOwner _ fun hu => .ite (hu.refuseTo _ _) ((hu.same (by rfl)).doneTo _)))

theorem execLinkRetrainComplete (link : Nat) : KeepsCanonical (execLinkRetrainComplete link s) :=
  .part (.next (.ite (h.same rfl) h))

/-! ### Windows, peers and flits (R257, R317, R360, R367 to R370) -/

theorem outsideWrite (root : Word) (secure : Bool) (va : Nat) (bs : List Byte) : Canonical (s.outsideWrite root secure va bs) := by
  refine .foldl (fun u p hu => ?_) _ h
  split
  · exact hu.writePart _ _ _
  · exact hu

theorem sendFlit (link : Nat) (f : Flit) : Canonical (s.sendFlit link f) := .ite (h.tell _ _) h

theorem toPeer (port rank : Nat) (op : PeerOp) : Canonical (s.toPeer port rank op) := by
  unfold State.toPeer
  split
  · exact .ite (h.sendFlit _ _) (h.refuseTo _ _)
  · exact h.refuseTo _ _

theorem execNodeWindowWrite (port : Nat) (root : Word) (va : Nat) (bytes : List Byte) :
    KeepsCanonical (execNodeWindowWrite port root va bytes s) := by
  refine .part (.next (h.asOwner _ fun hu => ?_))
  split
  · exact hu.toPeer _ _ _
  · split
    · exact .ite (hu.refuseTo _ _) ((hu.writeRaw _ _ _).reportDone _)
    · split
      · exact hu.refuseTo _ _
      · exact (hu.outsideWrite _ _ _ _).reportDone _

theorem execNodeWindowRead (port : Nat) (root : Word) (va n : Nat) : KeepsCanonical (execNodeWindowRead port root va n s) := by
  refine .part (.next (h.asOwner _ fun hu => ?_))
  split
  · exact hu.toPeer _ _ _
  · split
    · exact .ite (hu.refuseTo _ _) (hu.tell _ _)
    · split
      · exact hu.refuseTo _ _
      · exact (hu.tell _ _).nextFree

theorem execApertureOpen (port base : Nat) (root : Word) : KeepsCanonical (execApertureOpen port base root s) :=
  .part (.next (h.asOwner _ fun hu => (hu.same (by rfl)).doneTo _))

theorem peerRefused (code : Nat) : Canonical (s.peerRefused code) := ((h.logIt _ _ _ _).tell _ _).tellOwner _

theorem execPeerAccess (op : PeerOp) : KeepsCanonical (execPeerAccess op s) := by
  refine .ite (.next h) ?_
  split
  · refine .next ?_
    split
    · exact h.peerRefused _
    · exact (h.tell _ _).nextFree
  · refine .next ?_
    split
    · exact h.peerRefused _
    · exact (h.outsideWrite _ _ _ _).tell _ _
  · refine .next ?_
    split
    · exact h.peerRefused _
    · refine .ite (h.peerRefused _) ?_
      split
      · exact h.peerRefused _
      · exact (h.tell _ _).nextFree
  · exact .next (h.peerRefused _)

theorem lineComes (f : Flit) : Canonical (s.lineComes f) := by
  unfold State.lineComes
  split
  · exact h
  · exact same (s := s.fresh.2) h.fresh rfl

theorem answered (u : FlitUse) : Canonical (s.answered u) := by
  unfold State.answered
  split
  · exact h.tellOwner _
  · exact h.tellOwner _
  · exact h.tellOwner _
  · exact h

theorem execMxFlitReceive (link : Nat) (flit : Flit) (ok : Bool) : KeepsCanonical (execMxFlitReceive link flit ok s) := by
  refine .part (.ite (.next h) (.ite (.next (h.linkFails _)) ?_))
  split
  · exact .next (h.lineComes _)
  · split
    · exact .ite (.next h) (h.execBarrierMessage _ _ _ _)
    · exact .next h
  · split
    · exact h.execPeerAccess _
    · exact .next (h.answered _)
  · exact .next (.ite (h.sendFlit _ _) h)
  · exact .next h

/-! ### Every instruction -/

theorem execDecoderTrap (t : Nat) : KeepsCanonical (execDecoderTrap t s) := .part (.next (h.raiseFound t _))

theorem execMmadFaultTrap (t : Nat) : KeepsCanonical (execMmadFaultTrap t s) := .part (.next (h.raiseFound t _))

theorem trapIssued (t : Nat) (r : TrapReq) : Canonical (s.trapIssued t r) := h.takeTrapAt _ _ _ _ _ _ _

theorem runSlot {i : Instr} {eff : Ctx → State → State} (keep : ∀ c, Canonical (eff c s)) : KeepsCanonical (runSlot i s eff) := by
  intro u e
  obtain ⟨-, rfl⟩ | rfl | ⟨r, rfl⟩ := runSlot_cases e
  · exact (keep _).nextFree
  · exact h
  · exact h.refuse _ _

/-- An operation of a slot leaves memory and staging to what it puts in flight; TRAP is taken as the other traps are. -/
theorem exec_of_slot {i : Instr} (slot : (slotFor i).isSome = true) : KeepsCanonical (exec i s) := by
  by_cases trap : ∃ k, i = .trap k
  · obtain ⟨k, rfl⟩ := trap
    change KeepsCanonical (Machine.execTrap k s)
    unfold Machine.execTrap
    exact h.runSlot fun c => (h.onSeq c.t _).trapIssued c.t _
  · obtain ⟨eff, form, frame⟩ := issuesQuietly_of_slot slot fun k e => trap ⟨k, e⟩
    rw [form s]
    exact h.runSlot fun c => (frame c s).canonical h

theorem exec (i : Instr) : KeepsCanonical (exec i s) := by
  by_cases operation : (slotFor i).isSome = true
  · exact h.exec_of_slot operation
  cases i
  case bundleIssue t err => exact h.execBundleIssue t err
  case transferJump t xt xp xn => exact h.execTransferJump t xt xp xn
  case transferCall t xt xp xn => exact h.execTransferCall t xt xp xn
  case loopEnd t lend => exact h.execLoopEnd t lend
  case sync t slev => exact h.execSync t slev
  case syncArrival t => exact h.execSyncArrival t
  case yield t => exact h.execYield t
  case rplan t => exact h.execRplan t
  case lineArrival t what => exact h.execLineArrival t what
  case resultLanding t id => exact h.execResultLanding t id
  case vaultRdLanding t id err => exact h.execVaultRdLanding t id err
  case taskStop t => exact h.execTaskStop t
  case handlerEntry t => exact h.execHandlerEntry t
  case yieldIntervalExpiry t => exact h.execYieldIntervalExpiry t
  case replanIntervalExpiry t => exact h.execReplanIntervalExpiry t
  case waitaComplete t => exact h.execWaitaComplete t
  case waitsComplete t => exact h.execWaitsComplete t
  case fenceComplete t => exact h.execFenceComplete t
  case modeSwitch t => exact h.execModeSwitch t
  case tretResume t => exact h.execTretResume t
  case endExit t => exact h.execEndExit t
  case exitBarrierRelease serial island => exact h.execExitBarrierRelease serial island
  case islandBarrierRelease serial lev group => exact h.execIslandBarrierRelease serial lev group
  case lamplighterReleaseBase serial lev group => exact h.execLamplighterReleaseBase serial lev group
  case lamplighterPhaseSignal serial lev group island => exact h.execLamplighterPhaseSignal serial lev group island
  case memberLostTrap t => exact h.execMemberLostTrap t
  case drfRowDecode t => exact h.execDrfRowDecode t
  case decoderEntryEmit t => exact h.execDecoderEntryEmit t
  case decoderTrap t => exact h.execDecoderTrap t
  case mmadRequestStart t => exact h.execMmadRequestStart t
  case mmadEntryPop t => exact h.execMmadEntryPop t
  case mmadActivationRead t pos => exact h.execMmadActivationRead t pos
  case mmadFaultTrap t => exact h.execMmadFaultTrap t
  case translationWalk t id => exact h.execTranslationWalk t id
  case globalCopyUnitPerform t id unit => exact h.execGlobalCopyUnitPerform t id unit
  case cfeedUnitEntry t id => exact h.execCfeedUnitEntry t id
  case globalFaultTrap t id code => exact h.execGlobalFaultTrap t id code
  case atomicPerform t id => exact h.execAtomicPerform t id
  case vectorAtomicProcess t => exact h.execVectorAtomicProcess t
  case linkLineAccept t chan => exact h.execLinkLineAccept t chan
  case linkLineDelivery seq => exact h.execLinkLineDelivery seq
  case linkSyncIntervalExpiry t => exact h.execLinkSyncIntervalExpiry t
  case linkDeliveryFailure seq => exact h.execLinkDeliveryFailure seq
  case barrierMessage serial lev what rank => exact h.execBarrierMessage serial lev what rank
  case refreshDuePoint t bank => exact h.execRefreshDuePoint t bank
  case sequencerRefresh t bank => exact h.execSequencerRefresh t bank
  case vaultSensorRead t layer reading => exact h.execVaultSensorRead t layer reading
  case sensorFailureReport which => exact h.execSensorFailureReport which
  case classLeadExpiry t layer => exact h.execClassLeadExpiry t layer
  case computeSensorRead which reading => exact h.execComputeSensorRead which reading
  case submission port disp sub => exact h.execSubmission port disp sub
  case noticeDelivery t n => exact h.execNoticeDelivery t n
  case binding serial => exact h.execBinding serial
  case pageMigration entry frame tier => exact h.execPageMigration entry frame tier
  case gangStart serial island => exact h.execGangStart serial island
  case contextSave t => exact h.execContextSave t
  case checkpointPathEntry t => exact h.execCheckpointPathEntry t
  case resume serial island err => exact h.execResume serial island err
  case gangRestart port serial => exact h.execGangRestart port serial
  case holdEnd port serial => exact h.execHoldEnd port serial
  case cancel port serial => exact h.execCancel port serial
  case frameRelease port t => exact h.execFrameRelease port t
  case failedTileReleaseTimeout t => exact h.execFailedTileReleaseTimeout t
  case launchStatusRead port what => exact h.execLaunchStatusRead port what
  case statusAck port serial => exact h.execStatusAck port serial
  case statusRecordExpiry serial => exact h.execStatusRecordExpiry serial
  case imageLoad port handle img => exact h.execImageLoad port handle img
  case paramBlockPatch port handle bytes => exact h.execParamBlockPatch port handle bytes
  case timedTableWrite port disp index entry slot => exact h.execTimedTableWrite port disp index entry slot
  case timedEntryFire disp index => exact h.execTimedEntryFire disp index
  case sessionOpen port num replay => exact h.execSessionOpen port num replay
  case sessionClose port num => exact h.execSessionClose port num
  case wakePattern on record railOk => exact h.execWakePattern on record railOk
  case firmwarePush port fw found => exact h.execFirmwarePush port fw found
  case quoteRequest port nonce => exact h.execQuoteRequest port nonce
  case claim port key sig => exact h.execClaim port key sig
  case handover port key => exact h.execHandover port key
  case lanternMessage port message use => exact h.execLanternMessage port message use
  case tableCacheInvalidate port root lo hi => exact h.execTableCacheInvalidate port root lo hi
  case writerTagClear port lo hi => exact h.execWriterTagClear port lo hi
  case lamplighterWrite port word phases => exact h.execLamplighterWrite port word phases
  case keyLoad port slot wrapped => exact h.execKeyLoad port slot wrapped
  case keyErase port slot => exact h.execKeyErase port slot
  case regionWrite port stack index w0 w1 => exact h.execRegionWrite port stack index w0 w1
  case worldAssign port which secure => exact h.execWorldAssign port which secure
  case routeWrite port routes parent hops => exact h.execRouteWrite port routes parent hops
  case operatingPointRequest port island point => exact h.execOperatingPointRequest port island point
  case voltageStepComplete island => exact h.execVoltageStepComplete island
  case serviceClear port bits => exact h.execServiceClear port bits
  case packageReset port => exact h.execPackageReset port
  case linkUpCommand port link => exact h.execLinkUpCommand port link
  case hostWindowOpen port base size node => exact h.execHostWindowOpen port base size node
  case nodeWindowWrite port root va bytes => exact h.execNodeWindowWrite port root va bytes
  case nodeWindowRead port root va len => exact h.execNodeWindowRead port root va len
  case apertureOpen port base root => exact h.execApertureOpen port base root
  case peerAccess op => exact h.execPeerAccess op
  case ptpMessage port sec ns => exact h.execPtpMessage port sec ns
  case mxFlitReceive link flit crcOk => exact h.execMxFlitReceive link flit crcOk
  case linkLockLoss link => exact h.execLinkLockLoss link
  case lanternLinkLoss port => exact h.execLanternLinkLoss port
  case secondTierDown unit => exact h.execSecondTierDown unit
  case remapCopyLoss t layer shadow => exact h.execRemapCopyLoss t layer shadow
  case vaultFailure t => exact h.execVaultFailure t
  case islandClockStretch island => exact h.execIslandClockStretch island
  case lanternLinkReturn port => exact h.execLanternLinkReturn port
  case linkRetrainComplete link => exact h.execLinkRetrainComplete link
  case arbitration => exact h.execArbitration
  case lightRemovalTimeout => exact h.execLightRemovalTimeout
  case handoverTimeout => exact h.execHandoverTimeout
  case ownerLinkLossTimeout => exact h.execOwnerLinkLossTimeout
  all_goals exact absurd rfl operation

end
end Canonical
end Sys2Proof.Machine
end

section
/-! PROOFS. Canonical memories: the cycle and the step (R27, R42 to R45, R152, R156; log entry 4). -/

namespace Sys2Proof.Machine

theorem Tile.overdue_st (x : Tile) (now : Nat) : (x.overdue now).st = x.st := by
  unfold Tile.overdue
  split <;> rfl

theorem Tile.leaveDrain_st (x : Tile) : x.leaveDrain.st = x.st := by
  unfold Tile.leaveDrain
  extract_lets point
  split <;> rfl

theorem Tile.ceased_st (x : Tile) : x.ceased.st = x.st := by
  unfold Tile.ceased
  split <;> rfl

namespace Canonical

section
variable {s : State} (h : Canonical s)
include h

/-! ### The end of a cycle (R27, R275, R304) -/

theorem stageWrite (src : Nat) (w : StWrite) : Canonical (s.stageWrite src w) := by
  unfold State.stageWrite
  extract_lets now who u
  have staged : Canonical u := by
    refine h.onTile _ fun x wf => ?_
    split
    · obtain ⟨_, e⟩ := Tile.markLines_same { x with st := writeBytes x.st w.addr w.bytes } now w.addr w.bytes.length who
      rw [e]
      exact wf_writeBytes wf _ _
    · exact Tile.stageBy_wf wf _ _ _ _
  split
  · exact staged.same rfl
  · exact staged

theorem ownWrites (t : Nat) : Canonical (s.ownWrites t) :=
  .foldl (fun _ w hs => hs.stageWrite t w) _ (.foldl (fun _ _ hs => .ite (hs.keepTile t _ fun _ => by rfl) hs) _ h)

theorem farWrites (t : Nat) : Canonical (s.farWrites t) := .foldl (fun _ w hs => hs.stageWrite t w) _ h

theorem landLines (ts : List Nat) : Canonical (s.landLines ts) := .foldl (fun _ e hs => hs.landLine e) _ (h.same rfl)

theorem countInto (e : CountUnit) : Canonical (s.countInto e) := by
  unfold State.countInto
  extract_lets a st target count gen hit u v
  have noted : Canonical u := h.same rfl
  have counted : Canonical v := noted.onTile _ fun x wf => Tile.stageBy_wf wf _ _ _ _
  exact .ite counted (counted.keepTile _ _ fun _ => rfl)

theorem countAll (ts : List Nat) : Canonical (s.countAll ts) := .foldl (fun _ e hs => hs.countInto e) _ (h.same rfl)

theorem deficitFault (t : Nat) : Canonical (s.deficitFault t) := by
  unfold State.deficitFault
  extract_lets x q
  split
  · exact h
  · refine keepTile (.ite ?_ (.ite (h.takeTrap _ _ _ _ _ _) (h.trapNext _ _))) t Tile.stopBanks fun _ => rfl
    have left := h.left t
    exact .ite (left.takeTrapAt _ _ _ _ _ _ _) (.ite (left.takeTrapAt _ _ _ _ _ _ _) (left.takeTrapAt _ _ _ _ _ _ _))

theorem endCycle (ts : List Nat) : Canonical (s.endCycle ts) := by
  unfold State.endCycle
  extract_lets own far cleared
  have owned : Canonical own := .foldl (fun _ _ hs => hs.ownWrites _) ts h
  have landed : Canonical far := (foldl (fun _ _ hs => hs.farWrites _) ts owned).landLines ts
  have clear : Canonical cleared := .foldl (fun _ _ hs => hs.keepTile _ _ fun _ => by rfl) ts landed
  exact .foldl (fun _ _ hs => hs.deficitFault _) ts (clear.countAll ts)

theorem advanceIslands : Canonical s.advanceIslands := h.same rfl

theorem advancePtp : Canonical s.advancePtp :=
  have moved : Canonical { s with ptpNs := s.ptpNs + (s.ptpFrac + 4) / 7, ptpFrac := (s.ptpFrac + 4) % 7 } := h.same rfl
  .ite moved (.ite (moved.same rfl) (moved.same rfl))

theorem advanceService : Canonical s.advanceService := h.same rfl

/-! ### The beginning of a cycle (R27, R42, R152, R156, R174) -/

theorem readsGens (r : StRead) : Canonical (s.readsGens r) :=
  .foldl (fun _ _ hs => .ite (hs.seesGen _ _ _ _) hs) _ h

theorem deliver (t : Nat) (r : StRead) : Canonical (s.deliver t r) := by
  unfold State.deliver
  extract_lets u bytes n
  have read : Canonical u := h.readsGens r
  split
  · exact read.onSeq t _
  · exact read.keepTile t _ fun _ => rfl
  · exact read.keepTile t _ fun _ => rfl
  · exact read.keepTile t _ fun _ => rfl
  · exact read.keepTile t _ fun _ => rfl
  · exact read.onSeq t _
  · exact .ite (read.keepTile t _ fun _ => rfl) (read.keepTile t _ fun _ => rfl)
  · exact read.keepTile t _ fun _ => rfl
  · extract_lets a
    obtain ⟨mem, mem2, host, st⟩ := read
    have written : Canonical { u with mem := writeBytes u.mem a bytes } := ⟨wf_writeBytes mem _ _, mem2, host, st⟩
    exact written.rawLines _ _

theorem readStaging (t : Nat) : Canonical (s.readStaging t) :=
  (foldl (fun _ r hs => hs.deliver t r) _ h).onSeq t _

theorem landDue (t : Nat) : Canonical (s.landDue t) :=
  .foldl (fun _ _ hs => .ite (hs.landFlight t _) hs) _ (h.keepTile t _ fun x => x.overdue_st _)

theorem runAfter (t n : Nat) : Canonical (s.runAfter t n) := by
  induction n generalizing s with
  | zero => exact h
  | succ n ih =>
    unfold State.runAfter
    split
    · exact h
    · rename_i i _ _
      split
      · rename_i u step
        have next := h.exec i u step
        exact .ite next (ih next)
      · exact h

theorem raiseFaults (t : Nat) : Canonical (s.raiseFaults t) :=
  .ite h ((((h.keepTile t Tile.leaveDrain Tile.leaveDrain_st).runAfter t 4).raiseFound t _).onSeq t _)

theorem halt (t : Nat) : Canonical (s.halt t) := by
  unfold State.halt
  split
  · exact .ite h ((h.haltTile t _).onSeq t _)
  · exact h

theorem suspendWait (t : Nat) : Canonical (s.suspendWait t) := by
  unfold State.suspendWait
  extract_lets x
  refine .ite h ?_
  split
  · exact h.suspendAt _ _
  · exact h.suspendAt _ _
  · exact h

theorem refreshDues (t : Nat) : Canonical (s.refreshDues t) := by
  refine .foldl (fun u b hu => ?_) _ h
  split
  · rename_i v e
    exact hu.execRefreshDuePoint t b v e
  · exact hu

theorem beginCycle (t : Nat) : Canonical (s.beginCycle t) :=
  have begun := (h.showNotices t).keepTile t Tile.takeEffect fun x => x.takeEffect_keeps.2.2
  have landed := (((begun.readStaging t).landDue t).settle t).settleDrain t
  ((landed.suspendWait t).raiseFaults t).reactivate t

theorem refreshBanks (t : Nat) : Canonical (s.refreshBanks t) := by
  refine .ite h (.foldl (fun u b hu => ?_) _ h)
  split
  · rename_i v e
    exact hu.execSequencerRefresh t b v e
  · exact hu

theorem tick : Canonical s.tick := by
  unfold State.tick
  extract_lets ms s1 s2 ts s3 s4 s5
  have ended : Canonical s1 :=
    ((foldl (fun _ _ hs => hs.refreshBanks _) ms h).endCycle ms).advanceIslands
  have advanced : Canonical s2 := (same (u := { s1 with pcc := s1.pcc + 1 }) ended rfl).advancePtp.advanceService
  have due : Canonical s3 := .foldl (fun _ _ hs => hs.refreshDues _) _ advanced
  have begun : Canonical s4 := .foldl (fun _ _ hs => hs.beginCycle _) ts (.foldl (fun _ _ hs => hs.halt _) ts due)
  have reset : Canonical s5 := (foldl (fun _ _ hs => hs.concludes _) _ begun).resets
  exact reset.same rfl

/-! ### A tile's turn and the step (R42 to R45; log entry 4) -/

theorem runOps (t addr : Nat) (ops : List (Nat × Nat × Instr)) : KeepsCanonical (runOps t addr ops s) := by
  induction ops generalizing s with
  | nil => exact .next h
  | cons op r ih =>
    have issued := (h.focusOn t op.1 op.2.1 addr true).exec op.2.2
    unfold Machine.runOps
    split
    · rename_i u e
      exact ih (issued u e)
    · exact issued

theorem drainOut : KeepsCanonical s.drainOut := by
  unfold State.drainOut
  extract_lets ops
  have issued := runOps (s := { s with out := [] }) (h.same rfl) s.focus.tile s.focus.addr
    (ops.filter (!isTrap ·.2.2) ++ ops.filter (isTrap ·.2.2))
  split
  · rename_i u e
    exact .next ((issued u e).same rfl)
  · exact issued

theorem afterIssue (t : Nat) : Canonical (s.afterIssue t) :=
  (((h.keepTile t Tile.ceased Tile.ceased_st).closeBundle t).runAfter t 4).closeBundle t

theorem tileTurn (t : Nat) : KeepsCanonical (s.tileTurn t) := by
  have issued := (h.afterIssue t).exec (.bundleIssue t .clean)
  unfold State.tileTurn
  extract_lets u
  split
  · rename_i v e
    have drained := (issued v e).drainOut
    split
    · rename_i w e'
      exact .next ((drained w e').afterIssue t)
    · exact drained
  · exact issued

theorem event (i : Instr) : KeepsCanonical (s.event i) := by
  refine .ite (.next h) ?_
  split
  · rename_i u e
    exact (h.exec i u e).drainOut
  · exact h.exec i

theorem nextEvent : KeepsCanonical s.nextEvent := by
  unfold State.nextEvent
  split
  · exact (h.same (by rfl)).event _
  · exact .next h

theorem nextCycle : Canonical s.nextCycle := .ite h h.tick

theorem runDue (d : Due) : KeepsCanonical (runDue d s) := by
  unfold Machine.runDue
  split
  · exact h.execResultLanding _ _
  · exact h.execVaultRdLanding _ _ _
  · exact h.execTaskStop _
  · exact h.execHandlerEntry _
  · exact h.execYieldIntervalExpiry _
  · exact h.execReplanIntervalExpiry _
  · exact h.execWaitaComplete _
  · exact h.execWaitsComplete _
  · exact h.execFenceComplete _
  · exact h.execModeSwitch _
  · exact h.execTretResume _
  · exact h.execEndExit _
  · exact h.execExitBarrierRelease _ _
  · exact h.execSyncArrival _
  · exact h.execIslandBarrierRelease _ _ _
  · exact h.execLamplighterReleaseBase _ _ _
  · exact h.execLamplighterPhaseSignal _ _ _ _
  · exact h.execMemberLostTrap _
  · exact h.execLineArrival _ _
  · exact h.execDrfRowDecode _
  · exact h.execDecoderEntryEmit _
  · exact h.execDecoderTrap _
  · exact h.execMmadRequestStart _
  · exact h.execMmadEntryPop _
  · exact h.execMmadFaultTrap _
  · exact h.execTranslationWalk _ _
  · exact h.execGlobalCopyUnitPerform _ _ _
  · exact h.execCfeedUnitEntry _ _
  · exact h.execGlobalFaultTrap _ _ _
  · exact h.execAtomicPerform _ _
  · exact h.execVectorAtomicProcess _
  · exact h.execLinkLineAccept _ _
  · exact h.execLinkLineDelivery _
  · exact h.execLinkSyncIntervalExpiry _
  · exact h.execLinkDeliveryFailure _
  · exact h.execRefreshDuePoint _ _
  · exact h.execClassLeadExpiry _ _
  · exact h.execArbitration
  · exact h.execBinding _
  · exact h.execGangStart _ _
  · exact h.execContextSave _
  · exact h.execCheckpointPathEntry _
  · exact h.execResume _ _ _
  · exact h.execFailedTileReleaseTimeout _
  · exact h.execStatusRecordExpiry _
  · exact h.execTimedEntryFire _ _
  · exact h.execHandoverTimeout
  · exact h.execOwnerLinkLossTimeout
  · exact h.execVoltageStepComplete _
  · exact h.execLinkRetrainComplete _
  · exact h.execBarrierMessage _ _ _ _
  · exact h.execSensorFailureReport _
  · exact h.execNoticeDelivery _ _
  · exact h.execLightRemovalTimeout

theorem step : KeepsCanonical (step s) := by
  unfold Machine.step
  split
  · exact (h.same (by rfl)).runDue _
  · refine .ite h.nextEvent ?_
    split
    · exact (h.same (by rfl)).tileTurn _
    · exact .next h.nextCycle

end
end Canonical

/-- Settles O52: every operation that changes a tile or a memory keeps it canonical, and each instruction, each due event and each
cycle is made of them. -/
theorem canonicalMemoryKept : Obligations.CanonicalMemoryKept := by
  unfold Obligations.CanonicalMemoryKept
  exact ⟨fun s u h e => h.step u e, fun i s u h e => h.exec i u e⟩

end Sys2Proof.Machine
end

section
/-! PROOFS. The D slot's commands and the columns that they move (R158, R161, R162, R167 to R170; log entry 56). -/

namespace Sys2Proof.Machine

/-! ### Banks and activations of a vault -/

@[simp] theorem Vault.bank_onBank_self (v : Vault) {b : Nat} (h : b < 32) (f : Bank → Bank) :
    vget { } (v.onBank b f).banks b = f (vget { } v.banks b) := vget_vset_self _ _ _ h

theorem Vault.bank_onBank_of_ne (v : Vault) {b c : Nat} (h : c ≠ b) (f : Bank → Bank) :
    vget { } (v.onBank b f).banks c = vget { } v.banks c := vget_vset_of_ne _ _ _ h

@[simp] theorem Vault.pushActivation_banks (v : Vault) (now b : Nat) : (v.pushActivation now b).banks = v.banks := rfl

/-- An activation is the channel's most recent (R162). -/
theorem Vault.pushActivation_newest (v : Vault) (now b : Nat) :
    vget (0, 0) (v.pushActivation now b).chan.acts 0 = ((now : Int), b) := rfl

theorem Vault.refresh_banks (v : Vault) (now b : Nat) :
    (v.refresh now b).banks = (v.onBank b fun k => { k with rptr := k.rptr + 1, owed := k.owed - 1, ref := now }).banks := rfl

/-- What a REFPB does to its bank (R170). -/
theorem Vault.bank_refresh_self (v : Vault) (now : Nat) {b : Nat} (h : b < 32) : vget { } (v.refresh now b).banks b =
    { vget { } v.banks b with rptr := (vget { } v.banks b).rptr + 1, owed := (vget { } v.banks b).owed - 1, ref := now } := by
  rw [v.refresh_banks, v.bank_onBank_self h]

/-! ### Columns read and written (R168) -/

theorem State.readColumn_reads (c : Ctx) (s : State) (f : DC) :
    let b := f.bank.toNat
    let row := (vget { } (s.tile c.t).vault.banks b).row.toNat
    ((s.readColumn c f).tile c.t).vault.reads = (s.tile c.t).vault.reads ++
      [{ id := s.nextId, cycle := c.now + 28, bank := b, row := row, col := columnOf f c.index
         addr := (s.gen c f.g).2.toNat, bytes := s.columnBytes (columnAddr c.t b row (columnOf f c.index)) }] := by
  simp only [State.readColumn, State.tile_onTile_self, State.tile_fresh]
  rfl

theorem State.writeColumn_stReads (c : Ctx) (s : State) (f : DC) :
    ((s.writeColumn c f).tile c.t).seq.stReads = (s.tile c.t).seq.stReads ++
      [{ cycle := c.now + 2, tile := c.t, slot := 6, addr := (s.gen c f.g).2.toNat, len := 64
         use := .column f.bank.toNat (vget { } (s.tile c.t).vault.banks f.bank.toNat).row.toNat (columnOf f c.index)
         issue := c.now }] := by
  simp only [State.writeColumn, State.tile_onTile_self]

/-- The read of staging for a WR writes its bytes to the column, in the vault memory alone. -/
theorem State.deliver_column {t : Nat} {r : StRead} {b row col : Nat} (use : r.use = .column b row col) (s : State) :
    let u := s.deliver t r
    u.mem = writeBytes s.mem (columnAddr t b row col) (readBytes (s.tile r.tile).st r.addr r.len) ∧
    u.mem2 = s.mem2 ∧ u.hostMem = s.hostMem ∧ u.tiles = s.tiles := by
  obtain ⟨os, same⟩ := s.readsGens_same r
  unfold State.deliver
  simp only [same, use]
  exact ⟨rfl, rfl, rfl, rfl⟩

/-- Settles O21: each command's arm runs its effect, and the lemmas above say what the effect leaves in the bank, the channel and
staging. -/
theorem vaultResults : Obligations.VaultResults := by
  unfold Obligations.VaultResults
  refine ⟨?act, ?rd, ?wr, fun c s f => s.readColumn_reads c f, fun c s f => s.writeColumn_stReads c f, ?pre, ?prea, ?refpb,
    ?refresh, fun t r b row col s use => s.deliver_column use⟩
  case act => exact fun _ => issuesAs_of_runSlot fun _ => rfl
  case rd => exact fun _ => issuesAs_of_runSlot fun _ => rfl
  case wr => exact fun _ => issuesAs_of_runSlot fun _ => rfl
  case pre => exact fun _ => issuesAs_of_runSlot fun _ => rfl
  case prea => exact issuesAs_of_runSlot fun _ => rfl
  case refpb => exact fun _ => issuesAs_of_runSlot fun _ => rfl
  case refresh =>
    intro v now b part k
    have bank : k = _ := v.bank_refresh_self now part
    exact ⟨by rw [bank], by rw [bank], by rw [bank], rfl⟩

end Sys2Proof.Machine
end

section
/-! PROOFS. Refresh, temperature classes and the sensors of a vault (R174 to R180; log entries 45, 65 and 91). -/

namespace Sys2Proof.Machine

/-! ### The refresh of banks (R174 to R176) -/

section
variable {t b : Nat} {s : State} (part : t < Config.tiles) (bank : b < 31)
include part bank

theorem exec_refreshDuePoint (due : s.isDue t b = true) (kept : (s.tile t).owns b = true ∨ (s.tile t).keeps b = true) :
    exec (.refreshDuePoint t b) s = .next (s.onVault t fun v =>
      let v := v.onBank b fun k => { k with owed := k.owed + 1 }
      if (vget { } (s.tile t).vault.banks b).owed + 1 ≥ 9 && (s.tile t).owns b && !(s.tile t).vault.keeper then
        { v with deficit := v.deficit ++ [b] } else v) := by
  change execRefreshDuePoint t b s = _
  rw [← Bool.or_eq_true] at kept
  simp [execRefreshDuePoint, Nat.not_le.2 part, Nat.not_le.2 bank, due, kept]

section
variable (keeps : (s.tile t).keeps b = true) (turn : s.turnAhead t = false) (channel : (s.tile t).channelBusy (s.icc t) = false)
include keeps turn channel

theorem exec_sequencerRefresh_open (opened : (vget { } (s.tile t).vault.banks b).opened = true)
    (admits : ∀ e ∈ constraints (s.tile t).vault (s.icc t) .pre b, e.need ≤ e.age) :
    exec (.sequencerRefresh t b) s = .next (s.onVault t fun v => v.close (s.icc t) b) := by
  change execSequencerRefresh t b s = _
  have ok := List.all_eq_true.2 fun e he => decide_eq_true (admits e he)
  simp only [execSequencerRefresh, keeps, turn, channel, opened, ok]
  simp [Nat.not_le.2 part, Nat.not_le.2 bank]

theorem exec_sequencerRefresh_closed (closed : (vget { } (s.tile t).vault.banks b).opened = false)
    (owed : -8 < (vget { } (s.tile t).vault.banks b).owed)
    (admits : ∀ e ∈ constraints (s.tile t).vault (s.icc t) .refpb b, e.need ≤ e.age) :
    exec (.sequencerRefresh t b) s = .next (s.onVault t fun v => v.refresh (s.icc t) b) := by
  change execSequencerRefresh t b s = _
  have ok := List.all_eq_true.2 fun e he => decide_eq_true (admits e he)
  simp only [execSequencerRefresh, keeps, turn, channel, closed, ok, owed]
  simp [Nat.not_le.2 part, Nat.not_le.2 bank]

end
end

theorem Vault.bank_close_opened (v : Vault) (now : Nat) {b : Nat} (h : b < 32) (opened : (vget { } v.banks b).opened = true) :
    vget { } (v.close now b).banks b = { vget { } v.banks b with opened := false, pre := now } := by
  rw [Vault.close, if_pos opened, v.bank_onBank_self h]

/-! ### A layer and its class (R178, R179) -/

@[simp] theorem State.layer_onLayer (d : Layer) (s : State) (t : Nat) {n : Nat} (h : n < 4) (f : Layer → Layer) :
    vget d ((s.onLayer t n f).tile t).vault.layers n = f (vget { } (s.tile t).vault.layers n) := by
  rw [State.onLayer, State.tile_onTile_self]
  exact vget_vset_self _ _ _ h

@[simp] theorem State.onLayer_svc (s : State) (t n : Nat) (f : Layer → Layer) : (s.onLayer t n f).svc = s.svc := rfl

/-- An announcement changes the announced class, what is ahead of it and the applied class alone. -/
theorem Layer.announce_same (l : Layer) (p : BitVec 2) (lcc : Nat) (owned : Bool) :
    ∃ leads app, l.announce p lcc owned = { l with pend := p, leads := leads, app := app } := by
  unfold Layer.announce
  split
  · exact ⟨_, _, rfl⟩
  · split
    · exact ⟨_, _, rfl⟩
    · have same : l.pend = p := BitVec.eq_of_toNat_eq (by omega)
      exact ⟨_, _, by rw [← same]⟩

theorem classOf_hot {c : BitVec 2} {r : Int} (known : c.toNat ≤ 2) (hot : 360 ≤ r) : classOf c r = 2 := by
  simp [classOf, hot, known]

theorem classOf_cool {c : BitVec 2} {r : Int} (cool : r < 308) : classOf c r = 0 := by
  have below320 : ¬ (320 ≤ r) := by omega
  have below360 : ¬ (360 ≤ r) := by omega
  by_cases zero : c.toNat = 0
  · simp [classOf, below320, below360, zero]
  · simp [classOf, cool, below320, below360, zero, Nat.pos_of_ne_zero zero]

/-! ### The readings of a layer's sensor (R178, R180) -/

theorem stuckAt_iff {still : Nat} {a b : Option Int} : stuckAt still a b = true ↔
    175000000 ≤ still ∧ ∃ x y, a = some x ∧ b = some y ∧ 16 ≤ (y - x).natAbs := by
  cases a with
  | none => simp [stuckAt]
  | some x =>
    cases b with
    | none => simp [stuckAt]
    | some y => simp [stuckAt]

/-- Whether a reading meets a criterion of a failed sensor, beside a compute-die reading and on a cycle of the layer's counter:
out of range, too far from the one before, or stuck (R180). -/
def Layer.doubts (l : Layer) (r : Int) (now : Nat) (comp : Option Int) : Bool :=
  r < -80 || 520 < r || (match l.reading with | some o => decide (8 < (r - o).natAbs) | none => false) ||
    (l.reading == some r && stuckAt (now - l.stillSince) l.compute comp)

theorem Layer.doubts_eq_false_iff {l : Layer} {r : Int} {now : Nat} {comp : Option Int} : l.doubts r now comp = false ↔
    -80 ≤ r ∧ r ≤ 520 ∧ (∀ o, l.reading = some o → (r - o).natAbs ≤ 8) ∧
      ¬ (l.reading = some r ∧ stuckAt (now - l.stillSince) l.compute comp = true) := by
  unfold Layer.doubts
  cases l.reading <;> simp [and_assoc]

/-- A layer with a reading noted. -/
def Layer.noted (l : Layer) (r : Int) (now : Nat) (comp : Option Int) : Layer :=
  { l with reading := some r, readAt := now, stillSince := if l.reading == some r then l.stillSince else now
           compute := if l.reading == some r then l.compute.or comp else comp, suspect := l.suspect || l.doubts r now comp }

/-- A layer after a reading: one that meets a criterion moves neither the class nor the warning (R178, R180). -/
def Layer.took (l : Layer) (r : Int) (now : Nat) (comp : Option Int) (owned : Bool) : Layer :=
  if l.doubts r now comp then l.noted r now comp
  else { (l.noted r now comp).announce (classOf l.pend r) now owned with warn := warnOf r }

section
variable {t n : Nat} {s : State} (part : t < Config.tiles) (layer : n < 4)
include part layer

/-- The model's guard for a layer of a tile lets one through that the package has. -/
theorem layer_exists : ¬ (decide (t ≥ Config.tiles) || decide (4 ≤ n)) = true := by
  simp [Nat.not_le.2 part, Nat.not_le.2 layer]

theorem exec_vaultSensorRead_failed (failed : (vget { } (s.tile t).vault.layers n).sfail = true) (r : Option Int) :
    exec (.vaultSensorRead t n r) s = .next s := by
  change execVaultSensorRead t n r s = _
  rw [execVaultSensorRead, if_neg (layer_exists part layer)]
  exact if_pos failed

section
variable (sound : (vget { } (s.tile t).vault.layers n).sfail = false)
include sound

theorem exec_vaultSensorRead_none : exec (.vaultSensorRead t n none) s = .next (s.onLayer t n fun l =>
    { l with suspect := l.suspect || 175000 ≤ s.lcc t (1 + n) - (vget { } (s.tile t).vault.layers n).readAt }) := by
  change execVaultSensorRead t n none s = _
  rw [execVaultSensorRead, if_neg (layer_exists part layer)]
  exact if_neg (by rw [sound]; decide)

theorem exec_vaultSensorRead_some (r : Int) : exec (.vaultSensorRead t n (some r)) s = .next (
    let l := vget { } (s.tile t).vault.layers n
    let u := s.onLayer t n fun _ => l.took r (s.lcc t (1 + n)) (s.island (t / 16)).reading ((s.tile t).ownsLayer n)
    if 400 ≤ r && !l.doubts r (s.lcc t (1 + n)) (s.island (t / 16)).reading then u.reportFault 0 2 100 (t * 4 + n) else u) := by
  change execVaultSensorRead t n (some r) s = _
  rw [execVaultSensorRead, if_neg (layer_exists part layer)]
  exact if_neg (by rw [sound]; decide)

end

/-- A failed sensor met a criterion: it is reported with the layer announced H (R178, R180). -/
theorem exec_sensorFailureReport_layer (suspect : (vget { } (s.tile t).vault.layers n).suspect = true)
    (unreported : (vget { } (s.tile t).vault.layers n).sfail = false) :
    exec (.sensorFailureReport (.layer t n)) s = .next (s.failLayerSensor t n) := by
  change execSensorFailureReport (.layer t n) s = _
  rw [execSensorFailureReport, if_neg (layer_exists part layer)]
  exact if_pos (by rw [suspect, unreported]; rfl)

theorem exec_classLeadExpiry : exec (.classLeadExpiry t n) s = .next (s.onVault t fun v =>
    let l := vget { } v.layers n
    let due := l.leads.filter fun e => e.1 ≤ s.lcc t (1 + n)
    { v with layers := vset v.layers n { l with
      app := due.foldl (fun a e => if a.toNat < e.2.toNat then e.2 else a) l.app
      leads := l.leads.filter fun e => s.lcc t (1 + n) < e.1 } }) := by
  change execClassLeadExpiry t n s = _
  rw [execClassLeadExpiry, if_neg (layer_exists part layer)]

end

theorem exec_sensorFailureReport_compute {i : Nat} {s : State} (part : i < Config.islands)
    (suspect : (s.island i).suspect = true) (unreported : (s.island i).failed = false) :
    exec (.sensorFailureReport (.compute i)) s = .next (s.failComputeSensor i) := by
  change execSensorFailureReport (.compute i) s = _
  simp [execSensorFailureReport, Nat.not_le.2 part, suspect, unreported]

@[simp] theorem State.reportFault_island (s : State) (a b c d i : Nat) : (s.reportFault a b c d).island i = s.island i := by
  obtain ⟨_, _, _, _, e⟩ := s.reportFault_same a b c d
  rw [e]
  rfl

theorem State.layer_failLayerSensor (s : State) (t : Nat) {n : Nat} (h : n < 4) :
    ∃ app leads, vget { } ((s.failLayerSensor t n).tile t).vault.layers n = { vget { } (s.tile t).vault.layers n with
      app := app, leads := leads, pend := 2, sfail := true, suspect := false } := by
  obtain ⟨leads, app, same⟩ := (vget { } (s.tile t).vault.layers n).announce_same 2 (s.lcc t (1 + n)) ((s.tile t).ownsLayer n)
  refine ⟨app, leads, ?_⟩
  simp only [State.failLayerSensor, State.reportFault_tile, State.onSys_eq, State.tile_onTile_self, State.layer_onLayer _ _ _ h, same]

theorem State.failLayerSensor_sys (s : State) (t n : Nat) : ((s.failLayerSensor t n).tile t).sys.sfail = true := by
  simp only [State.failLayerSensor, State.reportFault_tile, State.onSys_eq, State.tile_onTile_self]

@[simp] theorem State.failLayerSensor_svc (s : State) (t n : Nat) :
    (s.failLayerSensor t n).svc = s.svc ||| BitVec.twoPow 8 4 := State.reportFault_svc ..

/-! ### What readings leave -/

theorem Layer.took_of_doubts {l : Layer} {r : Int} {now : Nat} {comp : Option Int} (bad : l.doubts r now comp = true) (owned : Bool) :
    let l' := l.took r now comp owned
    l'.reading = some r ∧ l'.suspect = true ∧ l'.warn = l.warn ∧ l'.pend = l.pend := by
  intro l'
  have took : l' = l.noted r now comp := if_pos bad
  rw [took]
  exact ⟨rfl, by rw [Layer.noted, bad, Bool.or_true], rfl, rfl⟩

theorem Layer.took_of_valid {l : Layer} {r : Int} {now : Nat} {comp : Option Int} (valid : l.doubts r now comp = false) (owned : Bool) :
    let l' := l.took r now comp owned
    l'.reading = some r ∧ l'.warn = warnOf r ∧ l'.pend = classOf l.pend r ∧ l'.suspect = l.suspect := by
  intro l'
  obtain ⟨leads, app, same⟩ := (l.noted r now comp).announce_same (classOf l.pend r) now owned
  have took : l' = { (l.noted r now comp).announce (classOf l.pend r) now owned with warn := warnOf r } :=
    if_neg (by rw [valid]; decide)
  rw [took, same]
  exact ⟨rfl, rfl, rfl, by rw [Layer.noted, valid, Bool.or_false]⟩

/-- A reading changes its layer, and one of 100 °C or more that meets no criterion is reported (R178). -/
theorem vaultSensorRead_some {t n : Nat} {s : State} (part : t < Config.tiles) (layer : n < 4)
    (sound : (vget { } (s.tile t).vault.layers n).sfail = false) (r : Int) :
    Completes (.vaultSensorRead t n (some r)) s fun u =>
      let l := vget { } (s.tile t).vault.layers n
      let comp := (s.island (t / 16)).reading
      vget { } (u.tile t).vault.layers n = l.took r (s.lcc t (1 + n)) comp ((s.tile t).ownsLayer n) ∧
      u.svc = if 400 ≤ r && !l.doubts r (s.lcc t (1 + n)) comp then s.svc ||| BitVec.twoPow 8 0 else s.svc := by
  refine ⟨_, exec_vaultSensorRead_some part layer sound r, ?_⟩
  dsimp only
  split <;> simp only [State.reportFault_tile, State.layer_onLayer _ _ _ layer, State.reportFault_svc, State.onLayer_svc, true_and, *]

/-! ### What due points and expiries leave -/

theorem refreshDuePoint_counts {t b : Nat} {s : State} (part : t < Config.tiles) (bank : b < 31) (due : s.isDue t b = true)
    (kept : (s.tile t).owns b = true ∨ (s.tile t).keeps b = true) :
    Completes (.refreshDuePoint t b) s fun u =>
      (vget { } (u.tile t).vault.banks b).owed = (vget { } (s.tile t).vault.banks b).owed + 1 ∧
      (∀ c, c ≠ b → vget { } (u.tile t).vault.banks c = vget { } (s.tile t).vault.banks c) ∧
      (u.tile t).vault.deficit = (if (vget { } (s.tile t).vault.banks b).owed + 1 ≥ 9 ∧ (s.tile t).owns b = true ∧
        (s.tile t).vault.keeper = false then (s.tile t).vault.deficit ++ [b] else (s.tile t).vault.deficit) ∧
      (u.tile t).regs = (s.tile t).regs ∧ u.mem = s.mem := by
  refine ⟨_, exec_refreshDuePoint part bank due kept, ?_⟩
  have inBank : b < 32 := by omega
  simp only [State.onVault_eq, State.tile_onTile_self, State.onTile_mem, and_self, and_true]
  refine ⟨?owed, ?others, ?deficit⟩
  case owed => split <;> simp only [Vault.bank_onBank_self _ inBank]
  case others => intro c other; split <;> simp only [Vault.bank_onBank_of_ne _ other]
  case deficit =>
    by_cases beyond : (vget { } (s.tile t).vault.banks b).owed + 1 ≥ 9 ∧ (s.tile t).owns b = true ∧ (s.tile t).vault.keeper = false
    · rw [if_pos beyond, if_pos (by simpa [and_assoc] using beyond)]
      rfl
    · rw [if_neg beyond, if_neg (by simpa [and_assoc] using beyond)]
      rfl

theorem classLeadExpiry_applies {t n c : Nat} {p : BitVec 2} {s : State} (part : t < Config.tiles) (layer : n < 4)
    (leads : (vget { } (s.tile t).vault.layers n).leads = [(c, p)])
    (rises : (vget { } (s.tile t).vault.layers n).app.toNat < p.toNat) (due : c ≤ s.lcc t (1 + n)) :
    Completes (.classLeadExpiry t n) s fun u => (vget { } (u.tile t).vault.layers n).app = p ∧
      (vget { } (u.tile t).vault.layers n).leads = [] ∧ (u.tile t).regs = (s.tile t).regs := by
  refine ⟨_, exec_classLeadExpiry part layer, ?_⟩
  simp only [State.onVault_eq, State.tile_onTile_self, vget_vset_self _ _ _ layer, leads, and_true]
  constructor
  · rw [List.filter_cons_of_pos (by simpa using due)]
    exact if_pos rises
  · rw [List.filter_cons_of_neg (by simpa using due), List.filter_nil]

/-- Settles O41: each event's arm in the case at hand, and what the effect leaves of the bank or the layer. -/
theorem vaultUpkeepSteps : Obligations.VaultUpkeepSteps := by
  unfold Obligations.VaultUpkeepSteps
  refine ⟨fun t b s => refreshDuePoint_counts, ?sequencer, ?reading, fun t n r s part layer failed =>
    exec_vaultSensorRead_failed part layer failed r, fun _ _ _ => stuckAt_iff, ?layerFails, ?computeFails,
    fun t n c p s => classLeadExpiry_applies, ?classes⟩
  case sequencer =>
    intro t b s part bank keeps turn channel
    have inBank : b < 32 := by omega
    constructor
    · rintro ⟨opened, admits⟩
      refine ⟨_, exec_sequencerRefresh_open part bank keeps turn channel opened admits, ?_, rfl⟩
      rw [State.onVault_eq, State.tile_onTile_self, Vault.bank_close_opened _ _ inBank opened]
    · rintro ⟨closed, owed, admits⟩
      refine ⟨_, exec_sequencerRefresh_closed part bank keeps turn channel closed owed admits, ?_⟩
      simp only [State.onVault_eq, State.tile_onTile_self, Vault.bank_refresh_self _ _ inBank, State.onTile_mem, and_self]
  case reading =>
    intro t n r s part layer sound l valid
    obtain ⟨u, ran, read, svc⟩ := vaultSensorRead_some part layer sound r
    refine ⟨fun ok => ?_, fun bad => ?_, _, exec_vaultSensorRead_none part layer sound, ?_⟩
    · have ok := Layer.doubts_eq_false_iff.2 ok
      obtain ⟨reading, warn, pend, suspect⟩ := Layer.took_of_valid ok ((s.tile t).ownsLayer n)
      rw [ok] at svc
      refine ⟨u, ran, by rw [read, reading], by rw [read, warn], by rw [read, pend], by rw [read, suspect], ?_, ?_⟩
      · intro hot
        simpa [hot] using svc
      · intro cool
        simpa [Int.not_le.2 cool] using svc
    · have bad := eq_true_of_ne_false (mt Layer.doubts_eq_false_iff.1 bad)
      obtain ⟨reading, suspect, warn, pend⟩ := Layer.took_of_doubts bad ((s.tile t).ownsLayer n)
      rw [bad] at svc
      exact ⟨u, ran, by rw [read, reading], by rw [read, suspect], by rw [read, warn], by rw [read, pend], by simpa using svc⟩
    · simp only [State.layer_onLayer _ _ _ layer]
      exact ⟨rfl, rfl, rfl, rfl⟩
  case layerFails =>
    intro t n s part layer suspect unreported
    obtain ⟨app, leads, failed⟩ := s.layer_failLayerSensor t layer
    refine ⟨_, exec_sensorFailureReport_layer part layer suspect unreported, ?_⟩
    simp only [failed]
    exact ⟨trivial, by decide, s.failLayerSensor_sys t n, s.failLayerSensor_svc t n⟩
  case computeFails =>
    intro i s part suspect unreported
    refine ⟨_, exec_sensorFailureReport_compute part suspect unreported, ?_⟩
    simp only [State.failComputeSensor, State.reportFault_island, State.island_setIsland_self, State.reportFault_svc, true_and]
    rfl
  case classes => exact fun c r known => ⟨classOf_hot known, classOf_cool, by decide⟩

end Sys2Proof.Machine
end

section
/-! PROOFS. Sensors of the compute dies, the second tier, failed vaults, lost remap copies and stretched clocks (R185, R347, R348, R371,
R375, R376; log entries 64, 65 and 112). -/

namespace Sys2Proof.Machine

/-! ### Reports and messages -/

theorem State.reportFault_told {s : State} {p : Nat} (owner : s.owner = some p) (a b c d : Nat) :
    (s.reportFault a b c d).told = s.told ++ [(p, .warning c d)] := by
  obtain ⟨_, _, logged⟩ := s.logIt_same b c d 0
  rw [State.reportFault, logged]
  simp only [State.tellOwner, owner, State.tell]

@[simp] theorem State.reportFault_boot (s : State) (a b c d : Nat) : (s.reportFault a b c d).boot = s.boot := by
  obtain ⟨_, _, _, _, e⟩ := s.reportFault_same a b c d; rw [e]
@[simp] theorem State.reportFault_unitsDown (s : State) (a b c d : Nat) : (s.reportFault a b c d).unitsDown = s.unitsDown := by
  obtain ⟨_, _, _, _, e⟩ := s.reportFault_same a b c d; rw [e]
@[simp] theorem State.reportFault_badVaults (s : State) (a b c d : Nat) : (s.reportFault a b c d).badVaults = s.badVaults := by
  obtain ⟨_, _, _, _, e⟩ := s.reportFault_same a b c d; rw [e]
@[simp] theorem State.reportFault_launch (s : State) (a b c d n : Nat) : (s.reportFault a b c d).launch n = s.launch n := by
  obtain ⟨_, _, _, _, e⟩ := s.reportFault_same a b c d; rw [e]; rfl
@[simp] theorem State.reportFault_icc (s : State) (a b c d t : Nat) : (s.reportFault a b c d).icc t = s.icc t := by
  obtain ⟨_, _, _, _, e⟩ := s.reportFault_same a b c d; rw [e]; rfl

theorem State.told_foldl_tell (m : Told) (ps : List Nat) (s : State) :
    (ps.foldl (fun s p => s.tell p m) s).told = s.told ++ ps.map fun p => (p, m) := by
  induction ps generalizing s with
  | nil => simp
  | cons p ps ih => rw [List.foldl_cons, ih]; simp [State.tell]

/-! ### The sensors of the compute dies (R347, R348) -/

/-- What a noted reading of an island's compute die leads to, with the readings of 115 °C in a row. -/
def State.computeReport (u : State) (i hot : Nat) (r : Int) : State :=
  if 2 ≤ hot then (([0, 1].filter fun p => (vget { } u.ports p).up).foldl (fun s p => s.tell p (.warning 2 i)) u).powerOff
  else if 420 ≤ r then u.reportFault 0 2 105 i
  else if 380 ≤ r then u.reportFault 0 2 95 i
  else u

/-- The reading that counts for an island: in place of a failed sensor's stands the base die's, with 10 °C added (R348). -/
def State.computeReading (s : State) (i : Nat) (reading : Option Int) : Option Int :=
  if (s.island i).failed then (find (stackOfIsland i) s.baseDie).map (· + 40) else reading

/-- The readings of 115 °C in a row once one is noted. -/
def Island.hotAfter (x : Island) (r : Int) : Nat := if 460 ≤ r then x.hot + 1 else 0

theorem State.computeRead_some {s : State} {i : Nat} {reading : Option Int} {r : Int} (read : s.computeReading i reading = some r) :
    ∃ x : Island, x.reading = some r ∧ x.hot = (s.island i).hotAfter r ∧
      s.computeRead i reading = (s.setIsland i x).computeReport i ((s.island i).hotAfter r) r := by
  unfold State.computeReading at read
  unfold State.computeRead
  simp only [read]
  exact ⟨_, rfl, rfl, rfl⟩

theorem exec_computeSensorRead {i : Nat} {s : State} (part : i < Config.islands) (ready : s.boot = .ready) (r : Option Int) :
    exec (.computeSensorRead (.compute i) r) s = .next (s.computeRead i r) := by
  change execComputeSensorRead (.compute i) r s = _
  simp [execComputeSensorRead, Nat.not_le.2 part, ready]

/-- The thermal trip: every lit port is warned, and power is removed (R348). -/
theorem State.computeReport_trips {u : State} {i hot : Nat} {r : Int} (trips : 2 ≤ hot) :
    (u.computeReport i hot r).boot = .off ∧ (u.computeReport i hot r).tiles = [] ∧
      ∀ p, p < 2 → (vget { } u.ports p).up = true → (p, Told.warning 2 i) ∈ (u.computeReport i hot r).told := by
  rw [State.computeReport, if_pos trips]
  refine ⟨rfl, rfl, fun p port up => ?_⟩
  have lit : p ∈ [0, 1].filter fun p => (vget { } u.ports p).up := List.mem_filter.2 ⟨by simp; omega, up⟩
  change _ ∈ (List.foldl _ u _).told
  rw [State.told_foldl_tell]
  exact List.mem_append_right _ (List.mem_map_of_mem lit)

section
variable {u : State} {i hot : Nat} {r : Int} (stays : hot < 2)
include stays

theorem State.computeReport_105 (h : 420 ≤ r) : u.computeReport i hot r = u.reportFault 0 2 105 i := by
  rw [State.computeReport, if_neg (by omega), if_pos h]

theorem State.computeReport_95 (h : 380 ≤ r) (h' : r < 420) : u.computeReport i hot r = u.reportFault 0 2 95 i := by
  rw [State.computeReport, if_neg (by omega), if_neg (by omega), if_pos h]

theorem State.computeReport_quiet (h : r < 380) : u.computeReport i hot r = u := by
  rw [State.computeReport, if_neg (by omega), if_neg (by omega), if_neg (by omega)]

/-- Without a trip a report leaves the tiles and the islands as they were. -/
theorem State.computeReport_stays : (u.computeReport i hot r).tiles = u.tiles ∧
    ∀ j, (u.computeReport i hot r).island j = u.island j := by
  by_cases hot105 : 420 ≤ r
  · simp [State.computeReport_105 stays hot105]
  · by_cases hot95 : 380 ≤ r
    · simp [State.computeReport_95 stays hot95 (by omega)]
    · simp [State.computeReport_quiet stays (by omega : r < 380)]

end

/-! ### Failed vaults (R374 to R376) -/

/-- The package with a vault marked failed and reported, its task as it was (R376). -/
def State.vaultMarked (s : State) (t : Nat) : State :=
  { (s.onVault t fun v => { v with failed := true }).reportFault 6 10 0x15 t with badVaults := s.badVaults ++ [t] }

/-- The package with a vault marked failed, whose task, where it has one, is to take 0x15 at its next bundle (R376). -/
def State.vaultFaulted (s : State) (t : Nat) : State :=
  if (s.tile t).task.isSome then
    (s.vaultMarked t).found t { trapOf 0xE 0x15 with word := constraintWord 0x16 0 0 0 0 0 0 0 0 }
  else s.vaultMarked t

section
variable (s : State) (t : Nat)

theorem State.tile_vaultMarked (u : Nat) : (s.vaultMarked t).tile u = (s.onVault t fun v => { v with failed := true }).tile u :=
  State.reportFault_tile _ 6 _ _ _ _

theorem State.tile_vaultMarked_self : (s.vaultMarked t).tile t =
    { s.tile t with vault := { (s.tile t).vault with failed := true } } := by
  rw [s.tile_vaultMarked, State.onVault_eq, State.tile_onTile_self]

theorem State.vaultMarked_launch (n : Nat) : (s.vaultMarked t).launch n = s.launch n := State.reportFault_launch _ 6 _ _ _ _

theorem State.vaultMarked_icc : (s.vaultMarked t).icc t = s.icc t := State.reportFault_icc _ 6 _ _ _ _

theorem State.vaultMarked_svc : (s.vaultMarked t).svc = s.svc ||| BitVec.twoPow 8 6 := State.reportFault_svc ..

/-- The mark of a failed vault keeps its tile's context and task, and marks the vault (R376). -/
theorem State.tile_vaultFaulted : ((s.vaultFaulted t).tile t).saved = (s.tile t).saved ∧
    ((s.vaultFaulted t).tile t).task = (s.tile t).task ∧ ((s.vaultFaulted t).tile t).vault.failed = true := by
  unfold State.vaultFaulted
  split
  · rw [State.found, State.onSeq_eq, State.tile_onTile_self, s.tile_vaultMarked_self]
    exact ⟨rfl, rfl, rfl⟩
  · rw [s.tile_vaultMarked_self]
    exact ⟨rfl, rfl, rfl⟩

theorem State.tile_vaultFaulted_of_ne {u : Nat} (h : u ≠ t) : (s.vaultFaulted t).tile u = s.tile u := by
  have marked : (s.vaultMarked t).tile u = s.tile u := by
    rw [s.tile_vaultMarked, State.onVault_eq, State.tile_onTile, if_neg h]
  unfold State.vaultFaulted
  split
  · rw [State.found, State.onSeq_eq, State.tile_onTile, if_neg h, marked]
  · exact marked

theorem State.vaultFaulted_runs (u n : Nat) : ((s.vaultFaulted t).tile u).runs n = (s.tile u).runs n := by
  by_cases own : u = t
  · obtain ⟨-, task, -⟩ := s.tile_vaultFaulted t
    rw [own, Tile.runs, Tile.runs, task]
  · rw [s.tile_vaultFaulted_of_ne t own]

theorem State.vaultFaulted_keeps : (s.vaultFaulted t).badVaults = s.badVaults ++ [t] ∧
    (s.vaultFaulted t).svc = s.svc ||| BitVec.twoPow 8 6 ∧ ∀ n, (s.vaultFaulted t).launch n = s.launch n := by
  unfold State.vaultFaulted
  split
  · exact ⟨rfl, s.vaultMarked_svc t, s.vaultMarked_launch t⟩
  · exact ⟨rfl, s.vaultMarked_svc t, s.vaultMarked_launch t⟩

/-- The task bound on a failed vault has 0x15 found, for the next cycle on (R376). -/
theorem State.vaultFaulted_finds (bound : (s.tile t).task.isSome = true) :
    ∃ f ∈ ((s.vaultFaulted t).tile t).seq.faults, f.1 = s.icc t + 1 ∧ f.2.code = 0x15 ∧ f.2.slot = 0xE := by
  rw [State.vaultFaulted, if_pos bound, State.found, State.onSeq_eq, State.tile_onTile_self, s.vaultMarked_icc]
  exact ⟨_, List.mem_append_right _ List.mem_cons_self, rfl, rfl, rfl⟩

theorem State.failVault_failed (failed : (s.tile t).vault.failed = true) : s.failVault t = s := if_pos failed

end

/-- What becomes of a context that lies in a failed vault: its launch fails, at once where none of its tasks runs (R376; log entry 64). -/
def State.contextLost (u : State) (t : Nat) : State :=
  match (u.tile t).saved with
  | none => u
  | some k =>
    match u.launch k.serial with
    | none => u
    | some l =>
      if l.tiles.all fun v => !(u.tile v).runs k.serial then u.endLaunch k.serial .failed 0x15
      else
        (((u.onTile t Tile.discard).onLaunch k.serial fun l =>
          { l with stops := l.stops ++ [k.role], code := if l.code = 0 then 0x15 else l.code }).roleLost k.serial k.role).finish k.serial

theorem State.failVault_sound {s : State} {t : Nat} (sound : (s.tile t).vault.failed = false) :
    s.failVault t = (s.vaultFaulted t).contextLost t := by
  unfold State.failVault
  rw [if_neg (by rw [sound]; decide)]
  extract_lets s1 s2 trap s3
  have marked : s2 = s.vaultMarked t := by
    simp only [s2, s1, State.vaultMarked, State.reportFault_badVaults]
    rfl
  have faulted : s3 = s.vaultFaulted t := by
    simp only [s3, marked, State.vaultFaulted, s.tile_vaultMarked_self]
    rfl
  rw [← faulted]
  rfl

section
variable {u : State} {t : Nat}

theorem State.contextLost_unsaved (unsaved : (u.tile t).saved = none) : u.contextLost t = u := by
  simp only [State.contextLost, unsaved]

variable {k : Task} (saved : (u.tile t).saved = some k)
include saved

theorem State.contextLost_unlaunched (gone : u.launch k.serial = none) : u.contextLost t = u := by
  simp only [State.contextLost, saved, gone]

variable {l : Launch} (launch : u.launch k.serial = some l)
include launch

theorem State.contextLost_suspended (suspended : ∀ v ∈ l.tiles, (u.tile v).runs k.serial = false) :
    u.contextLost t = u.endLaunch k.serial .failed 0x15 := by
  simp only [State.contextLost, saved, launch]
  exact if_pos (List.all_eq_true.2 fun v member => by rw [suspended v member]; rfl)

theorem State.contextLost_running (running : ∃ v ∈ l.tiles, (u.tile v).runs k.serial = true) : u.contextLost t =
    (((u.onTile t Tile.discard).onLaunch k.serial fun l =>
      { l with stops := l.stops ++ [k.role], code := if l.code = 0 then 0x15 else l.code }).roleLost k.serial k.role).finish k.serial := by
  obtain ⟨v, member, runs⟩ := running
  simp only [State.contextLost, saved, launch]
  exact if_neg fun all => by simpa [runs] using List.all_eq_true.1 all v member

end

/-- A vault whose tile holds no context is failed once it is reported so, whether it was before or not. -/
theorem State.failVault_fails {s : State} {t : Nat} (unsaved : (s.tile t).saved = none) :
    ((s.failVault t).tile t).vault.failed = true := by
  by_cases failed : (s.tile t).vault.failed = true
  · rw [s.failVault_failed t failed, failed]
  · obtain ⟨saved, -, now⟩ := s.tile_vaultFaulted t
    rw [State.failVault_sound (eq_false_of_ne_true failed), State.contextLost_unsaved (saved.trans unsaved), now]

theorem exec_vaultFailure {t : Nat} {s : State} (part : t < Config.tiles) (ready : s.boot = .ready) :
    exec (.vaultFailure t) s = .next (s.failVault t) := by
  change execVaultFailure t s = _
  simp [execVaultFailure, Nat.not_le.2 part, ready]

/-! ### Lost remap copies (R375) -/

/-- A layer's own remap copy is lost and reported. -/
def State.copyLost (s : State) (t n : Nat) : State :=
  (s.onVault t fun v => { v with layers := vset v.layers n { vget { } v.layers n with lostOwn := true } }).reportFault 5 11 n (t * 4 + n)

theorem State.tile_copyLost (s : State) (t n : Nat) : (s.copyLost t n).tile t = { s.tile t with vault := { (s.tile t).vault with
    layers := vset (s.tile t).vault.layers n { vget { } (s.tile t).vault.layers n with lostOwn := true } } } := by
  rw [State.copyLost, State.reportFault_tile, State.onVault_eq, State.tile_onTile_self]

theorem exec_remapCopyLoss {t n : Nat} {s : State} (part : t < Config.tiles) (layer : n < 4) (ready : s.boot = .ready) :
    exec (.remapCopyLoss t n false) s = .next (if (vget { } (s.tile t).vault.layers n).lostShadow = true then
      (s.copyLost t n).failVault t else s.copyLost t n) := by
  change execRemapCopyLoss t n false s = _
  rw [execRemapCopyLoss, if_neg (layer_exists part layer), if_neg (by rw [ready]; decide)]
  simp only [State.onVault_eq, State.tile_onTile_self, vget_vset_self _ _ _ layer, Bool.true_and, if_false, Bool.false_eq_true]
  rfl

/-! ### The second tier and stretched clocks (R185, R371) -/

theorem exec_secondTierDown {n : Nat} {r : ConfigRecord} {s : State} (ready : s.boot = .ready) (record : s.record = some r)
    (there : n < if r.cxl then 4 else 24) (up : n ∉ s.unitsDown) : exec (.secondTierDown n) s =
      .next ({ s with unitsDown := s.unitsDown ++ [n] }.reportFault 1 9 n n) := by
  change execSecondTierDown n s = _
  unfold execSecondTierDown
  simp only [record]
  exact if_neg (by simp [ready, Nat.not_le.2 there, up])

theorem exec_secondTierDown_disabled {n : Nat} {r : ConfigRecord} {s : State} (record : s.record = some r)
    (off : (if r.cxl then 4 else 24) ≤ n ∨ n ∈ s.unitsDown) : exec (.secondTierDown n) s = .next s := by
  change execSecondTierDown n s = _
  unfold execSecondTierDown
  simp only [record]
  exact if_pos (by simp [or_assoc, off])

theorem exec_islandClockStretch {i : Nat} {s : State} (part : i < Config.islands) (ready : s.boot = .ready)
    (apart : ∀ c, (s.island i).stretchAt = some c → c + 16 ≤ s.icc (16 * i)) : exec (.islandClockStretch i) s =
      .next (s.setIsland i { s.island i with due := true, stretchAt := some (s.icc (16 * i)) }) := by
  change execIslandClockStretch i s = _
  rw [execIslandClockStretch, if_neg (Nat.not_le.2 part)]
  refine if_neg ?_
  cases last : (s.island i).stretchAt with
  | none => simp [ready]
  | some c => simp [ready, Nat.not_lt.2 (apart c last)]

theorem exec_baseSensorRead {k : Nat} {s : State} (part : k < 4) (ready : s.boot = .ready) (r : Option Int) :
    Completes (.computeSensorRead (.base k) r) s fun u =>
      find k u.baseDie = r ∧ (∀ j, j ≠ k → find j u.baseDie = find j s.baseDie) ∧ u.tiles = s.tiles ∧ u.isl = s.isl := by
  have on : ¬ s.boot = .off := by rw [ready]; decide
  cases r with
  | none =>
    refine ⟨{ s with baseDie := dropAt k s.baseDie }, (if_neg (Nat.not_le.2 part)).trans (if_neg on), ?_⟩
    exact ⟨by simp [find_dropAt], fun j other => by simp [find_dropAt, other], rfl, rfl⟩
  | some r =>
    refine ⟨{ s with baseDie := insertAt k r s.baseDie }, (if_neg (Nat.not_le.2 part)).trans (if_neg on), ?_⟩
    exact ⟨by simp [find_insertAt], fun j other => by simp [find_insertAt, other], rfl, rfl⟩

/-- Settles O42: a reading's report is one of four, by the readings in a row and the threshold reached; a failed vault is its mark, and
then what becomes of the context that lies in it. -/
theorem packageFailureSteps : Obligations.PackageFailureSteps := by
  unfold Obligations.PackageFailureSteps
  refine ⟨?compute, ?failedCompute, fun k r s part ready => exec_baseSensorRead part ready r, ?secondTier, ?saved, ?failed, ?unsaved,
    ?oneCopy, ?bothCopies, fun i s part ready apart => ⟨_, exec_islandClockStretch part ready apart, ?stretch⟩⟩
  case compute =>
    intro i r s part ready sound
    have counts : s.computeReading i (some r) = some r := if_neg (by rw [sound]; decide)
    obtain ⟨x, reading, hot, read⟩ := State.computeRead_some counts
    have ran := exec_computeSensorRead part ready (some r)
    rw [read] at ran
    refine ⟨fun trip again => ⟨_, ran, ?_⟩, fun trip first => ⟨_, ran, ?_⟩, fun below => ⟨_, ran, ?_⟩⟩
    · exact State.computeReport_trips (by rw [Island.hotAfter, if_pos trip]; omega)
    · have one : (s.island i).hotAfter r = 1 := by rw [Island.hotAfter, if_pos trip, first]
      rw [one, State.computeReport_105 (by omega) (by omega)]
      refine ⟨by simpa using ready, ?_, ?_, by simp, by simp, fun p owner => ?_⟩
      · simpa [one] using hot
      · simpa using reading
      · rw [State.reportFault_told (s := s.setIsland i x) owner]
        exact List.mem_append_right _ List.mem_cons_self
    · have cool : (s.island i).hotAfter r = 0 := if_neg (by omega)
      rw [cool]
      obtain ⟨tiles, islands⟩ := (s.setIsland i x).computeReport_stays (i := i) (hot := 0) (r := r) (by omega)
      refine ⟨?_, ?_, tiles, fun h => ?_, fun h h' => ?_, fun h => ?_⟩
      · rw [islands, State.island_setIsland_self, reading]
      · rw [islands, State.island_setIsland_self, hot, cool]
      · rw [State.computeReport_105 (by omega) h]
        exact ⟨State.reportFault_svc .., fun p owner => State.reportFault_told (s := s.setIsland i x) owner ..⟩
      · rw [State.computeReport_95 (by omega) h h']
        exact ⟨State.reportFault_svc .., fun p owner => State.reportFault_told (s := s.setIsland i x) owner ..⟩
      · rw [State.computeReport_quiet (by omega) h]
        exact ⟨rfl, rfl⟩
  case failedCompute =>
    intro i b r s part ready failed base cool
    have counts : s.computeReading i r = some (b + 40) := by simp [State.computeReading, failed, base]
    obtain ⟨x, reading, hot, read⟩ := State.computeRead_some counts
    refine ⟨_, exec_computeSensorRead part ready r, ?_⟩
    have zero : (s.island i).hotAfter (b + 40) = 0 := if_neg (by omega)
    obtain ⟨tiles, islands⟩ := (s.setIsland i x).computeReport_stays (i := i) (hot := 0) (r := b + 40) (by omega)
    rw [read, zero]
    exact ⟨by rw [islands, State.island_setIsland_self, reading], tiles⟩
  case secondTier =>
    intro n r s ready record units
    refine ⟨fun there up => ⟨_, exec_secondTierDown ready record there up, ?_⟩, exec_secondTierDown_disabled record⟩
    simp
  case stretch => simp
  case failed =>
    intro t s part ready failed
    rw [exec_vaultFailure part ready, s.failVault_failed t failed]
  case unsaved =>
    intro t s part ready sound unsaved
    refine ⟨_, exec_vaultFailure part ready, ?_⟩
    obtain ⟨saved, task, failed⟩ := s.tile_vaultFaulted t
    obtain ⟨bad, svc, -⟩ := s.vaultFaulted_keeps t
    rw [State.failVault_sound sound, State.contextLost_unsaved (saved.trans unsaved)]
    exact ⟨failed, bad, svc, fun bound => s.vaultFaulted_finds t (Option.isSome_iff_ne_none.2 bound)⟩
  case saved =>
    intro t k s part ready sound saved marked s'
    obtain ⟨kept, -, -⟩ := s.tile_vaultFaulted t
    obtain ⟨-, -, launches⟩ := s.vaultFaulted_keeps t
    have kept := kept.trans saved
    rw [exec_vaultFailure part ready, State.failVault_sound sound]
    refine ⟨fun gone => ?_, fun l launch suspended => ?_, fun l launch running => ?_⟩
    · rw [State.contextLost_unlaunched kept ((launches _).trans gone)]
      rfl
    · rw [State.contextLost_suspended kept ((launches _).trans launch) (by simpa [s.vaultFaulted_runs t] using suspended)]
      rfl
    · rw [State.contextLost_running kept ((launches _).trans launch) (by simpa [s.vaultFaulted_runs t] using running)]
      rfl
  case oneCopy =>
    intro t n s part layer ready other
    refine ⟨_, exec_remapCopyLoss part layer ready, ?_⟩
    rw [if_neg (by rw [other]; decide)]
    simp only [s.tile_copyLost, vget_vset_self _ _ _ layer, true_and]
    exact State.reportFault_svc ..
  case bothCopies =>
    intro t n s part layer ready other
    have ran := exec_remapCopyLoss part layer ready
    rw [if_pos other] at ran
    refine ⟨ran, fun unsaved => ⟨_, ran, State.failVault_fails ?_⟩⟩
    rw [s.tile_copyLost]
    exact unsaved

end Sys2Proof.Machine
end

section
/-! PROOFS. What the operations of the V and X slots leave at issue: elements, masks, accesses of staging and deferral queues (R190 to
R221). -/

namespace Sys2Proof.Machine

/-- An operation whose meaning is the one form of a V or X operation completes with its effect, its unit taken. -/
theorem vectorIssuesAs_of_runVector {i : Instr} {eff : Ctx → State → State} (h : ∀ s, exec i s = runVector i s eff) :
    VectorIssuesAs i eff := issuesAs_of_runSlot h

/-- An effect may be written in another way. -/
theorem VectorIssuesAs.congr {i : Instr} {eff eff' : Ctx → State → State} (h : VectorIssuesAs i eff)
    (same : ∀ c s, eff c s = eff' c s) : VectorIssuesAs i eff' := by
  rwa [← funext₂ same]

/-! ### Elements reduced to their bits (R190, R197) -/

theorem packElems_map_mod (k : Nat) (xs : List Nat) : packElems k (xs.map (· % 2 ^ k)) = packElems k xs := by
  induction xs with
  | nil => rfl
  | cons x r ih => rw [List.map_cons, packElems, packElems, ih, Nat.mod_mod]

theorem packReg_map_mod {α : Type} (k : Nat) (g : α → Nat) (xs : List α) :
    packReg k (xs.map fun x => g x % 2 ^ k) = packReg k (xs.map g) := by
  rw [packReg, packReg, ← packElems_map_mod k (xs.map g), List.map_map]
  rfl

theorem State.mapBits_mod (s : State) (c : Ctx) (i : Instr) (f : VR) (op : Nat → Nat → Nat → Nat) :
    (s.mapBits c i f fun k a b => op k a b % 2 ^ k) = s.mapBits c i f op := by
  unfold State.mapBits
  simp only [packReg_map_mod]

theorem State.moved_mod {α : Type} (s : State) (c : Ctx) (i : Instr) (d k : Nat) (act : MReg) (g : α → Nat) (xs : List α) :
    s.moved c i d k act (xs.map fun x => g x % 2 ^ k) = s.moved c i d k act (xs.map g) := by
  unfold State.moved
  rw [packReg_map_mod, List.length_map, List.length_map]

/-! ### Masks and their words (R190, R200) -/

theorem getLsbD_ofNat_two_pow_sub_one {w i : Nat} (n : Nat) (inside : i < w) :
    (BitVec.ofNat w (2 ^ n - 1)).getLsbD i = decide (i < n) := by
  rw [BitVec.getLsbD_ofNat, Nat.testBit_two_pow_sub_one, decide_eq_true inside, Bool.true_and]

theorem tyBits_iff (ty : BitVec 3) : Instr.tyBits ty = true ↔ ty ≠ 7 := by
  revert ty
  decide

/-- A word of format VQ decodes to the mask operation of its opcode exactly where its fields are in range. -/
theorem decodeWord_maskOperation {sl : Slot} (vector : sl = .v0 ∨ sl = .v1) {op : BitVec 10} {mk : VQ → Instr}
    (reads : ∀ p, decodeV op.toNat p = decodeFields p (VQ.ofBits p).bits (mk (VQ.ofBits p))) (g : Guard) {f : VQ}
    {inRange : Prop} [Decidable inRange] (wf : (mk f).wf = true ↔ inRange) :
    decodeWord sl (op ++ BitVec.ofBool g.gn ++ g.gp ++ f.bits) =
      if inRange then .ok (mk f) else .error .operandOutOfRange := by
  have wide : decodeWide sl = decodeV := by obtain rfl | rfl := vector <;> rfl
  have notD : sl ≠ .d := by rintro rfl; simp at vector
  have notX : sl ≠ .x := by rintro rfl; simp at vector
  rw [decodeWord_wide _ notD notX, word_opcode, word_fields, wide, reads, decodeFields_of_read VQ.ofBits_bits mk f]
  exact if_congr wf rfl rfl

/-! ### Reads of staging into registers (R205, R206) -/

theorem State.deliver_vector {t : Nat} {r : StRead} {id reg off : Nat} (use : r.use = .vector id reg off) (s : State) :
    ∃ os, s.deliver t r = State.onTile { s with ordered := os } t fun x => x.fill id fun w => match w with
      | .v k keep v => if k = reg then
          .v k keep (v ||| BitVec.ofNat 8192 (leNat (readBytes (s.tile r.tile).st r.addr r.len) * 2 ^ (8 * off))) else w
      | _ => w := by
  obtain ⟨os, same⟩ := s.readsGens_same r
  refine ⟨os, ?_⟩
  unfold State.deliver
  simp only [same, use]
  rfl

/-- Bytes put at an offset of a register's value stand there, beside the bits that the value has. -/
theorem getLsbD_or_ofNat_mul_two_pow {w : Nat} (v : BitVec w) (n off i : Nat) :
    (v ||| BitVec.ofNat w (n * 2 ^ off)).getLsbD i =
      (v.getLsbD i || (decide (i < w ∧ off ≤ i) && n.testBit (i - off))) := by
  rw [BitVec.getLsbD_or, BitVec.getLsbD_ofNat, Nat.testBit_mul_two_pow, Bool.decide_and, Bool.and_assoc]

/-! ### Vector atomics (R207, R282) -/

theorem State.vectorAtomic_vatomics (c : Ctx) (s : State) (f : VM) (op : AOp) (ret : Bool) :
    ((s.vectorAtomic c f op ret).tile c.t).eng.vatomics = (s.tile c.t).eng.vatomics ++
      [{ id := s.nextId, slot := c.slot, op := op, size := tyWidth f.ty
         lanes := (s.lanes c f).map fun e => (e.1, e.2, BitVec.ofNat 64 (elem (s.readV c f.d.toNat) (8 * tyWidth f.ty) e.1))
         total := (s.lanes c f).length, flight := if ret then some s.nextId else none, d := f.d.toNat, issue := c.now }] := by
  cases ret <;> simp [State.vectorAtomic]

/-! ### Deferral queues (R209 to R212) -/

/-- The lanes that a DEFER's mask selects, with the cycle and the words of each (R210). -/
def State.deferred (s : State) (c : Ctx) (f : VD) : List (Nat × List (BitVec 32)) :=
  ((List.range 256).filter fun j => (s.readM c f.m).getLsbD j).map fun j =>
    (c.now, (vdRegs f).map fun r => BitVec.ofNat 32 (elem (s.readV c r) 32 j))

theorem State.defer_entries {c : Ctx} {s : State} {k : Task} (task : (s.tile c.t).task = some k) (f : VD) :
    (vget { } ((s.defer c f).tile c.t).eng.dq f.q.toNat).entries =
      (vget { } (s.tile c.t).eng.dq f.q.toNat).entries ++ s.deferred c f := by
  have queue : f.q.toNat < 4 := f.q.isLt
  unfold State.defer
  simp only [task]
  split
  · next empty =>
    have unselected : s.deferred c f = [] := by simpa [State.deferred] using empty
    rw [unselected, List.append_nil]
  · simp [State.deferred, State.stageLater, vget_vset_self _ _ _ queue]

theorem State.drain_entries (c : Ctx) (s : State) (i : Instr) (f : VD) (k : Nat) (ws : List Write) :
    (vget { } ((s.drain c i f k ws).tile c.t).eng.dq f.q.toNat).entries =
      (vget { } (s.tile c.t).eng.dq f.q.toNat).entries.drop k := by
  have queue : f.q.toNat < 4 := f.q.isLt
  simp only [State.drain, State.flightV, State.flight_tile_self, Tile.launchFlight_eng, State.tile_onTile_self,
    vget_vset_self _ _ _ queue]

/-! ### The obligations -/

/-- Settles O11: each meaning is its elementwise operation, and a register holds an element's k bits alone. -/
theorem vectorIntegerResults : Obligations.VectorIntegerResults := by
  unfold Obligations.VectorIntegerResults
  simp only [State.mapBits_mod, State.moved_mod]
  and_intros
  all_goals exact fun _ => vectorIssuesAs_of_runVector fun _ => rfl

/-- Settles O17: each meaning is its effect on the queue, which appends what the mask selects and drops what is popped. -/
theorem deferralResults : Obligations.DeferralResults := by
  unfold Obligations.DeferralResults
  refine ⟨?defer, ?drain, ?drainp, fun c s f k task => s.defer_entries task f, State.drain_entries⟩
  all_goals exact fun _ => vectorIssuesAs_of_runVector fun _ => rfl

/-- Settles O12: each meaning is its test or its mask in flight. -/
theorem vectorCompareAndMaskResults : Obligations.VectorCompareAndMaskResults := by
  unfold Obligations.VectorCompareAndMaskResults
  and_intros
  all_goals exact fun _ => vectorIssuesAs_of_runVector fun _ => rfl

/-- Settles O59: the operations complete as among the compares; MSET's number has its lowest bits set; and a word decodes where its
fields are in range. -/
theorem maskOperationRule : Obligations.MaskOperationRule := by
  unfold Obligations.MaskOperationRule
  obtain ⟨-, -, -, -, -, -, -, and, or, xor, not, pop, set⟩ := vectorCompareAndMaskResults
  refine ⟨and, or, xor, not, pop, fun f s goes => ⟨_, fun i inside => ?bits, set f s goes⟩, by decide, fun g f sl vector => ?words⟩
  case bits =>
    rw [getLsbD_ofNat_two_pow_sub_one _ inside, decide_eq_decide, Nat.lt_min]
    rfl
  case words =>
    refine ⟨decodeWord_maskOperation vector (fun _ => rfl) g ?_, decodeWord_maskOperation vector (fun _ => rfl) g ?_,
      decodeWord_maskOperation vector (fun _ => rfl) g ?_, decodeWord_maskOperation vector (fun _ => rfl) g ?_,
      decodeWord_maskOperation vector (fun _ => rfl) g ?_, decodeWord_maskOperation vector (fun _ => rfl) g ?_⟩
    all_goals simp [Instr.wf, tyBits_iff, and_assoc, and_comm]

/-- Settles O10: each meaning is its elementwise operation. -/
theorem vectorFloatResults : Obligations.VectorFloatResults := by
  unfold Obligations.VectorFloatResults
  and_intros
  all_goals exact fun _ => vectorIssuesAs_of_runVector fun _ => rfl

/-- Settles O13: each meaning is its elements in flight. -/
theorem vectorMoveResults : Obligations.VectorMoveResults := by
  unfold Obligations.VectorMoveResults
  and_intros
  all_goals exact fun _ => vectorIssuesAs_of_runVector fun _ => rfl

/-- Settles O14: each meaning is its reduction, its scan or its conversion in flight. -/
theorem reductionAndConversionResults : Obligations.ReductionAndConversionResults := by
  unfold Obligations.ReductionAndConversionResults
  and_intros
  all_goals exact fun _ => vectorIssuesAs_of_runVector fun _ => rfl

/-- Settles O15: each meaning is its accesses, and a read brings its bytes to their place in the value in flight. -/
theorem vectorStagingResults : Obligations.VectorStagingResults := by
  unfold Obligations.VectorStagingResults
  refine ⟨?vld, ?vst, ?vgath, ?vscat, ?vstadd, ?vstmin, ?vstmax, ?vstfadd, ?vstfmin, ?vstfmax, ?vldadd, ?vldmin, ?vldmax,
    State.vectorAtomic_vatomics, ?deliver, fun v n off i _ => getLsbD_or_ofNat_mul_two_pow v n (8 * off) i⟩
  case vld =>
    intro f
    have issues : VectorIssuesAs (.vld f) fun c s => s.vectorLoad c (.vld f) f := vectorIssuesAs_of_runVector fun _ => rfl
    refine issues.congr fun c s => ?_
    simp only [State.vectorLoad, List.map_map]
    rfl
  case deliver =>
    intro t r id reg off s use n
    obtain ⟨os, delivered⟩ := s.deliver_vector (t := t) use
    rw [delivered]
    have stores : SameStores s { s with ordered := os } := .of_eq rfl rfl rfl rfl
    refine ⟨?_, stores.onTile t _ fun _ => ⟨rfl, rfl, rfl⟩⟩
    rw [State.tile_onTile_self]
    rfl
  all_goals exact fun _ => vectorIssuesAs_of_runVector fun _ => rfl

/-- Settles O16: each meaning is its decimal operation, test or conversion in flight. -/
theorem decimalResults : Obligations.DecimalResults := by
  unfold Obligations.DecimalResults
  and_intros
  all_goals exact fun _ => vectorIssuesAs_of_runVector fun _ => rfl

/-- Settles O22: each meaning is its result in flight, or its request in the decoder's list. -/
theorem transformResults : Obligations.TransformResults := by
  unfold Obligations.TransformResults
  and_intros
  all_goals exact fun _ => vectorIssuesAs_of_runVector fun _ => rfl

end Sys2Proof.Machine
end

section
/-! PROOFS. Global copies: the walks of their pages, the units that perform, the entries of the decoder FIFOs, and the faults of global
traffic (R226, R252 to R257, R267, R268, R273, R279, R280, R291, R309, R372). -/

namespace Sys2Proof.Machine

/-! ### Walks (R252, R256, R268) -/

/-- What a copy asks of its pages (R256). -/
def GCopy.want (g : GCopy) : Want := { writes := g.kind == .gwr, dec := g.kind == .dec, like := g.form }

/-- A translation changes the caches of the tables alone. -/
theorem State.translate_same (s : State) (t : Nat) (w : Want) (va : Nat) :
    ∃ cs, (s.translate t w va).2 = { s with caches := cs, freeCtr := s.freeCtr + 1 } := by
  unfold State.translate
  extract_lets root stack secure r fresh s'
  refine ⟨s.caches ++ fresh, ?_⟩
  split
  · rfl
  · split <;> rfl

section
variable {t id : Nat} {s : State} (part : t < Config.tiles)
include part

section
variable {g : GCopy} (found : (s.tile t).eng.copies.find? (fun g => g.id == id) = some g)
include found

theorem exec_translationWalk_copy (sound : g.fault = none) (working : (s.tile t).working = true) (left : g.walked < g.units) :
    exec (.translationWalk t id) s = .next (s.walkCopy t g) := by
  show execTranslationWalk t id s = _
  simp [execTranslationWalk, Nat.not_le.2 part, found, sound, working, left]

end

section
variable {a : Atomic} (noCopy : (s.tile t).eng.copies.find? (fun g => g.id == id) = none)
  (found : (s.tile t).eng.atomics.find? (fun a => a.id == id) = some a) (goesOn : a.stopped = false) (fresh : a.leaf = none)
include noCopy found goesOn fresh

theorem exec_translationWalk_atomic_fails {e : Nat} (fails : (s.translate t a.want a.va).1 = .error e) :
    exec (.translationWalk t id) s = .next ((s.translate t a.want a.va).2.stopAtomic t a e) := by
  show execTranslationWalk t id s = _
  simp [execTranslationWalk, Nat.not_le.2 part, noCopy, found, goesOn, fresh, fails]

theorem exec_translationWalk_atomic_walks {l : Leaf} (walks : (s.translate t a.want a.va).1 = .ok l) :
    exec (.translationWalk t id) s = .next ((s.translate t a.want a.va).2.onTile t fun x => { x with eng := { x.eng with
      atomics := x.eng.atomics.map fun b => if b.id = id then { b with leaf := some l } else b } }) := by
  show execTranslationWalk t id s = _
  simp [execTranslationWalk, Nat.not_le.2 part, noCopy, found, goesOn, fresh, walks]

end
end

section
variable {t : Nat} {g : GCopy} {s : State}

theorem State.walkCopy_known (known : g.nextWalk = none) : s.walkCopy t g = s.setCopy t { g with walked := g.units } := by
  unfold State.walkCopy
  rw [known]

variable {u va : Nat} (next : g.nextWalk = some (u, va))
include next

theorem State.walkCopy_untranslated {e : Nat} (fails : (s.translate t g.want va).1 = .error e) :
    s.walkCopy t g = (s.translate t g.want va).2.failCopy t { g with walked := u } u e va := by
  unfold GCopy.want at fails ⊢
  simp only [State.walkCopy, next, fails]

variable {l : Leaf} (walks : (s.translate t g.want va).1 = .ok l)
include walks

theorem State.walkCopy_homeFault {e : Nat} (home : (s.translate t g.want va).2.homeFault l va = some e) :
    s.walkCopy t g = (s.translate t g.want va).2.failCopy t { g with walked := u } u e va := by
  unfold GCopy.want at walks home ⊢
  simp only [State.walkCopy, next, walks, home]

variable (home : (s.translate t g.want va).2.homeFault l va = none)
include home

theorem State.walkCopy_pageFault {e a : Nat}
    (page : (s.translate t g.want va).2.pageFault t { g with leaves := g.leaves ++ [l] } l u = some (e, a)) :
    s.walkCopy t g = (s.translate t g.want va).2.failCopy t { g with walked := u } u e a := by
  unfold GCopy.want at walks home page ⊢
  simp only [State.walkCopy, next, walks, home, page]

theorem State.walkCopy_walks (page : (s.translate t g.want va).2.pageFault t { g with leaves := g.leaves ++ [l] } l u = none) :
    s.walkCopy t g =
      let g' := { g with leaves := g.leaves ++ [l], walked := u }
      let upto := match g'.nextWalk with | some n => n.1 | none => g.units
      (s.translate t g.want va).2.setCopy t { g' with walked := upto, sent := g.sent ++ [(upto, s.pcc)] } := by
  unfold GCopy.want at walks home page ⊢
  simp only [State.walkCopy, next, walks, home, page] <;> rfl

end

/-! ### Units (R267, R268, R291, R309) -/

section
variable {t id n : Nat} {s : State} (part : t < Config.tiles)
include part

/-- A unit that is ready performs or fails, once its homes are free. -/
theorem exec_globalCopyUnitPerform {g : GCopy} (found : (s.tile t).eng.copies.find? (fun g => g.id == id) = some g)
    (noAck : ∀ a ∈ (s.tile t).eng.acks, ¬ (a.copy = id ∧ a.unit = n ∧ a.failed = false)) (working : (s.tile t).working = true)
    (sound : g.fault = none) (walked : n < g.walked) (left : g.past n = false) (leads : (s.tile t).lineWait g n = false)
    (bytes : g.kind = .gwr → find n g.data ≠ none) (global : g.kind = .feed → g.srcSpace = 2)
    (free : ∀ h ∈ s.unitHomes g n, s.homeFree h = true) :
    exec (.globalCopyUnitPerform t id n) s = .next ((s.unitFault t g n).elim
      ((s.unitHomes g n).foldl (fun s h => s.homeMoves h t 1) (s.performUnit t g n)).nextFree
      fun e => s.failCopy t g n e.1 e.2) := by
  have quiet : ((s.tile t).eng.acks.any fun a => a.copy == id && a.unit == n && !a.failed) = false := by
    simpa [and_assoc] using noAck
  have data : (g.kind != .gwr || (find n g.data).isSome) = true := by
    simpa [← imp_iff_not_or, Option.isSome_iff_ne_none] using bytes
  have space : (g.kind != .feed || g.srcSpace == 2) = true := by simpa [← imp_iff_not_or] using global
  have allFree : ((s.unitHomes g n).any fun h => !s.homeFree h) = false := by simpa using free
  show execGlobalCopyUnitPerform t id n s = _
  unfold execGlobalCopyUnitPerform
  simp only [ge_iff_le, Nat.not_le.2 part, if_false, quiet, found, working, sound, walked, left, leads, data, space, allFree,
    Option.isNone_none, decide_true, Bool.not_false, Bool.and_self, Bool.not_true, Bool.or_self, Bool.false_eq_true]
  cases s.unitFault t g n <;> rfl

theorem exec_globalCopyUnitPerform_acknowledged (ack : ∃ a ∈ (s.tile t).eng.acks, a.copy = id ∧ a.unit = n ∧ a.failed = false) :
    exec (.globalCopyUnitPerform t id n) s = .next (s.onTile t fun x => { x with eng := { x.eng with
      acks := x.eng.acks.filter fun a => !(a.copy == id && a.unit == n) } }) := by
  have waits : ((s.tile t).eng.acks.any fun a => a.copy == id && a.unit == n && !a.failed) = true := by
    simpa [and_assoc] using ack
  show execGlobalCopyUnitPerform t id n s = _
  unfold execGlobalCopyUnitPerform
  simp only [ge_iff_le, Nat.not_le.2 part, if_false, waits, if_true]

end

/-- The bytes of every memory, and the tags of the writers of their lines. -/
def State.written (s : State) : (Memory × Memory × Memory) × Table (BitVec 48) := (s.memories, s.tags)

@[simp] theorem State.written_onTile (s : State) (t : Nat) (f : Tile → Tile) : (s.onTile t f).written = s.written := rfl
@[simp] theorem State.written_setCopy (s : State) (t : Nat) (g : GCopy) : (s.setCopy t g).written = s.written := rfl
@[simp] theorem State.written_unordered (s : State) (line : Nat) : (s.unordered line).written = s.written := rfl

theorem State.countUnit_same (s : State) (t : Nat) (g : GCopy) (u : Nat) : ∃ cs, s.countUnit t g u = { s with counts := cs } := by
  unfold State.countUnit
  split
  · split <;> exact ⟨_, rfl⟩
  · exact ⟨_, rfl⟩

@[simp] theorem State.written_unitDone (s : State) (t : Nat) (g : GCopy) (u : Nat) : (s.unitDone t g u).written = s.written := by
  obtain ⟨cs, counted⟩ := s.countUnit_same t g u
  unfold State.unitDone
  simp only [counted]
  split <;> rfl

@[simp] theorem State.written_orders (s : State) (g : GCopy) (l : Leaf) (u : Nat) (gone : Bool) :
    (s.orders g l u gone).written = s.written := by
  unfold State.orders
  split
  · split <;> rfl
  · rfl

@[simp] theorem State.written_accepted (s : State) (t : Nat) (g : GCopy) (l : Leaf) (u : Nat) :
    (s.accepted t g l u).written = s.written := by
  unfold State.accepted
  split <;> rfl

/-- What a unit of a CGRD reads lands in staging (R267). -/
theorem State.performUnit_grd {g : GCopy} (kind : g.kind = .grd) (s : State) (t n : Nat) :
    s.performUnit t g n = ((s.readSpan t g (g.src + 64 * n) 64).2.landUnit t g (g.dst + 64 * n)
      (s.readSpan t g (g.src + 64 * n) 64).1).unitDone t g n := by
  simp only [State.performUnit, GCopy.ranges, kind]

/-- Of the stores a unit of a CGWR changes what its write changes. -/
theorem State.written_performUnit_gwr {g : GCopy} {l : Leaf} {n : Nat} {bs : List Byte} (kind : g.kind = .gwr)
    (leaf : g.leafAt (g.dst + 64 * n) = some l) (data : find n g.data = some bs) (s : State) (t : Nat) :
    (s.performUnit t g n).written = (s.writeUnit (s.actor t) l (g.dst + 64 * n) bs).written := by
  simp only [State.performUnit, kind, leaf, data, State.written_unitDone, State.written_accepted, State.written_orders]

theorem State.tags_writeLine (s : State) (l : Leaf) (va : Nat) (bs : List Byte) : (s.writeLine l va bs).tags = s.tags := by
  unfold State.writeLine State.putLine
  split
  · split <;> rfl
  · split <;> rfl

/-- Where a line is written, and under which key, does not depend on the tags, the launches and the log. -/
theorem State.memories_writeLine_tagWrite (s : State) (a : Actor) (line at_ : Nat) (l : Leaf) (va : Nat) (bs : List Byte) :
    ((s.tagWrite a line at_).2.writeLine l va bs).memories = (s.writeLine l va bs).memories := by
  obtain ⟨ts, ls, lg, ov, tagged⟩ := s.tagWrite_same a line at_
  rw [tagged]
  unfold State.writeLine State.putLine
  split
  · split <;> rfl
  · have home : ({ s with tags := ts, launches := ls, log := lg, overwritten := ov } : State).hostAddr (l.phys va / 64 * 64) =
        s.hostAddr (l.phys va / 64 * 64) := rfl
    rw [home]
    cases s.hostAddr (l.phys va / 64 * 64) <;> rfl

section
variable {l : Leaf} {a : Actor} {va : Nat} (s : State) (bs : List Byte)

theorem State.writeUnit_untagged (untagged : l.ep = false) : s.writeUnit a l va bs = s.writeLine l va bs := by
  simp [State.writeUnit, untagged]

variable (tagged : l.ep = true)
include tagged

theorem State.tags_writeUnit : (s.writeUnit a l va bs).tags = (s.tagWrite a (l.phys va / 64) va).2.tags := by
  simp only [State.writeUnit, tagged, if_true]
  split
  · exact State.tags_writeLine ..
  · rfl

theorem State.memories_writeUnit_stands (stands : (s.tagWrite a (l.phys va / 64) va).1 = true) :
    (s.writeUnit a l va bs).memories = (s.writeLine l va bs).memories := by
  simp only [State.writeUnit, tagged, stands, if_true, State.memories_unordered, State.memories_writeLine_tagWrite]

theorem State.memories_writeUnit_discarded (discarded : (s.tagWrite a (l.phys va / 64) va).1 = false) :
    (s.writeUnit a l va bs).memories = s.memories := by
  obtain ⟨ts, ls, lg, ov, same⟩ := s.tagWrite_same a (l.phys va / 64) va
  simp only [State.writeUnit, tagged, discarded, if_true, Bool.false_eq_true, if_false, same]
  rfl

end

/-! ### Entries of the decoder FIFOs (R226, R273) -/

/-- A unit that has performed changes of its tile the copies alone; while its copy is outstanding the unit is the last of those done. -/
theorem State.tile_unitDone (s : State) (t : Nat) (g : GCopy) (u : Nat) : ∃ cs,
    (s.unitDone t g u).tile t = { s.tile t with eng := { (s.tile t).eng with copies := cs } } ∧
    ∀ h ∈ cs, h.id = g.id → h.done = g.done ++ [u] := by
  obtain ⟨ns, counted⟩ := s.countUnit_same t g u
  unfold State.unitDone
  simp only [counted]
  split
  · refine ⟨_, State.tile_onTile_self .., fun h mem same => ?_⟩
    simp [same] at mem
  · refine ⟨_, State.tile_onTile_self .., fun h mem same => ?_⟩
    obtain ⟨c, -, rfl⟩ := List.mem_map.1 mem
    by_cases named : c.id = g.id
    · rw [if_pos named]
    · rw [if_neg named] at same; contradiction

/-- The tile with a unit's bytes at the end of a decoder FIFO, which takes the next from a later cycle on. -/
def Tile.fed (x : Tile) (fifo : Nat) (bs : List Byte) (next : Nat) : Tile :=
  { x with eng := { x.eng with df := vset x.eng.df fifo (vget [] x.eng.df fifo ++ bs), dfAt := vset x.eng.dfAt fifo next } }

theorem exec_cfeedUnitEntry_enters {t id : Nat} {k : Task} {g : GCopy} {bs : List Byte} {s : State} (part : t < Config.tiles)
    (working : (s.tile t).working = true) (task : (s.tile t).task = some k)
    (found : (s.tile t).eng.copies.find? (fun g => g.id == id) = some g) (kind : g.kind = .feed)
    (first : ∀ h ∈ (s.tile t).eng.copies, h.id < g.id → h.kind = .feed → h.fifo ≠ g.fifo) (ticks : g.ticks (s.icc t) = true)
    (idle : vget 0 (s.tile t).eng.dfAt g.fifo ≤ s.icc t)
    (room : (vget [] (s.tile t).eng.df g.fifo).length + 64 ≤ k.dfOcc g.fifo)
    (arrived : (if g.srcSpace = 2 then find g.done.length g.data
      else some (readBytes (s.tile t).st (g.src + 64 * g.done.length) 64)) = some bs) :
    exec (.cfeedUnitEntry t id) s =
      .next ((s.onTile t (·.fed g.fifo bs (s.icc t + g.step))).unitDone t g g.done.length) := by
  have leads : ((s.tile t).eng.copies.all fun h => h.id ≥ g.id || h.kind != .feed || h.fifo != g.fifo) = true := by
    simp only [List.all_eq_true, Bool.or_eq_true, decide_eq_true_iff, bne_iff_ne]
    intro h mem
    have order := first h mem
    by_cases later : g.id ≤ h.id
    · exact .inl (.inl later)
    · by_cases feeds : h.kind = .feed
      · exact .inr (order (by omega) feeds)
      · exact .inl (.inr feeds)
  show execCfeedUnitEntry t id s = _
  unfold execCfeedUnitEntry
  simp only [ge_iff_le, Nat.not_le.2 part, if_false, working, task, found, kind, leads, ticks, arrived, Nat.not_lt.2 idle,
    Nat.not_lt.2 room]
  rfl

/-! ### Faults of global traffic (R279, R280, R372) -/

section
variable {t id code : Nat} {s : State} (part : t < Config.tiles)
include part

/-- The one fault that has been found is raised on its cycle. -/
theorem exec_globalFaultTrap_raises {n : Nat} {r : TrapReq} (faults : (s.tile t).seq.faults = [(n, r)]) (due : n ≤ s.icc t)
    (global : isGlobalCode r.code = true) (slot : r.slot < 8) (same : r.code = code) :
    exec (.globalFaultTrap t id code) s =
      .next ((s.trapWaiting t r).onSeq t fun q => { q with faults := q.faults.erase (n, r) }) := by
  subst same
  have low : min 8 r.slot = r.slot := by omega
  show execGlobalFaultTrap t id r.code s = _
  simp [execGlobalFaultTrap, Nat.not_le.2 part, State.raiseFound, faults, due, global, low]

variable (quiet : (s.tile t).seq.faults = [])
include quiet

/-- Without a fault found the code says what fails or is counted. -/
theorem exec_globalFaultTrap_quiet : exec (.globalFaultTrap t id code) s =
    if code = 0x26 || code = 0x28 || code = 0x72 then
      .next (((s.tile t).eng.acks.find? fun a => code == 0x26 && a.copy == id && !a.failed && a.pcc + hostTime ≤ s.pcc).elim
        (s.outsideFailure t id code) (s.ackFails t code))
    else if code = 0x71 && ((s.tile t).seq.phase.live || (s.tile t).seq.entering) then
      .next ((s.reportFault 7 1 0x71 t).trapNext t { code := 0x71, slot := id % 8 })
    else if code = 0 && storeHome ≤ id && id ≤ 10 then .next (s.countCorrected t id)
    else .next s := by
  show execGlobalFaultTrap t id code s = _
  simp only [execGlobalFaultTrap, ge_iff_le, Nat.not_le.2 part, if_false, quiet, List.filter_nil, List.any_nil, Bool.false_eq_true]
  cases (s.tile t).eng.acks.find? fun a => code == 0x26 && a.copy == id && !a.failed && a.pcc + hostTime ≤ s.pcc <;> rfl

end

/-- Settles O34: a walk by what its page answers, a unit by its home, what is left of a write by its tag, and a fault by what has been
found. -/
theorem globalUnitSteps : Obligations.GlobalUnitSteps := by
  refine ⟨?walk, ?atomic, ?unit, ?acknowledged, ?read, ?written, ?tagged, ?feed, ?raised, ?quiet⟩
  case walk =>
    intro t id g s part found sound working left
    have walks := exec_translationWalk_copy part found sound working left
    exact ⟨fun known => walks.trans (congrArg _ (State.walkCopy_known known)), fun u va next =>
      ⟨fun e fails => walks.trans (congrArg _ (State.walkCopy_untranslated next fails)), fun l ok =>
        ⟨fun e home => walks.trans (congrArg _ (State.walkCopy_homeFault next ok home)),
          fun home e a page => walks.trans (congrArg _ (State.walkCopy_pageFault next ok home page)),
          fun home page => walks.trans (congrArg _ (State.walkCopy_walks next ok home page))⟩⟩⟩
  case atomic =>
    intro t id a s part noCopy found goesOn fresh
    refine ⟨fun e fails => exec_translationWalk_atomic_fails part noCopy found goesOn fresh fails,
      fun l ok => ⟨_, exec_translationWalk_atomic_walks part noCopy found goesOn fresh ok, fun b mem same => ?leaf, ?mem⟩⟩
    case leaf =>
      rw [State.tile_onTile_self] at mem
      obtain ⟨c, -, rfl⟩ := List.mem_map.1 mem
      by_cases named : c.id = id
      · rw [if_pos named]
      · rw [if_neg named] at same; contradiction
    case mem =>
      obtain ⟨cs, walked⟩ := s.translate_same t a.want a.va
      rw [walked]
      rfl
  case unit =>
    intro t id n g s part found noAck working sound walked left leads bytes global free
    have step := exec_globalCopyUnitPerform part found noAck working sound walked left leads bytes global free
    exact ⟨fun e va fault => by rw [step, fault]; rfl, fun performs => by rw [step, performs]; rfl⟩
  case acknowledged =>
    intro t id n s part ack
    refine ⟨_, exec_globalCopyUnitPerform_acknowledged part ack, ?_⟩
    beta_reduce
    rw [State.tile_onTile_self]
    exact ⟨fun a mem both => by simp [both] at mem, rfl, rfl⟩
  case read =>
    intro t n g s kind r
    refine ⟨s.performUnit_grd kind t n, ?_⟩
    rw [State.landUnit, State.onSeq_eq, State.tile_onTile_self]
  case written =>
    intro t n g l bs s kind leaf data untagged
    have same := s.written_performUnit_gwr kind leaf data t
    rw [State.writeUnit_untagged s bs untagged] at same
    exact ⟨congrArg (·.1.1) same, congrArg (·.1.2.1) same, congrArg (·.1.2.2) same⟩
  case tagged =>
    intro t n g l bs s kind leaf data tagged r u
    obtain ⟨memories, tags⟩ := Prod.ext_iff.1 (s.written_performUnit_gwr kind leaf data t)
    refine ⟨tags.trans (s.tags_writeUnit bs tagged), fun stands => ?_, fun discarded => ?_⟩
    · have same := memories.trans (s.memories_writeUnit_stands bs tagged stands)
      exact ⟨congrArg (·.1) same, congrArg (·.2.1) same, congrArg (·.2.2) same⟩
    · have same := memories.trans (s.memories_writeUnit_discarded bs tagged discarded)
      exact ⟨congrArg (·.1) same, congrArg (·.2.1) same, congrArg (·.2.2) same⟩
  case feed =>
    intro t id k g bs s part working task found kind fifo first ticks idle room arrived
    have named : g.id = id := by simpa using List.find?_some found
    refine ⟨_, exec_cfeedUnitEntry_enters part working task found kind first ticks idle room arrived, ?_⟩
    obtain ⟨cs, done, counted⟩ := (s.onTile t (·.fed g.fifo bs (s.icc t + g.step))).tile_unitDone t g g.done.length
    rw [done, State.tile_onTile_self]
    exact ⟨vget_vset_self _ _ _ fifo, vget_vset_self _ _ _ fifo, rfl, rfl, fun h mem same => counted h mem (same.trans named.symm)⟩
  case raised => exact fun t id code n r s part faults due global slot same =>
    exec_globalFaultTrap_raises part faults due global slot same
  case quiet =>
    intro t id code s part quiet unacked
    have step := exec_globalFaultTrap_quiet (id := id) (code := code) part quiet
    refine ⟨fun outside early => ?_, fun outside a late => ?_, fun own live => ?_, fun corrected low high => ?_⟩
    · rw [step, if_pos (by simpa [or_assoc] using outside)]
      exact congrArg (fun o : Option HostAck => Host.Outcome.next (o.elim _ _)) early
    · rw [step, if_pos (by simpa [or_assoc] using outside)]
      exact congrArg (fun o : Option HostAck => Host.Outcome.next (o.elim _ _)) late
    · subst own
      rw [step, if_neg (by decide), if_pos (by simp [live])]
    · subst corrected
      rw [step, if_neg (by decide), if_neg (by simp), if_pos (by simp [storeHome, low, high])]

end Sys2Proof.Machine
end

section
/-! PROOFS. What the operations of the M slot leave at issue, and what a read of staging puts in the operand and weight latches (R231,
R236 to R241, R248, R249). -/

namespace Sys2Proof.Machine

/-! ### Reads of staging into the latches (R236, R237) -/

/-- The flight of the operand or weight latch that a read of staging fills, if it fills one. -/
def ReadUse.latch : ReadUse → Option Nat
  | .opRow id _ | .opScale id _ | .weight id _ => some id
  | _ => none

/-- A latch's value in flight with the bytes of a read, as the number `n`, in the row, scale or place that the read is for. -/
def ReadUse.place (n : Nat) : ReadUse → Write → Write
  | .opRow _ row => fun w => match w with
    | .opLatch v sc => .opLatch (v ||| BitVec.ofNat 16384 (n * 2 ^ (512 * row))) sc
    | _ => w
  | .opScale _ row => fun w => match w with
    | .opLatch v sc => .opLatch v (sc ||| BitVec.ofNat 1024 (n * 2 ^ (32 * row)))
    | _ => w
  | .weight _ off => fun w => match w with
    | .wLatch v => .wLatch (v ||| BitVec.ofNat 34816 (n * 2 ^ (8 * off)))
    | _ => w
  | _ => id

section
variable {r : StRead} {id : Nat} (fills : r.use.latch = some id) (s : State) (t : Nat)
include fills

/-- A read for a latch puts its bytes in the latch's flight; beside that it changes what is ordered after an arrival word alone. -/
theorem State.deliver_latch :
    ∃ os, s.deliver t r = State.onTile { s with ordered := os } t fun x =>
      x.fill id (r.use.place (leNat (readBytes (s.tile r.tile).st r.addr r.len))) := by
  obtain ⟨os, same⟩ := s.readsGens_same r
  refine ⟨os, ?_⟩
  unfold State.deliver
  cases use : r.use with
  | opRow | opScale | weight =>
    rw [use] at fills
    cases fills
    simp only [same]
    rfl
  | scalar | vector | copyTo | xpose | unit | column =>
    rw [use] at fills
    cases fills

theorem State.flights_deliver_latch :
    ((s.deliver t r).tile t).seq.flights = (s.tile t).seq.flights.map fun g => if g.id = id then
      { g with writes := g.writes.map (r.use.place (leNat (readBytes (s.tile r.tile).st r.addr r.len))) } else g := by
  obtain ⟨os, delivered⟩ := s.deliver_latch fills t
  rw [delivered, State.tile_onTile_self]
  rfl

theorem State.sameStores_deliver_latch : SameStores s (s.deliver t r) := by
  obtain ⟨os, delivered⟩ := s.deliver_latch fills t
  have stores : SameStores s { s with ordered := os } := .of_eq rfl rfl rfl rfl
  rw [delivered]
  exact stores.onTile t _ fun _ => ⟨rfl, rfl, rfl⟩

end

/-! ### The obligation -/

/-- Settles O19: each meaning is its result in flight or its request in the engine's list, and a read for a latch brings its bytes to
their place in the latch's flight. -/
theorem matrixResults : Obligations.MatrixResults := by
  unfold Obligations.MatrixResults
  refine ⟨?mgath, ?mldw, ?mma, ?mmad, ?mrd, ?mwr, ?mzero, ?mstat, ?deliver⟩
  case deliver =>
    intro t r id k s
    refine ⟨fun use => ?row, fun use => ?scale, fun use => ?weight, fun use => ?stores⟩
    case row | scale | weight =>
      rw [s.flights_deliver_latch (congrArg ReadUse.latch use) t, use]
      rfl
    case stores =>
      have fills : r.use.latch = some id := by obtain use | use | use := use <;> exact congrArg ReadUse.latch use
      exact s.sameStores_deliver_latch fills t
  all_goals exact fun _ => issuesAs_of_runSlot fun _ => rfl

end Sys2Proof.Machine
end

section
/-! PROOFS. Padded links, and the messages of pod barriers and their lost members (R298, R301, R304, R305, R307, R338, R368, R369). -/

namespace Sys2Proof.Machine

/-- What is added to a list that may have it already stands in the list. -/
theorem mem_addNew {α : Type} [BEq α] [LawfulBEq α] (a : α) (xs : List α) : a ∈ if xs.contains a then xs else xs ++ [a] := by
  split
  case isTrue listed => exact List.contains_iff_mem.1 listed
  case isFalse => exact List.mem_append_right _ (List.mem_singleton_self _)

/-! ### Acceptance (R304, R307) -/

/-- A tile whose link port has taken a mark. -/
def State.takeMark (s : State) (t : Nat) (m : Mark) : State :=
  s.onTile t fun x => { x with bar := { x.bar with marks := x.bar.marks.erase m, portAt := s.icc t + 1 } }

theorem State.takeMark_marks (s : State) (t : Nat) (m : Mark) :
    ((s.takeMark t m).tile t).bar.marks = (s.tile t).bar.marks.erase m := by
  rw [State.takeMark, State.tile_onTile_self]

theorem State.takeMark_st (s : State) (t : Nat) (m : Mark) : ((s.takeMark t m).tile t).st = (s.tile t).st := by
  rw [State.takeMark, State.tile_onTile_self]

section
variable {t chan : Nat} {m : Mark} {k : Task} {l : Launch} {e : LinkEntry} {s : State} (part : t < Config.tiles)
  (mark : (s.tile t).bar.nextMark = some m) (task : (s.tile t).task = some k) (launch : s.launch k.serial = some l)
  (channel : (s.channels k).find? (fun e => e.1 == chan) = some (chan, e)) (own : m.chan = chan)
  (free : (s.tile t).bar.portAt ≤ s.icc t) (marked : m.cycle < s.icc t)
include part mark task launch channel own free marked

/-- The link port takes its next mark: the line fails at the sender, or is sent as it stands. -/
theorem exec_linkLineAccept : exec (.linkLineAccept t chan) s = .next (
    if (s.takeMark t m).linkDown (l.route e t).2 then (s.takeMark t m).found t (trapOf 0xE 0x53)
    else { (s.takeMark t m).fresh.2 with
      lines := s.lines ++ [(s.takeMark t m).fresh.2.sentLine t k.serial m s.nextId (l.route e t)] }) := by
  have goes : (m.chan != chan || decide (s.icc t < (s.tile t).bar.portAt) || decide (s.icc t ≤ m.cycle)) = false := by
    simp [own, free, marked]
  show execLinkLineAccept t chan s = _
  simp only [execLinkLineAccept, ge_iff_le, Nat.not_le.2 part, if_false, mark, task, launch, channel, goes, Bool.false_eq_true]
  rw [apply_ite Host.Outcome.next]
  rfl

theorem exec_linkLineAccept_down (down : (s.takeMark t m).linkDown (l.route e t).2 = true) :
    exec (.linkLineAccept t chan) s = .next ((s.takeMark t m).found t (trapOf 0xE 0x53)) := by
  rw [exec_linkLineAccept part mark task launch channel own free marked, if_pos down]

theorem completes_linkLineAccept (up : (s.takeMark t m).linkDown (l.route e t).2 = false) :
    Completes (.linkLineAccept t chan) s fun u =>
      u.lines = s.lines ++ [{ seq := s.nextId, src := t, serial := k.serial, chan := chan, line := m.line
                              bytes := readBytes (s.tile t).st m.addr 64, due := s.pcc + (l.route e t).1, link := (l.route e t).2
                              writers := m.by_.map fun w => w.getD t }] ∧
      (u.tile t).bar.marks = (s.tile t).bar.marks.erase m ∧ (u.tile t).st = (s.tile t).st := by
  have sends : exec (.linkLineAccept t chan) s = .next { (s.takeMark t m).fresh.2 with
      lines := s.lines ++ [(s.takeMark t m).fresh.2.sentLine t k.serial m s.nextId (l.route e t)] } := by
    rw [exec_linkLineAccept part mark task launch channel own free marked, if_neg (ne_true_of_eq_false up)]
  refine ⟨_, sends, ?lines, s.takeMark_marks t m, s.takeMark_st t m⟩
  case lines =>
    show s.lines ++ [(s.takeMark t m).fresh.2.sentLine t k.serial m s.nextId (l.route e t)] = _
    rw [State.sentLine, State.tile_fresh, s.takeMark_st t m, own]
    rfl

end

/-! ### Delivery and failure (R304, R305, R307, R338) -/

/-- The links without a line. -/
def State.withoutLine (s : State) (n : Nat) : State := { s with lines := s.lines.filter fun f => f.seq != n }

section
variable {n : Nat} {e : LinkLine} {s : State} (listed : s.lines.find? (fun e => e.seq == n) = some e)
include listed

theorem exec_linkDeliveryFailure (down : s.linkDown e.link = true) (part : e.src < Config.tiles) :
    exec (.linkDeliveryFailure n) s = .next ((s.withoutLine n).found e.src (trapOf 0xE 0x53)) := by
  show execLinkDeliveryFailure n s = _
  simp only [execLinkDeliveryFailure, listed, down, Bool.not_true, Bool.false_eq_true, if_false, if_pos part]
  rfl

variable (up : s.linkDown e.link = false) (first : ∀ f ∈ s.lines, f.seq < n → f.serial = e.serial → f.chan ≠ e.chan)
include up first

/-- A line that no link and no earlier line holds comes to its receiver's tile, or to the link by which it leaves. -/
theorem exec_linkLineDelivery : exec (.linkLineDelivery n) s =
    if e.link.isSome then .next (s.withoutLine n)
    else (s.lineTarget e).elim (.next (if s.lineWaits e then s else s.withoutLine n)) fun p =>
      .next { s.withoutLine n with landings := s.landings ++ [{ tile := p.1, addr := p.2 + 64 * e.line, line := e }] } := by
  have goes : (s.linkDown e.link || s.lines.any fun f => decide (f.seq < n) && f.serial == e.serial && f.chan == e.chan) = false := by
    simpa [up] using first
  show execLinkLineDelivery n s = _
  simp only [execLinkLineDelivery, listed, goes, Bool.false_eq_true, if_false]
  cases s.lineTarget e <;> rfl

theorem exec_linkLineDelivery_leaves (away : e.link ≠ none) : exec (.linkLineDelivery n) s = .next (s.withoutLine n) := by
  rw [exec_linkLineDelivery listed up first, if_pos (Option.isSome_iff_ne_none.2 away)]

variable (here : e.link = none)
include here

theorem exec_linkLineDelivery_unreceived (gone : s.lineTarget e = none) :
    exec (.linkLineDelivery n) s = .next (if s.lineWaits e then s else s.withoutLine n) := by
  rw [exec_linkLineDelivery listed up first, here, gone]
  rfl

theorem exec_linkLineDelivery_arrives {t base : Nat} (target : s.lineTarget e = some (t, base)) :
    exec (.linkLineDelivery n) s =
      .next { s.withoutLine n with landings := s.landings ++ [{ tile := t, addr := base + 64 * e.line, line := e }] } := by
  rw [exec_linkLineDelivery listed up first, here, target]
  rfl

end

/-! ### The last writes of a cycle (R304, R305) -/

theorem State.tile_landLine (s : State) (e : Landing) : let y := (s.landLine e).tile e.tile
    y.st = writeBytes (s.tile e.tile).st e.addr e.line.bytes ∧ (e.line.chan, e.line.line) ∈ y.bar.full ∧
      y.regs = (s.tile e.tile).regs := by
  simp only [State.landLine, State.tile_onTile_self, Tile.stageBy_st, Tile.stageBy_regs, true_and, and_true]
  exact mem_addNew ..

theorem State.landLines_one {s : State} {e : Landing} {ts : List Nat} (one : s.landings = [e]) (part : e.tile ∈ ts) :
    s.landLines ts = ({ s with landings := [] } : State).landLine e := by
  simp [State.landLines, one, part, sortBy, insertBy]

/-! ### Messages of pod barriers (R298, R301, R369) -/

/-- A barrier that has heard of a package's arrival. -/
def Barrier.hear (b : Barrier) (rank : Nat) : Barrier :=
  { b with heard := if b.heard.contains rank then b.heard else b.heard ++ [rank] }

theorem Barrier.mem_hear (b : Barrier) (rank : Nat) : rank ∈ (b.hear rank).heard := mem_addNew rank b.heard

/-- A barrier learns of the pod's last arrival alone. -/
theorem Barrier.learn_same (b : Barrier) (l : Launch) (now : Nat) : ∃ c, b.learn l now = { b with learned := c } := by
  unfold Barrier.learn
  split <;> exact ⟨_, rfl⟩

theorem Barrier.isOf_learn (b : Barrier) (l : Launch) (now serial lev group : Nat) :
    (b.learn l now).isOf serial lev group = b.isOf serial lev group := by
  obtain ⟨c, same⟩ := b.learn_same l now
  rw [same]
  rfl

theorem Barrier.learn_heard (b : Barrier) (l : Launch) (now : Nat) : (b.learn l now).heard = b.heard := by
  obtain ⟨c, same⟩ := b.learn_same l now
  rw [same]

/-- A group has a barrier record once its record is changed: a changed one. -/
theorem State.mem_onBarrier (s : State) (serial lev group : Nat) (f : Barrier → Barrier) :
    ∃ b, f b ∈ (s.onBarrier serial lev group f).barriers ∧ b.isOf serial lev group = true := by
  unfold State.onBarrier
  split
  case isTrue listed =>
    obtain ⟨b, mem, of⟩ := List.any_eq_true.1 listed
    exact ⟨b, List.mem_map.2 ⟨b, mem, if_pos of⟩, of⟩
  case isFalse => exact ⟨_, List.mem_append_right _ (List.mem_singleton_self _), by simp [Barrier.isOf]⟩

/-- What a message of a pod barrier makes of the state. -/
def State.podNews (s : State) (l : Launch) (serial lev rank : Nat) : BarrierNews → State
  | .lost role => if rank = l.podRank then s else s.podLost l serial lev rank role
  | .cut => s.cutOff l serial lev
  | .release => if s.parentUp l then s.onBarrier serial lev 0 fun b => if b.last.isSome then { b with learned := some s.pcc } else b
    else s.cutOff l serial lev
  | .arrival => if rank = l.podRank then if s.treeCut l (s.heardOf serial lev) then s.cutOff l serial lev else s
    else s.onBarrier serial lev 0 fun b => (b.hear rank).learn l s.pcc

section
variable {serial lev : Nat} {l : Launch} {s : State} (level : lev < 8) (launch : s.launch serial = some l)
  (domain : l.domain lev = 4) (levels : lev < l.levels)
include level launch domain levels

/-- A message for a level of pod domain has its effect. -/
theorem exec_barrierMessage (what : BarrierNews) (rank : Nat) :
    exec (.barrierMessage serial lev what rank) s = .next (s.podNews l serial lev rank what) := by
  have pod : (l.domain lev != 4 || decide (l.levels ≤ lev)) = false := by simp [domain, levels]
  show execBarrierMessage serial lev what rank s = _
  simp only [execBarrierMessage, Nat.not_le.2 level, launch, pod, Bool.false_eq_true, if_false]
  cases what with
  | lost role => rfl
  | cut => rfl
  | release => cases up : s.parentUp l <;> simp only [State.podNews, up] <;> rfl
  | arrival =>
    simp only [State.podNews, apply_ite Host.Outcome.next]
    rfl

/-- The arrival of another package is noted in the group's barrier; no tile, launch or byte of memory changes. -/
theorem completes_barrierMessage_arrival {rank : Nat} (other : rank ≠ l.podRank) :
    Completes (.barrierMessage serial lev .arrival rank) s fun u =>
      u.tiles = s.tiles ∧ u.launches = s.launches ∧ u.mem = s.mem ∧
        ∃ b ∈ u.barriers, b.isOf serial lev 0 = true ∧ rank ∈ b.heard := by
  obtain ⟨bs, same⟩ := s.onBarrier_same serial lev 0 fun b => (b.hear rank).learn l s.pcc
  obtain ⟨b, mem, of⟩ := s.mem_onBarrier serial lev 0 fun b => (b.hear rank).learn l s.pcc
  refine ⟨_, (exec_barrierMessage level launch domain levels .arrival rank).trans (congrArg Host.Outcome.next (if_neg other)),
    ?tiles, ?launches, ?mem, _, mem, ?group, ?heard⟩
  case tiles | launches | mem => rw [same]
  case group => exact (Barrier.isOf_learn ..).trans of
  case heard =>
    rw [Barrier.learn_heard]
    exact b.mem_hear rank

end

/-! ### What the tree's root learns (R298, R369) -/

section
variable {b : Barrier} {l : Launch} {now : Nat}

theorem Barrier.learn_last (domain : l.domain b.lev = 4) (root : l.root = true) (last : b.last ≠ none)
    (unlearned : b.learned = none) (heard : l.podN ≤ b.heard.length + 1) : b.learn l now = { b with learned := some now } := by
  have arrived : b.last.isSome = true := Option.isSome_iff_ne_none.2 last
  exact if_pos (by simp [domain, root, arrived, unlearned, heard])

theorem Barrier.learn_nothing (waits : l.root = false ∨ b.last = none ∨ b.learned ≠ none ∨ b.heard.length + 1 < l.podN) :
    b.learn l now = b := by
  refine if_neg ?_
  obtain below | unfilled | learned | missing := waits
  · simp [below]
  · simp [unfilled]
  · simp [learned]
  · simp [missing]

end

/-! ### Lost members (R301) -/

theorem State.launches_foldl {α : Type} {f : State → α → State} (keep : ∀ s a, (f s a).launches = s.launches) (as : List α) (s : State) :
    (as.foldl f s).launches = s.launches :=
  List.foldlRecOn as f (motive := fun u => u.launches = s.launches) rfl fun u same a _ => (keep u a).trans same

theorem State.launches_onRoleBar (s : State) (l : Launch) (serial role : Nat) (f : Bar → Bar) :
    (s.onRoleBar l serial role f).launches = s.launches := by
  unfold State.onRoleBar
  split <;> rfl

/-- A loss in another package is named once in the launch's status. -/
theorem State.launch_podLost {s : State} {serial : Nat} {l : Launch} (launch : s.launch serial = some l) (lev rank role : Nat) :
    (s.podLost l serial lev rank role).launch serial =
      some { l with lost := if l.lost.contains (rank, role) then l.lost else l.lost ++ [(rank, role)] } :=
  (congrArg (find serial) (State.launches_foldl (fun s r => s.launches_onRoleBar l serial r _) _ _)).trans
    (State.launch_onLaunch_self launch _)

/-- A task's own abnormal end is named with this package. -/
theorem State.launch_roleLost {s : State} {serial : Nat} {l : Launch} (launch : s.launch serial = some l) (role : Nat) :
    (s.roleLost serial role).launch serial = some { l with lost := l.lost ++ [(l.podRank, role)] } := by
  simp only [State.roleLost, launch]
  exact (congrArg (find serial) (State.launches_foldl
    (fun s lev => State.launches_foldl (fun s r => s.launches_onRoleBar l serial r _) _ _) _ _)).trans
    (State.launch_onLaunch_self launch _)

/-! ### The obligation -/

/-- Settles O31: a line and a barrier's message each have the one outcome that the links, the receiver and the tree give them. -/
theorem paddedLinkSteps : Obligations.PaddedLinkSteps := by
  unfold Obligations.PaddedLinkSteps
  refine ⟨?accept, ?delivery, ?landing, ?failure, ?message, ?learn, ?elsewhere, ?here⟩
  case accept =>
    exact fun _ _ _ _ _ _ _ part mark task launch channel own free marked =>
      ⟨exec_linkLineAccept_down part mark task launch channel own free marked,
        completes_linkLineAccept part mark task launch channel own free marked⟩
  case delivery =>
    intro n e s listed up first
    refine ⟨exec_linkLineDelivery_leaves listed up first, fun here gone => ?unreceived,
      fun here _ _ target => exec_linkLineDelivery_arrives listed up first here target⟩
    have unreceived := exec_linkLineDelivery_unreceived listed up first here gone
    exact ⟨fun waits => by rw [unreceived, if_pos waits], fun left => by rw [unreceived, if_neg (ne_true_of_eq_false left)]; rfl⟩
  case landing =>
    intro e ts s one part _ u
    have landed : u = ({ s with landings := [] } : State).landLine e := State.landLines_one one part
    rw [landed]
    exact ⟨rfl, State.tile_landLine _ e⟩
  case failure => exact fun _ _ _ listed => exec_linkDeliveryFailure listed
  case message =>
    intro serial lev rank l s level launch domain levels
    have told := exec_barrierMessage level launch domain levels
    refine ⟨fun down => (told _ _).trans (congrArg _ (if_neg (ne_true_of_eq_false down))),
      fun up => (told _ _).trans (congrArg _ (if_pos up)), told _ _, completes_barrierMessage_arrival level launch domain levels,
      fun cut => (told _ _).trans (congrArg _ ((if_pos rfl).trans (if_pos cut))),
      fun role other => (told _ _).trans (congrArg _ (if_neg other))⟩
  case learn =>
    exact fun _ _ _ domain => ⟨fun ⟨root, last, unlearned, heard⟩ => Barrier.learn_last domain root last unlearned heard,
      Barrier.learn_nothing⟩
  case elsewhere =>
    intro serial lev rank role l s launch
    exact ⟨_, State.launch_podLost launch lev rank role, mem_addNew (rank, role) l.lost, rfl, rfl⟩
  case here =>
    exact fun _ role _ _ launch => ⟨_, State.launch_roleLost launch role, List.mem_append_right _ (List.mem_singleton_self _), rfl⟩

end Sys2Proof.Machine
end

section
/-! PROOFS. Lantern ports and their messages, the throttle command, the time of day and host windows (R333, R334, R357 to R360, R378; log
entries 112 and 121). -/

namespace Sys2Proof.Machine

/-! ### Links of the ports (R358, R378) -/

/-- A port without its link, lost on a pcc cycle. -/
def Port.lose (p : Port) (c : Nat) : Port := { p with up := false, lostAt := some c, lossTold := false }

/-- A port that has its link again, with the loss forgotten. -/
def Port.regain (p : Port) : Port := { p with up := true, had := true, lostAt := none, lossTold := false }

/-- A port that loses its link is down from that cycle on, its service bit is set, and the owner stays the owner. -/
theorem completes_lanternLinkLoss {port : Nat} {s : State} (part : port < 2) (ready : s.boot = .ready)
    (lit : (vget { } s.ports port).up = true) : Completes (.lanternLinkLoss port) s fun u =>
      (vget { } u.ports port).up = false ∧ (vget { } u.ports port).lostAt = some s.pcc ∧ u.svc = s.svc ||| BitVec.twoPow 8 2 ∧
      u.owner = s.owner ∧ u.tiles = s.tiles := by
  let down : State := { s with ports := vset s.ports port ((vget { } s.ports port).lose s.pcc) }
  have loses : exec (.lanternLinkLoss port) s = .next (down.reportFault 2 4 port port) := by
    change execLanternLinkLoss port s = _
    simp [execLanternLinkLoss, Nat.not_le.2 part, lit, ready, down, Port.lose]
  obtain ⟨_, _, _, _, reported⟩ := down.reportFault_same 2 4 port port
  refine ⟨_, loses, ?_⟩
  rw [reported]
  simp [down, vget_vset_self _ _ _ part, Port.lose]

/-- A port whose link returns is up again. -/
theorem exec_lanternLinkReturn {port : Nat} {s : State} (part : port < 2) (powered : s.boot ≠ .off) :
    exec (.lanternLinkReturn port) s = .next { s with ports := vset s.ports port (vget { } s.ports port).regain } := by
  change execLanternLinkReturn port s = _
  simp [execLanternLinkReturn, Nat.not_le.2 part, powered, Port.regain]

/-! ### Messages (R357, R359, R378, R380) -/

/-- Another node's command in its session is refused, logged, and told to both nodes (R357). -/
theorem State.asOwner_refuses {s : State} {port : Nat} (ready : s.boot = .ready) (heard : s.heard port = true)
    (other : s.commander ≠ some port) (f : State → State) :
    s.asOwner port f = ((s.logIt 5 1 port 0).tell port (.refused 0)).tell (1 - port) (.warning 5 port) := by
  simp [State.asOwner, ready, heard, other]

/-- Whether a message of a port authenticates: its link is up, and its session key verifies the message (R355, R359). -/
def State.authenticates (s : State) (port message : Nat) : Bool :=
  s.heard port && (vget { } s.ports port).session.any (Config.gcmValid · message)

/-- What an authenticated message of a port leaves. -/
def State.obey (s : State) (port : Nat) : LanternUse → State
  | .command => s.asOwner port id
  | .throttle islands c m v k => s.asOwner port fun s => (s.throttleAll islands #v[c, m, v, k]).doneTo port
  | .service => s.tell port (.words [s.svc.toNat])
  | .log => s.tell port (.bytes (leBytes 4 s.overwritten ++ s.log.flatMap LogRec.bytes))
  | .other => s

/-- A message is acted on where it authenticates, and is otherwise discarded and counted (R359). -/
theorem exec_lanternMessage {port : Nat} {s : State} (part : port < 2) (ready : s.boot = .ready) (message : Nat) (use : LanternUse) :
    exec (.lanternMessage port message use) s =
      .next (if s.authenticates port message then s.obey port use else s.logIt 5 3 port 0) := by
  change execLanternMessage port message use s = _
  unfold execLanternMessage
  rw [if_neg (Nat.not_le.2 part), if_neg (by simp [ready])]
  extract_lets good
  have verified : good = s.authenticates port message := by
    simp only [good, State.authenticates]
    cases (vget { } s.ports port).session <;> rfl
  rw [verified]
  cases s.authenticates port message <;> rfl

theorem State.authenticates_of_key {s : State} {port message k : Nat} (heard : s.heard port = true)
    (session : (vget { } s.ports port).session = some k) (valid : Config.gcmValid k message = true) :
    s.authenticates port message = true := by
  simp [State.authenticates, heard, session, valid]

theorem State.not_authenticates {s : State} {port message : Nat} (fails : s.heard port = false ∨
    ∀ k, (vget { } s.ports port).session = some k → Config.gcmValid k message = false) : s.authenticates port message = false := by
  obtain unheard | invalid := fails
  · simp [State.authenticates, unheard]
  · cases session : (vget { } s.ports port).session with
    | none => simp [State.authenticates, session]
    | some k => simp [State.authenticates, session, invalid k session]

/-! ### The throttle command (R333, R334; log entry 121) -/

/-- An island with the floors of a throttle command in place of those before it, each clamped into 1 to 8. -/
def Island.throttled (x : Island) (floors : Vector (BitVec 4) 4) : Island :=
  { x with throttle := floors.map fun f => max 1 (min 8 f.toNat) }

/-- A set of islands is throttled one island after another; a number that names no island is passed over. -/
theorem State.throttleAll_cons (s : State) (j : Nat) (js : List Nat) (floors : Vector (BitVec 4) 4) :
    s.throttleAll (j :: js) floors = if j < Config.islands then (s.throttleIsland floors j).throttleAll js floors
      else s.throttleAll js floors := by
  by_cases part : j < Config.islands
  · rw [if_pos part, State.throttleAll, List.filter_cons_of_pos (by simpa using part), List.foldl_cons]
    rfl
  · rw [if_neg part, State.throttleAll, List.filter_cons_of_neg (by simpa using part)]
    rfl

/-- The command sets the floors of the islands it names, and leaves the others as they were. -/
theorem State.throttleAll_island {i : Nat} (part : i < Config.islands) (floors : Vector (BitVec 4) 4) (islands : List Nat) :
    ∀ s : State, (s.throttleAll islands floors).island i =
      if i ∈ islands then (s.island i).throttled floors else s.island i := by
  induction islands with
  | nil => exact fun _ => rfl
  | cons j js ih =>
    intro s
    rw [State.throttleAll_cons]
    by_cases same : i = j
    · subst same
      rw [if_pos part, ih, State.throttleIsland_island, if_pos rfl, if_pos (List.mem_cons_self ..)]
      exact ite_self _
    · have rest : (s.throttleIsland floors j).island i = s.island i := by rw [State.throttleIsland_island, if_neg same]
      have named : (i ∈ j :: js) = (i ∈ js) := by simp [same]
      split <;> simp only [ih, rest, named]

/-- The command changes no tile, and brings no notice to its tile yet. -/
theorem State.throttleAll_frame (s : State) (islands : List Nat) (floors : Vector (BitVec 4) 4) :
    (s.throttleAll islands floors).tiles = s.tiles ∧ (s.throttleAll islands floors).delivered = s.delivered := by
  obtain ⟨_, _, same⟩ := s.throttleAll_same islands floors
  rw [same]
  exact ⟨rfl, rfl⟩

theorem mem_islandTiles (t : Nat) : t ∈ islandTiles (t / 16) :=
  List.mem_map.2 ⟨t % 16, List.mem_range.2 (Nat.mod_lt _ (by decide)), Nat.div_add_mod t 16⟩

/-- A tile of a throttled island whose task can take a notice is sent the island's new floors. -/
theorem State.notices_throttleIsland {s : State} {t : Nat} (can : (s.tile t).noticed = true) (floors : Vector (BitVec 4) 4) :
    (t, ((s.island (t / 16)).throttled floors).floorNotice, s.pcc) ∈ (s.throttleIsland floors (t / 16)).notices :=
  List.mem_append_right _ (List.mem_map.2 ⟨t, List.mem_filter.2 ⟨mem_islandTiles t, can⟩, rfl⟩)

/-- Notices decided on stay decided on under a throttle command. -/
theorem State.mem_notices_throttleAll {s : State} {e : Nat × Notice × Nat} (decided : e ∈ s.notices) (islands : List Nat)
    (floors : Vector (BitVec 4) 4) : e ∈ (s.throttleAll islands floors).notices := by
  obtain ⟨_, _, same⟩ := s.throttleAll_same islands floors
  rw [same]
  exact List.mem_append_left _ decided

/-- The tasks of the islands that the command names are sent the notice. -/
theorem State.notices_throttleAll {t : Nat} (part : t / 16 < Config.islands) (floors : Vector (BitVec 4) 4) (islands : List Nat) :
    ∀ s : State, (s.tile t).noticed = true → t / 16 ∈ islands →
      (t, ((s.island (t / 16)).throttled floors).floorNotice, s.pcc) ∈ (s.throttleAll islands floors).notices := by
  induction islands with
  | nil => exact fun _ _ named => absurd named List.not_mem_nil
  | cons j js ih =>
    intro s can named
    rw [State.throttleAll_cons]
    by_cases first : t / 16 = j
    · subst first
      rw [if_pos part]
      exact State.mem_notices_throttleAll (State.notices_throttleIsland can floors) js floors
    · have later : t / 16 ∈ js := (List.mem_cons.1 named).resolve_left first
      split
      · have sent := ih (s.throttleIsland floors j) can later
        rw [State.throttleIsland_island, if_neg first] at sent
        exact sent
      · exact ih s can later

/-! ### The time of day and host windows (R360) -/

/-- A time message of the owner steps sr.ptp where the offset is above 1 µs, and slews it otherwise. -/
theorem exec_ptpMessage {port sec ns : Nat} {s : State} (part : port < 2) (ready : s.boot = .ready) (owner : s.owner = some port)
    (isTime : ns < 1000000000) :
    let now : Nat := sec % 2 ^ 34 * 1000000000 + ns
    let off := (now : Int) - (s.ptpNs : Int)
    exec (.ptpMessage port sec ns) s =
      .next (if 1000 < off.natAbs then { s with ptpNs := now, ptpFrac := 0, ptpSlew := 0 } else { s with ptpSlew := off }) := by
  intro now off
  change execPtpMessage port sec ns s = _
  have enabled : ¬ (s.boot != .ready || s.owner != some port || decide (1000000000 ≤ ns)) = true := by
    simp [ready, owner, isTime]
  rw [execPtpMessage, if_neg (Nat.not_le.2 part), if_neg enabled]

/-- The owner opens a window that has bytes and ends in the space of windows, where 64 are not yet open. -/
theorem exec_hostWindowOpen {port : Nat} {s : State} (own : Owns s port) (base size node : Nat) :
    exec (.hostWindowOpen port base size node) s =
      .next (if 64 ≤ s.windows.length || size = 0 || 2 ^ 36 < base + size then s.refuseTo port 0
        else ({ s with windows := s.windows ++ [(base, size, node)] } : State).doneTo port) := by
  change execHostWindowOpen port base size node s = _
  rw [execHostWindowOpen, if_neg (Nat.not_le.2 own.1), own.asOwner]

/-! ### The obligation -/

/-- Settles O38: a message has the one effect that its port's session and owner give it, and the throttle command is followed from island to
island of its set. -/
theorem lanternSteps : Obligations.LanternSteps := by
  unfold Obligations.LanternSteps
  refine ⟨?loss, ?returns, ?discarded, ?message, ?throttle, ?time, ?opened, ?full⟩
  case loss => exact fun _ _ part ready lit => completes_lanternLinkLoss part ready lit
  case returns =>
    intro port s part powered
    refine ⟨_, exec_lanternLinkReturn part powered, ?_⟩
    simp [vget_vset_self _ _ _ part, Port.regain]
  case discarded =>
    intro port message use s part ready fails
    rw [exec_lanternMessage part ready, State.not_authenticates fails]
    rfl
  case message =>
    intro port message k s part ready heard session valid
    have obeyed (use : LanternUse) : exec (.lanternMessage port message use) s = .next (s.obey port use) := by
      rw [exec_lanternMessage part ready, State.authenticates_of_key heard session valid]
      rfl
    refine ⟨fun owner => ?_, fun other => ?_, fun islands c m v k' => ⟨fun owner => ?_, fun other => ?_⟩,
      obeyed _, obeyed _, obeyed _⟩
    · rw [obeyed, State.obey, State.asOwner_of ready heard owner, id]
    · rw [obeyed, State.obey, State.asOwner_refuses ready heard other]
    · rw [obeyed, State.obey, State.asOwner_of ready heard owner]
    · rw [obeyed, State.obey, State.asOwner_refuses ready heard other]
  case throttle =>
    intro islands floors i s part u
    have island := State.throttleAll_island part floors islands s
    refine ⟨fun named => ?_, fun unnamed => island.trans (if_neg unnamed), s.throttleAll_frame islands floors⟩
    have throttled : u.island i = (s.island i).throttled floors := island.trans (if_pos named)
    rw [throttled]
    refine ⟨rfl, rfl, fun t here can => ?_⟩
    subst here
    exact State.notices_throttleAll part floors islands s can named
  case time =>
    intro port sec ns s part ready owner isTime now off
    have disciplined := exec_ptpMessage part ready owner isTime (sec := sec)
    exact ⟨fun above => disciplined.trans (congrArg _ (if_pos above)),
      fun within => disciplined.trans (congrArg _ (if_neg (Nat.not_lt.2 within)))⟩
  case opened =>
    intro port base size node s own room bytes fits
    have opens : ¬ (decide (64 ≤ s.windows.length) || decide (size = 0) || decide (2 ^ 36 < base + size)) = true := by
      simp only [Bool.or_eq_true, decide_eq_true_eq]
      omega
    exact (exec_hostWindowOpen own base size node).trans (congrArg _ (if_neg opens))
  case full =>
    intro port base size node s own full
    exact (exec_hostWindowOpen own base size node).trans (congrArg _ (if_pos (by simp [full])))

end Sys2Proof.Machine
end

section
/-! PROOFS. Power and boot: the wake pattern, the firmware push and the hold of a stopped boot (R349 to R354, R371, R374; log entries
8, 46 and 94). -/

namespace Sys2Proof.Machine

/-! ### Codes of boot (R351, R380) -/

/-- A code of boot is logged, and told on the waking port. -/
theorem State.bootCode_same (s : State) (code : Nat) : ∃ lg ov, s.bootCode code =
    { s with log := lg, overwritten := ov, told := s.told ++ [(s.waking, .boot code)] } := by
  obtain ⟨lg, ov, logged⟩ := s.logIt_same 13 code s.waking 0
  exact ⟨lg, ov, by rw [State.bootCode, logged]; rfl⟩

/-- Where the log has room, a code of boot is a record more. -/
theorem State.log_bootCode {s : State} (room : s.log.length < 4096) (code : Nat) :
    (s.bootCode code).log = s.log ++ [{ pcc := s.pcc, source := 13, code := code, place := s.waking, detail := 0 }] := by
  change (s.logIt 13 code s.waking 0).log = _
  rw [State.logIt, if_neg (Nat.not_le.2 room)]

/-- The codes of the stages passed are logged, and told on the waking port in their order. -/
theorem State.stages_same (codes : List Nat) : ∀ s : State, ∃ lg ov, s.stages codes =
    { s with log := lg, overwritten := ov, told := s.told ++ codes.map fun code => (s.waking, .boot code) } := by
  induction codes with
  | nil => exact fun s => ⟨s.log, s.overwritten, by simp [State.stages]⟩
  | cons code codes ih =>
    intro s
    obtain ⟨lg, ov, first⟩ := s.bootCode_same code
    obtain ⟨lg', ov', rest⟩ := ih (s.bootCode code)
    refine ⟨lg', ov', ?_⟩
    change (s.bootCode code).stages codes = _
    rw [rest, first]
    simp

@[simp] theorem State.stages_waking (s : State) (codes : List Nat) : (s.stages codes).waking = s.waking := by
  obtain ⟨_, _, e⟩ := s.stages_same codes; rw [e]
@[simp] theorem State.stages_wakes (s : State) (codes : List Nat) : (s.stages codes).wakes = s.wakes := by
  obtain ⟨_, _, e⟩ := s.stages_same codes; rw [e]
@[simp] theorem State.stages_tiles (s : State) (codes : List Nat) : (s.stages codes).tiles = s.tiles := by
  obtain ⟨_, _, e⟩ := s.stages_same codes; rw [e]
@[simp] theorem State.stages_mem (s : State) (codes : List Nat) : (s.stages codes).mem = s.mem := by
  obtain ⟨_, _, e⟩ := s.stages_same codes; rw [e]
@[simp] theorem State.stages_launches (s : State) (codes : List Nat) : (s.stages codes).launches = s.launches := by
  obtain ⟨_, _, e⟩ := s.stages_same codes; rw [e]
@[simp] theorem State.stages_record (s : State) (codes : List Nat) : (s.stages codes).record = s.record := by
  obtain ⟨_, _, e⟩ := s.stages_same codes; rw [e]
@[simp] theorem State.stages_owner (s : State) (codes : List Nat) : (s.stages codes).owner = s.owner := by
  obtain ⟨_, _, e⟩ := s.stages_same codes; rw [e]
@[simp] theorem State.stages_told (s : State) (codes : List Nat) :
    (s.stages codes).told = s.told ++ codes.map fun code => (s.waking, .boot code) := by
  obtain ⟨_, _, e⟩ := s.stages_same codes; rw [e]

/-- A boot stopped with a code told on a port (R351). -/
def State.StoppedBoot (s : State) (port code : Nat) : Prop := s.boot = .failed code ∧ (port, Told.boot code) ∈ s.told

theorem State.stoppedBoot_bootFails (s : State) (code : Nat) : (s.bootFails code).StoppedBoot s.waking code := by
  obtain ⟨_, _, coded⟩ := s.bootCode_same code
  rw [State.bootFails, coded]
  exact ⟨rfl, List.mem_append_right _ (List.mem_singleton_self _)⟩

/-! ### The wake pattern (R349, R350, R352, R354) -/

/-- The package as the wake pattern powers it: without state, with light on the ports that brought the pattern. -/
def State.woken (s : State) (on : WakeOn) : State :=
  { s.powerOff with
    wakes := s.wakes + 1, waking := wakingPort on
    ports := if on = .both then Vector.replicate 2 { up := true, had := true }
      else vset s.powerOff.ports (wakingPort on) { up := true, had := true } }

/-- The package past its power stage. -/
def State.powered (s : State) (on : WakeOn) : State := (s.woken on).stages [1]

/-- The package past its record stage. -/
def State.recorded (s : State) (on : WakeOn) (r : ConfigRecord) : State := ({ s.powered on with record := some r } : State).stages [2]

/-- The package past its identity stage, which awaits a firmware image. -/
def State.identified (s : State) (on : WakeOn) (r : ConfigRecord) : State := { (s.recorded on r).stages [3] with boot := .firmware }

@[simp] theorem State.powered_waking (s : State) (on : WakeOn) : (s.powered on).waking = wakingPort on := State.stages_waking _ _
@[simp] theorem State.recorded_waking (s : State) (on : WakeOn) (r : ConfigRecord) : (s.recorded on r).waking = wakingPort on :=
  (State.stages_waking _ _).trans (s.powered_waking on)
@[simp] theorem State.recorded_wakes (s : State) (on : WakeOn) (r : ConfigRecord) : (s.recorded on r).wakes = s.wakes + 1 :=
  (State.stages_wakes _ _).trans (State.stages_wakes _ _)

section
variable {on : WakeOn} {s : State} (part : wakingPort on < 2) (unpowered : s.boot = .off ∨ ∃ c, s.boot = .failed c)
include part unpowered

theorem exec_wakePattern_noRail (record : Option ConfigRecord) :
    exec (.wakePattern on record false) s = .next ((s.woken on).bootFails 0x81) := by
  change execWakePattern on record false s = _
  rw [execWakePattern, if_neg (Nat.not_le.2 part)]
  obtain off | ⟨c, failed⟩ := unpowered
  · rw [off]; rfl
  · rw [failed]; rfl

theorem exec_wakePattern_noRecord : exec (.wakePattern on none true) s = .next ((s.powered on).bootFails 0x82) := by
  change execWakePattern on none true s = _
  rw [execWakePattern, if_neg (Nat.not_le.2 part)]
  obtain off | ⟨c, failed⟩ := unpowered
  · rw [off]; rfl
  · rw [failed]; rfl

/-- A record is checked for its keys and signature, then its version; then the identity is checked against it. -/
theorem exec_wakePattern_record (r : ConfigRecord) : exec (.wakePattern on (some r) true) s = .next (
    if 8 < r.keys.length || !ed448Valid Config.vendorKey (digestBytes (recordBytes r)) r.sig then (s.powered on).bootFails 0x82
    else if !Config.recordVersion r.version then (s.powered on).bootFails 0x83
    else if ed448Public (identitySeed (s.wakes + 1) r) ≠ r.identity then (s.recorded on r).bootFails 0x84
    else s.identified on r) := by
  change execWakePattern on (some r) true s = _
  rw [execWakePattern, if_neg (Nat.not_le.2 part)]
  extract_lets go o p u v
  have goes : go = true := by
    obtain off | ⟨c, failed⟩ := unpowered
    · simp only [go, off]
    · simp only [go, failed]
  rw [goes, Bool.not_true, if_neg Bool.false_ne_true, if_neg Bool.false_ne_true]
  dsimp -zeta only
  extract_lets w x
  have passed : v = s.powered on := rfl
  have listed : w = s.recorded on r := rfl
  have identified : ({ x with boot := .firmware } : State) = s.identified on r := rfl
  rw [identified, listed, passed, State.recorded_wakes]
  simp only [apply_ite Host.Outcome.next]

end

theorem State.powered_stops (s : State) (on : WakeOn) (code : Nat) : ((s.powered on).bootFails code).StoppedBoot (wakingPort on) code := by
  simpa using (s.powered on).stoppedBoot_bootFails code

theorem State.recorded_stops (s : State) (on : WakeOn) (r : ConfigRecord) (code : Nat) :
    ((s.recorded on r).bootFails code).StoppedBoot (wakingPort on) code := by
  simpa using (s.recorded on r).stoppedBoot_bootFails code

/-- A package past its identity stage is without state but the record, and has told its three codes on the waking port. -/
theorem State.identified_fields (s : State) (on : WakeOn) (r : ConfigRecord) : let u := s.identified on r
    u.boot = .firmware ∧ u.waking = wakingPort on ∧ u.record = some r ∧ u.tiles = [] ∧ u.mem = [] ∧ u.launches = [] ∧ u.owner = none ∧
      u.told = s.told ++ [(wakingPort on, .boot 1), (wakingPort on, .boot 2), (wakingPort on, .boot 3)] := by
  simp [State.identified, State.recorded, State.powered, State.woken, State.powerOff]

/-! ### The firmware push (R351, R353, R371, R374) -/

/-- The code of a firmware image's failure, or 0 of one that passes: its signature, its version, then its size (log entry 46). -/
def firmwareFailure (fw : Firmware) (r : ConfigRecord) : Nat :=
  if !ed448Valid Config.vendorKey (digestBytes (firmwareBytes fw)) fw.sig then 0x85
  else if fw.version < r.minFirmware then 0x86
  else if 0x1000000 < fw.image.length then 0x87
  else 0

/-- The package with its failed vaults marked. -/
def State.failVaults (s : State) (ts : List Nat) : State :=
  ts.foldl (fun s t => s.onVault t fun v => { v with failed := true }) s

/-- The package that a firmware image makes ready, before its last stages are reported: with the defect map that self-test found. -/
def State.readied (s : State) (fw : Firmware) (found : SelfTest) : State :=
  { s.failVaults (found.vaults.filter (· < Config.tiles)) with
    firmware := some fw, boot := .ready
    badTiles := found.tiles.filter (· < Config.tiles), badVaults := found.vaults.filter (· < Config.tiles)
    badLinks := found.links.filter (· < 16)
    links := Vector.ofFn fun k : Fin 16 => { up := !(found.links.filter (· < 16)).contains k.val }
    capacity := min maxCapacity found.capacity }

theorem exec_firmwarePush_unheard {port : Nat} {s : State} (part : port < 2) (stage : s.boot = .firmware)
    (unheard : (vget { } s.ports port).up = false ∨ (port ≠ s.waking ∧ s.pushRefused = false)) (fw : Firmware) (found : SelfTest) :
    exec (.firmwarePush port fw found) s = .next s := by
  change execFirmwarePush port fw found s = _
  rw [execFirmwarePush, if_neg (Nat.not_le.2 part), stage]
  cases s.record with
  | none => rfl
  | some r => exact if_pos (by simpa using unheard)

theorem exec_firmwarePush {port : Nat} {r : ConfigRecord} {s : State} (part : port < 2) (stage : s.boot = .firmware)
    (record : s.record = some r) (lit : (vget { } s.ports port).up = true) (turn : port = s.waking ∨ s.pushRefused = true)
    (fw : Firmware) (found : SelfTest) : exec (.firmwarePush port fw found) s = .next (
      if firmwareFailure fw r ≠ 0 then { s.bootCode (firmwareFailure fw r) with pushRefused := true }
      else (s.readied fw found).stages [4, 5, 6]) := by
  have heard : ¬ (!(vget { } s.ports port).up || (port != s.waking && !s.pushRefused)) = true := by
    obtain waking | again := turn
    · simp [← waking, lit]
    · simp [lit, again]
  change execFirmwarePush port fw found s = _
  rw [execFirmwarePush, if_neg (Nat.not_le.2 part), stage, record, apply_ite Host.Outcome.next]
  exact if_neg heard

section
variable {fw : Firmware} {r : ConfigRecord}

theorem firmwareFailure_unsigned (unsigned : ed448Valid Config.vendorKey (digestBytes (firmwareBytes fw)) fw.sig = false) :
    firmwareFailure fw r = 0x85 := by
  rw [firmwareFailure, unsigned]; rfl

variable (signed : ed448Valid Config.vendorKey (digestBytes (firmwareBytes fw)) fw.sig = true)
include signed

theorem firmwareFailure_old (old : fw.version < r.minFirmware) : firmwareFailure fw r = 0x86 := by
  rw [firmwareFailure, signed]; exact if_pos old

theorem firmwareFailure_long (new : r.minFirmware ≤ fw.version) (long : 0x1000000 < fw.image.length) : firmwareFailure fw r = 0x87 := by
  rw [firmwareFailure, signed]; exact (if_neg (Nat.not_lt.2 new)).trans (if_pos long)

theorem firmwareFailure_none (new : r.minFirmware ≤ fw.version) (fits : fw.image.length ≤ 0x1000000) : firmwareFailure fw r = 0 := by
  rw [firmwareFailure, signed]; exact (if_neg (Nat.not_lt.2 new)).trans (if_neg (Nat.not_lt.2 fits))

end

theorem vget_ofFn {α : Type} {n k : Nat} (d : α) (f : Fin n → α) (h : k < n) : vget d (Vector.ofFn f) k = f ⟨k, h⟩ := by
  simp [vget, h]

/-- A failed vault stays failed while others are marked. -/
theorem State.failed_failVaults {t : Nat} (ts : List Nat) : ∀ s : State, t ∈ ts ∨ (s.tile t).vault.failed = true →
    ((s.failVaults ts).tile t).vault.failed = true := by
  induction ts with
  | nil => exact fun s marked => marked.resolve_left List.not_mem_nil
  | cons u ts ih =>
    intro s marked
    refine ih (s.onVault u fun v => { v with failed := true }) ?_
    rw [State.onVault_eq, State.tile_onTile]
    obtain listed | failed := marked
    · obtain rfl | later := List.mem_cons.1 listed
      · exact .inr (by simp)
      · exact .inl later
    · right
      split
      · rfl
      · exact failed

/-! ### The hold of a stopped boot (R351) -/

/-- A port has been dark for 1 s, or had no light at all. -/
def Port.DarkFor1s (p : Port) (now : Nat) : Prop := p.up = false ∧ ∀ c, p.lostAt = some c → c + 1750000000 ≤ now

theorem exec_lightRemovalTimeout_dark {c : Nat} {s : State} (failed : s.boot = .failed c)
    (dark : ∀ p ∈ s.ports.toList, p.DarkFor1s s.pcc) : exec .lightRemovalTimeout s = .next s.powerOff := by
  change execLightRemovalTimeout s = _
  unfold execLightRemovalTimeout
  extract_lets gone
  have removed : gone = true := List.all_eq_true.2 fun p listed => by
    obtain ⟨down, since⟩ := dark p listed
    cases lost : p.lostAt with
    | none => simp [down]
    | some c => simp [down, since c lost]
  rw [failed, removed]
  rfl

theorem exec_lightRemovalTimeout_lit {c : Nat} {s : State} (failed : s.boot = .failed c)
    (lit : ∃ p ∈ s.ports.toList, p.up = true) : exec .lightRemovalTimeout s = .next s := by
  change execLightRemovalTimeout s = _
  unfold execLightRemovalTimeout
  extract_lets gone
  obtain ⟨p, listed, up⟩ := lit
  have held : gone = false := List.all_eq_false.2 ⟨p, listed, by simp [up]⟩
  rw [failed, held]
  rfl

/-! ### The obligation -/

/-- Settles O39: each stage of boot stops with the code of the first check that fails there, and a package that passes every stage is ready. -/
theorem bootSteps : Obligations.BootSteps := by
  unfold Obligations.BootSteps
  refine ⟨?wake, ?unheard, ?codes, ?push, ?hold⟩
  case wake =>
    intro on record s part unpowered w good same
    have checked := exec_wakePattern_record part unpowered record
    refine ⟨fun o => ⟨_, exec_wakePattern_noRail part unpowered o, State.stoppedBoot_bootFails _ _⟩,
      ⟨_, exec_wakePattern_noRecord part unpowered, s.powered_stops on _⟩, fun bad => ?unsigned,
      fun few signed other => ?version, fun few signed known => ?identity⟩
    case unsigned =>
      have fails : (decide (8 < record.keys.length) || !good) = true := by simpa using bad
      rw [if_pos fails] at checked
      exact ⟨_, checked, s.powered_stops on _⟩
    all_goals
      have passes : ¬ (decide (8 < record.keys.length) || !good) = true := by simpa using ⟨few, signed⟩
      rw [if_neg passes] at checked
    case version =>
      rw [if_pos (by simpa using other)] at checked
      exact ⟨_, checked, s.powered_stops on _⟩
    case identity =>
      rw [if_neg (by simpa using known)] at checked
      refine ⟨fun differs => ?_, fun is => ?_⟩
      · rw [if_pos differs] at checked
        exact ⟨_, checked, s.recorded_stops on record _⟩
      · rw [if_neg (not_not.2 is)] at checked
        exact ⟨_, checked, s.identified_fields on record⟩
  case unheard => exact fun _ fw found _ part stage unheard => exec_firmwarePush_unheard part stage unheard fw found
  case codes =>
    intro code s
    obtain ⟨_, _, coded⟩ := s.bootCode_same code
    refine ⟨?_, ?_, fun room => ⟨_, State.log_bootCode room code, rfl, rfl⟩⟩
    · rw [coded]
      exact List.mem_append_right _ (List.mem_singleton_self _)
    · rw [coded]
  case push =>
    intro port fw found r s part stage record lit turn good
    have pushed := exec_firmwarePush part stage record lit turn fw found
    refine ⟨fun unsigned => ?_, fun signed old => ?_, fun signed new long => ?_, fun signed new fits => ?passes⟩
    · rw [pushed, firmwareFailure_unsigned unsigned]; rfl
    · rw [pushed, firmwareFailure_old signed old]; rfl
    · rw [pushed, firmwareFailure_long signed new long]; rfl
    case passes =>
      rw [firmwareFailure_none signed new fits] at pushed
      obtain ⟨_, _, reported⟩ := (s.readied fw found).stages_same [4, 5, 6]
      refine ⟨_, pushed, ?_⟩
      rw [if_neg (not_not.2 rfl), reported]
      refine ⟨rfl, rfl, rfl, rfl, rfl, fun t failed vault => ?_, fun k link => congrArg MxLink.up (vget_ofFn _ _ link)⟩
      exact State.failed_failVaults _ s (.inl (List.mem_filter.2 ⟨failed, decide_eq_true vault⟩))
  case hold => exact fun _ _ failed => ⟨exec_lightRemovalTimeout_dark failed, exec_lightRemovalTimeout_lit failed⟩

end Sys2Proof.Machine
end

section
/-! PROOFS. Attestation, claims and handovers, the loss of the owner's link, and the reset by the owner (R349, R354 to R359, R381; log
entries 8, 47 and 112). -/

namespace Sys2Proof.Machine

/-! ### Claims (R356, R358, R381) -/

/-- The package with a port's node as its owner, the owner as the cycle began kept for its commands (R381). -/
def State.claimed (s : State) (port key : Nat) (secure : Bool) : State :=
  { s with
    owner := some port, ownerSecure := secure, handover := none, ownerWas := some (s.pcc, s.commander, s.rights)
    ports := vset s.ports port { vget ({ } : Port) s.ports port with key := some key } }

theorem State.commander_claimed (s : State) (port key : Nat) (secure : Bool) : (s.claimed port key secure).commander = s.commander :=
  if_pos rfl

theorem State.rights_claimed (s : State) (port key : Nat) (secure : Bool) : (s.claimed port key secure).rights = s.rights :=
  if_pos rfl

section
variable {port : Nat} {r : ConfigRecord} {s : State} (part : port < 2) (ready : s.boot = .ready) (record : s.record = some r)
include part ready record

/-- A claim outside a session is discarded and counted (R359). -/
theorem exec_claim_unheard (unheard : s.heard port = false) (key sig : Nat) :
    exec (.claim port key sig) s = .next (s.logIt 5 3 port 0) := by
  change execClaim port key sig s = _
  rw [execClaim, if_neg (Nat.not_le.2 part), ready, record, unheard]
  rfl

variable {key : Nat} (heard : s.heard port = true)
include heard

theorem exec_claim_unlisted (unlisted : r.keys.find? (fun k => k.1 == key) = none) (sig : Nat) :
    exec (.claim port key sig) s = .next (s.refuseTo port 1) := by
  change execClaim port key sig s = _
  rw [execClaim, if_neg (Nat.not_le.2 part), ready, record, heard]
  dsimp -zeta only
  rw [unlisted]
  rfl

/-- A claim that verifies under a listed key makes its node the owner where it may claim. -/
theorem exec_claim_verified {sig : Nat} {secure : Bool} (listed : r.keys.find? (fun k => k.1 == key) = some (key, secure))
    (verified : ed448Valid key s.claimText sig = true) : exec (.claim port key sig) s = .next (
      if s.mayClaim port key then (s.claimed port key secure).doneTo port else s.refuseTo port 2) := by
  change execClaim port key sig s = _
  rw [execClaim, if_neg (Nat.not_le.2 part), ready, record, heard]
  dsimp -zeta only
  rw [listed]
  dsimp -zeta only
  rw [verified]
  extract_lets was p u
  have before : was = (s.pcc, s.commander, s.rights) := by
    simp only [was, State.commander, State.rights]
    cases s.ownerWas with
    | none => rfl
    | some e =>
      dsimp only
      split
      · next now => rw [← now]
      · rfl
  have owns : u = s.claimed port key secure := by simp only [u, p, State.claimed, before, ready, record]
  rw [owns]
  cases s.mayClaim port key <;> rfl

end

theorem State.mayClaim_unowned {s : State} (unowned : s.owner = none) (port key : Nat) : s.mayClaim port key = true := by
  rw [State.mayClaim, unowned]

/-- The node whose key an unlapsed handover names may claim (R358). -/
theorem State.mayClaim_handover {s : State} {port key o c : Nat} (owner : s.owner = some o) (other : o ≠ port)
    (named : s.handover = some (key, c)) (stands : s.pcc < c) : s.mayClaim port key = true := by
  simp [State.mayClaim, owner, other, named, stands]

/-- Without a handover or a lost link an owner stays, but for one made on this cycle whom port 0's claim outranks (R358; log entry 47). -/
theorem State.not_mayClaim {s : State} {port o : Nat} (owner : s.owner = some o) (kept : s.handover = none)
    (linked : (vget { } s.ports o).lossTold = false) (first : ¬ (o = 1 ∧ port = 0 ∧ ∃ b, s.ownerWas = some (s.pcc, none, b)))
    (key : Nat) : s.mayClaim port key = false := by
  rw [State.mayClaim, owner, kept]
  refine Bool.or_eq_false_iff.2 ⟨by simp [linked], ?_⟩
  by_contra wins
  simp only [Bool.not_eq_false, Bool.and_eq_true, beq_iff_eq] at wins
  obtain ⟨⟨second, zero⟩, fresh⟩ := wins
  refine first ⟨second, zero, ?_⟩
  split at fresh
  · next c was secure made =>
    simp only [Bool.and_eq_true, beq_iff_eq, Option.isNone_iff_eq_none] at fresh
    obtain ⟨rfl, rfl⟩ := fresh
    exact ⟨secure, made⟩
  · cases fresh

/-! ### Handovers and the loss of the owner's link (R358) -/

theorem exec_handover {port : Nat} {s : State} (own : Owns s port) (key : Nat) :
    exec (.handover port key) s = .next (({ s with handover := some (key, s.pcc + 1750000000) } : State).doneTo port) := by
  change execHandover port key s = _
  rw [execHandover, if_neg (Nat.not_le.2 own.1), own.asOwner]

theorem exec_handoverTimeout {key c : Nat} {s : State} (named : s.handover = some (key, c)) :
    exec .handoverTimeout s = .next (if c ≤ s.pcc then { s with handover := none } else s) := by
  change execHandoverTimeout s = _
  rw [execHandoverTimeout, named]

/-- The package with the loss of a port's link reported (R358). -/
def State.lossReported (s : State) (o : Nat) : State :=
  { s with ports := vset s.ports o { vget ({ } : Port) s.ports o with lossTold := true } }

/-- The owner's link down for 2 s is noted as lost, logged, and told to the other node. -/
theorem exec_ownerLinkLossTimeout {o c : Nat} {s : State} (owner : s.owner = some o) (down : (vget { } s.ports o).up = false)
    (untold : (vget { } s.ports o).lossTold = false) (lost : (vget { } s.ports o).lostAt = some c) (due : c + 3500000000 ≤ s.pcc) :
    exec .ownerLinkLossTimeout s = .next (((s.lossReported o).logIt 5 2 o 0).tell (1 - o) (.warning 5 o)) := by
  change execOwnerLinkLossTimeout s = _
  simp [execOwnerLinkLossTimeout, State.lossReported, owner, down, untold, lost, due]

/-! ### The reset by the owner (R349) -/

theorem exec_packageReset {port : Nat} {s : State} (own : Owns s port) : exec (.packageReset port) s = .next (State.resets
    { (s.launches.filter fun e => !e.2.state.final).foldl (fun s e => s.endLaunch e.1 .cancelled 0) s with resetting := true }) := by
  change execPackageReset port s = _
  rw [execPackageReset, if_neg (Nat.not_le.2 own.1), own.asOwner]

/-- An ordered reset removes power once every launch has come to its end. -/
theorem State.resets_powerOff {s : State} (ordered : s.resetting = true) (ended : ∀ e ∈ s.launches, e.2.state.final = true) :
    s.resets = s.powerOff :=
  if_pos (by simpa [ordered] using ended)

theorem State.resets_waits {s : State} (runs : ∃ e ∈ s.launches, e.2.state.final = false) : s.resets = s := by
  obtain ⟨e, listed, unended⟩ := runs
  have waits : s.launches.all (fun e => e.2.state.final) = false := List.all_eq_false.2 ⟨e, listed, ne_true_of_eq_false unended⟩
  rw [State.resets, waits, Bool.and_false]
  rfl

/-! ### Attestation (R354, R355) -/

/-- A node on a lit port of a ready package receives a quote, and its port a session key. -/
theorem exec_quoteRequest {port : Nat} {r : ConfigRecord} {s : State} (part : port < 2) (ready : s.boot = .ready)
    (record : s.record = some r) (lit : (vget { } s.ports port).up = true) (nonce : Nat) :
    exec (.quoteRequest port nonce) s = .next (({ s with
      ports := vset s.ports port { vget ({ } : Port) s.ports port with session := some (Config.sessionKey s.wakes port nonce) } } : State).tell
        port (.quote [leNat (s.quoteBytes port nonce),
          ed448Sign (identitySeed s.wakes r) (digestBytes (s.quoteBytes port nonce))])) := by
  change execQuoteRequest port nonce s = _
  rw [execQuoteRequest, if_neg (Nat.not_le.2 part), ready, record]
  dsimp -zeta only
  extract_lets p
  exact if_neg (by simp [p, lit])

/-! ### The obligation -/

/-- Settles O37: a claim is answered by its session, key, signature and the owner that stands, and every other step has the one outcome that
the owner's command or the time gives it. -/
theorem ownershipSteps : Obligations.OwnershipSteps := by
  unfold Obligations.OwnershipSteps
  refine ⟨?verified, ?unlisted, ?unheard, fun _ key _ own => exec_handover own key, ?lapse, ?loss,
    fun _ _ own => exec_packageReset own, ?reset, ?quote⟩
  case verified =>
    intro port key sig r secure s part ready heard record listed verified
    have claimed := exec_claim_verified part ready record heard listed verified
    refine ⟨fun unowned => ?_, fun o owner kept linked first => ?_, fun o c owner other named stands => ?_⟩
    · rw [if_pos (State.mayClaim_unowned unowned port key)] at claimed
      exact ⟨_, claimed, rfl, rfl, rfl, s.commander_claimed port key secure, s.rights_claimed port key secure, rfl⟩
    · rw [claimed, State.not_mayClaim owner kept linked first]
      rfl
    · rw [if_pos (State.mayClaim_handover owner other named stands)] at claimed
      exact ⟨_, claimed, rfl, rfl, s.commander_claimed port key secure⟩
  case unlisted => exact fun _ _ sig _ _ part ready heard record unlisted => exec_claim_unlisted part ready record heard unlisted sig
  case unheard => exact fun _ key sig _ _ part ready unheard record => exec_claim_unheard part ready record unheard key sig
  case lapse =>
    intro key c s named
    have lapses := exec_handoverTimeout named
    exact ⟨fun due => lapses.trans (congrArg _ (if_pos due)), fun early => lapses.trans (congrArg _ (if_neg (Nat.not_le.2 early)))⟩
  case loss =>
    intro o c s owner part down untold lost due
    obtain ⟨_, _, logged⟩ := (s.lossReported o).logIt_same 5 2 o 0
    refine ⟨_, exec_ownerLinkLossTimeout owner down untold lost due, ?_⟩
    rw [logged]
    exact ⟨congrArg Port.lossTold (vget_vset_self _ _ _ part), List.mem_append_right _ (List.mem_singleton_self _), owner, rfl⟩
  case reset =>
    intro s ordered
    refine ⟨fun ended => ?_, State.resets_waits⟩
    rw [State.resets_powerOff ordered ended]
    exact ⟨rfl, rfl, rfl, rfl, rfl⟩
  case quote =>
    intro port nonce r s part ready record lit
    exact ⟨_, exec_quoteRequest part ready record lit nonce, congrArg Port.session (vget_vset_self _ _ _ part), rfl,
      List.mem_append_right _ (List.mem_singleton_self _)⟩

end Sys2Proof.Machine
end

section
/-! PROOFS. The owner's tables (R257, R258, R296, R308, R325, R357, R359, R361, R362, R368, R379). -/

namespace Sys2Proof.Machine

/-! ### Commands of other nodes (R357, R359) -/

theorem State.asOwner_unheard {s : State} {port : Nat} (ready : s.boot = .ready) (unheard : s.heard port = false)
    (f : State → State) : s.asOwner port f = s.logIt 5 3 port 0 := by
  simp [State.asOwner, ready, unheard]

/-- What is carried out for the owner alone is refused to another node, and not heard without a session. -/
theorem ownersOnly_of_asOwner {i : Instr} {port : Nat} {f : State → State}
    (runs : port < 2 → ∀ s, exec i s = .next (s.asOwner port f)) : OwnersOnly i port := fun s part ready =>
  ⟨fun unheard => by rw [runs part, State.asOwner_unheard ready unheard],
    fun heard other => by rw [runs part, State.asOwner_refuses ready heard other]⟩

theorem ownersOnly_tableCacheInvalidate (port : Nat) (root : Word) (lo hi : Nat) :
    OwnersOnly (.tableCacheInvalidate port root lo hi) port :=
  ownersOnly_of_asOwner fun part _ => if_neg (Nat.not_le.2 part)

theorem ownersOnly_writerTagClear (port lo hi : Nat) : OwnersOnly (.writerTagClear port lo hi) port :=
  ownersOnly_of_asOwner fun part _ => if_neg (Nat.not_le.2 part)

theorem ownersOnly_lamplighterWrite (port : Nat) (word : Word) (phases : List (BitVec 5)) :
    OwnersOnly (.lamplighterWrite port word phases) port :=
  ownersOnly_of_asOwner fun part _ => if_neg (Nat.not_le.2 part)

theorem ownersOnly_keyErase {slot : Nat} (held : slot < 4096) (port : Nat) : OwnersOnly (.keyErase port slot) port :=
  ownersOnly_of_asOwner fun part _ => if_neg (by simp [part, held])

theorem ownersOnly_keyLoad {slot : Nat} (held : slot < 4096) (port wrapped : Nat) : OwnersOnly (.keyLoad port slot wrapped) port :=
  ownersOnly_of_asOwner fun part _ => if_neg (by simp [part, held])

theorem ownersOnly_regionWrite {stack index : Nat} (there : stack < 4) (listed : index < 64) (port : Nat) (w0 w1 : Word) :
    OwnersOnly (.regionWrite port stack index w0 w1) port :=
  ownersOnly_of_asOwner fun part _ => if_neg (by simp [part, there, listed])

theorem ownersOnly_routeWrite (port : Nat) (routes : List (Nat × Nat × Nat)) (parent : Option Nat) (hops : Nat) :
    OwnersOnly (.routeWrite port routes parent hops) port :=
  ownersOnly_of_asOwner fun part _ => if_neg (Nat.not_le.2 part)

theorem ownersOnly_worldAssign (port : Nat) (which : WorldOf) (secure : Bool) : OwnersOnly (.worldAssign port which secure) port :=
  ownersOnly_of_asOwner fun part _ => if_neg (Nat.not_le.2 part)

theorem ownersOnly_serviceClear (port : Nat) (bits : BitVec 8) : OwnersOnly (.serviceClear port bits) port :=
  ownersOnly_of_asOwner fun part _ => if_neg (Nat.not_le.2 part)

/-! ### The owner's commands (R361) -/

@[simp] theorem State.logIt_caches (s : State) (a b c d : Nat) : (s.logIt a b c d).caches = s.caches := by
  obtain ⟨_, _, logged⟩ := s.logIt_same a b c d
  rw [logged]

@[simp] theorem State.logIt_tags (s : State) (a b c d : Nat) : (s.logIt a b c d).tags = s.tags := by
  obtain ⟨_, _, logged⟩ := s.logIt_same a b c d
  rw [logged]

section
variable {s : State} {port : Nat} (own : Owns s port)
include own

/-- The entries of a root that meet a range go (R257). -/
theorem exec_tableCacheInvalidate (root : Word) (lo hi : Nat) : exec (.tableCacheInvalidate port root lo hi) s = .next
    (({ s with caches := s.caches.filter fun c =>
        !(c.2.1 == root && c.2.2.va ≤ hi && lo < c.2.2.va + 2 ^ levelShift c.2.2.level) } : State).reportDone port) := by
  change execTableCacheInvalidate port root lo hi s = _
  rw [execTableCacheInvalidate, if_neg (Nat.not_le.2 own.1), own.asOwner]

theorem exec_writerTagClear (lo hi : Nat) : exec (.writerTagClear port lo hi) s = .next
    (({ s with tags := s.tags.filter fun e => e.1 / 1024 < lo || hi < e.1 / 1024 } : State).reportDone port) := by
  change execWriterTagClear port lo hi s = _
  rw [execWriterTagClear, if_neg (Nat.not_le.2 own.1), own.asOwner]

/-- The phases are written whole, or refused where one is above the count of phases (R296, R325). -/
theorem exec_lamplighterWrite (word : Word) (phases : List (BitVec 5)) :
    let ps := (phases ++ List.replicate 96 0).take 96
    exec (.lamplighterWrite port word phases) s = .next (if ps.any fun p => bitsOf word 63 59 < p.toNat then s.refuseTo port 0
      else (State.onWriting { s with lampWord := word &&& 0xFFF8000000000000, phases := ps } fun l =>
        { l with word := word &&& 0xFFF8000000000000, phases := ps }).doneTo port) := by
  intro ps
  change execLamplighterWrite port word phases s = _
  rw [execLamplighterWrite, if_neg (Nat.not_le.2 own.1), own.asOwner]

theorem exec_keyErase {slot : Nat} (held : slot < 4096) : exec (.keyErase port slot) s = .next
    (({ s with keys := dropAt slot s.keys } : State).doneTo port) := by
  change execKeyErase port slot s = _
  rw [execKeyErase, if_neg (by simp [own.1, held]), own.asOwner]

/-- A key that unwraps under the session's is loaded where the owner's rights suffice for its slot (R258). -/
theorem exec_keyLoad {slot wrapped key k : Nat} (held : slot < 4096) (session : (vget { } s.ports port).session = some key)
    (unwraps : Config.unwrapKey key wrapped = some k) (rights : slot < 256 → s.rights = true) :
    exec (.keyLoad port slot wrapped) s = .next (({ s with keys := insertAt slot k s.keys } : State).doneTo port) := by
  change execKeyLoad port slot wrapped s = _
  rw [execKeyLoad, if_neg (by simp [own.1, held]), own.asOwner]
  dsimp only
  rw [session, Option.bind_some, unwraps]
  exact congrArg _ (if_neg (by simpa using rights))

/-- A region's entry is written where its tier has a table and no access to what it held or is to hold is in flight (R362). -/
theorem exec_regionWrite {stack index : Nat} (there : stack < 4) (listed : index < 64) (w0 w1 : Word) :
    let old := look (0, 0) (stack * 64 + index) s.regions
    exec (.regionWrite port stack index w0 w1) s = .next
      (if 2 ≤ bitsOf w0 60 59 || s.inFlight.any fun f => regionCovers w0 w1 f.1 f.2 || regionCovers old.1 old.2 f.1 f.2
       then s.refuseTo port 0
       else ({ s with
         regions := insertAt (stack * 64 + index) (w0 &&& 0xF800000FFFFFFFFF, w1 &&& 0xFFFFFFFFF) s.regions } : State).doneTo port) := by
  intro old
  change execRegionWrite port stack index w0 w1 s = _
  rw [execRegionWrite, if_neg (by simp [own.1, there, listed]), own.asOwner]

theorem exec_routeWrite (routes : List (Nat × Nat × Nat)) (parent : Option Nat) (hops : Nat) :
    exec (.routeWrite port routes parent hops) s = .next
      ((State.onWriting { s with routes := routes, parent := parent, hops := hops } fun l =>
        { l with routes := routes, parent := parent, hops := hops }).doneTo port) := by
  change execRouteWrite port routes parent hops s = _
  rw [execRouteWrite, if_neg (Nat.not_le.2 own.1), own.asOwner]

/-- A tile's world is set while the tile is free. -/
theorem exec_worldAssign_tile (g : Nat) (secure : Bool) : exec (.worldAssign port (.tile g) secure) s = .next
    (if Config.tiles ≤ g || !s.idle g || (s.tile g).saved.isSome then s.refuseTo port 0
     else (s.onTile g fun x => { x with secure := secure }).doneTo port) := by
  change execWorldAssign port (.tile g) secure s = _
  rw [execWorldAssign, if_neg (Nat.not_le.2 own.1), own.asOwner]

theorem exec_worldAssign_port {p : Nat} (part : p < 2) (secure : Bool) : exec (.worldAssign port (.port p) secure) s = .next
    (({ s with ports := vset s.ports p { vget ({ } : Port) s.ports p with secure := secure } } : State).doneTo port) := by
  change execWorldAssign port (.port p) secure s = _
  rw [execWorldAssign, if_neg (Nat.not_le.2 own.1), own.asOwner]
  exact congrArg _ (if_neg (Nat.not_le.2 part))

theorem exec_serviceClear (bits : BitVec 8) : exec (.serviceClear port bits) s = .next
    (({ s with svc := s.svc &&& ~~~(bits &&& ~~~s.svcNew) } : State).doneTo port) := by
  change execServiceClear port bits s = _
  rw [execServiceClear, if_neg (Nat.not_le.2 own.1), own.asOwner]

end

/-! ### The obligation -/

/-- Settles O36: each command has one outcome for the owner, and every other node's is refused or not heard. -/
theorem ownerTableSteps : Obligations.OwnerTableSteps := by
  unfold Obligations.OwnerTableSteps
  refine ⟨?caches, ?tags, ?lamp, ?erase, ?load, ?region, fun _ _ _ _ _ own => exec_routeWrite own _ _ _, ?tile, ?port, ?service,
    ownersOnly_tableCacheInvalidate, ownersOnly_writerTagClear, ownersOnly_lamplighterWrite,
    fun port _ held => ownersOnly_keyErase held port, fun port _ wrapped held => ownersOnly_keyLoad held port wrapped,
    fun port _ _ w0 w1 there listed => ownersOnly_regionWrite there listed port w0 w1, ownersOnly_routeWrite, ownersOnly_worldAssign,
    ownersOnly_serviceClear, ?logged, fun _ _ _ => rfl⟩
  case caches =>
    intro port root lo hi s own
    refine ⟨_, exec_tableCacheInvalidate own root lo hi, fun c => ?_, State.logIt_tiles _ _ _ _ _, State.logIt_mem _ _ _ _ _⟩
    simp only [State.reportDone, State.doneTo, State.tell_caches, State.logIt_caches, List.mem_filter]
    refine and_congr_right fun _ => ?_
    simp [imp_iff_not_or, or_assoc]
  case tags =>
    intro port lo hi s own
    refine ⟨_, exec_writerTagClear own lo hi, fun e => ?_, State.logIt_tiles _ _ _ _ _, State.logIt_mem _ _ _ _ _⟩
    simp only [State.reportDone, State.doneTo, State.tell_tags, State.logIt_tags, List.mem_filter, Bool.or_eq_true, decide_eq_true_eq]
    exact and_congr_right fun _ => by omega
  case lamp =>
    intro port word phases s own ps
    have written := exec_lamplighterWrite own word phases
    refine ⟨fun within => written.trans (congrArg _ (if_neg fun any => ?_)), fun above => written.trans (congrArg _ (if_pos ?_))⟩
    · obtain ⟨p, listed, above⟩ := List.any_eq_true.1 any
      exact (within p listed).not_gt (of_decide_eq_true above)
    · exact List.any_eq_true.2 (above.imp fun _ => And.imp_right decide_eq_true)
  case erase =>
    intro port slot s own held
    exact ⟨_, exec_keyErase own held, (find_dropAt slot slot s.keys).trans (if_pos rfl),
      fun k other => (find_dropAt k slot s.keys).trans (if_neg other)⟩
  case load => exact fun _ _ _ _ _ _ own held session unwraps rights => exec_keyLoad own held session unwraps rights
  case region =>
    intro port stack index w0 w1 s own there listed old touches
    have written := exec_regionWrite own there listed w0 w1
    refine ⟨fun hasTable quiet => written.trans (congrArg _ (if_neg ?_)), fun busy => written.trans (congrArg _ (if_pos ?_))⟩
    · rw [Bool.or_eq_true, decide_eq_true_eq, List.any_eq_true]
      rintro (none | ⟨f, inFlight, met⟩)
      · exact none.not_gt hasTable
      · exact quiet f inFlight (Bool.or_eq_true_iff.1 met)
    · rw [Bool.or_eq_true, decide_eq_true_eq, List.any_eq_true]
      exact busy.imp_right fun met => met.imp fun _ => And.imp_right Bool.or_eq_true_iff.2
  case tile =>
    intro port g secure s own
    refine ⟨fun there free unsaved => (exec_worldAssign_tile own g secure).trans (congrArg _ (if_neg ?_)),
      fun held => (exec_worldAssign_tile own g secure).trans (congrArg _ (if_pos ?_))⟩
    · simp [Nat.not_le.2 there, free, unsaved]
    · simpa [Option.isSome_iff_ne_none, or_assoc] using held
  case port =>
    intro port p secure s own part
    exact ⟨_, exec_worldAssign_port own part secure, congrArg Port.secure (vget_vset_self _ _ _ part), rfl,
      fun q other => vget_vset_of_ne _ _ _ other⟩
  case service => exact fun _ bits _ own => ⟨_, exec_serviceClear own bits, rfl, rfl, rfl⟩
  case logged =>
    intro s source code place detail
    obtain ⟨_, _, logged⟩ := s.logIt_same source code place detail
    rw [logged]

end Sys2Proof.Machine
end

section
/-! PROOFS. Copies: the reads and writes of staging that each schedules, the global ones outstanding, and what a read brings (R265 to
R274). -/

namespace Sys2Proof.Machine

/-! ### What a copy schedules (R265, R278) -/

/-- A state in which staging will be read and written for a copy as well, and nothing else of its tile's sequencer and system
registers has changed. -/
structure Scheduled (s : State) (c : Ctx) (rs : List StRead) (ws : List StWrite) (u : State) : Prop where
  seq : (u.tile c.t).seq = { (s.tile c.t).seq with
    stReads := (s.tile c.t).seq.stReads ++ rs, stWrites := (s.tile c.t).seq.stWrites ++ ws }
  sys : (u.tile c.t).sys = (s.tile c.t).sys

section
variable {s v w : State} {c : Ctx} {rs : List StRead} {ws : List StWrite}

theorem scheduled_schedule (seq : (v.tile c.t).seq = (s.tile c.t).seq) (sys : (v.tile c.t).sys = (s.tile c.t).sys) :
    Scheduled s c rs ws (v.schedule c rs ws) := by
  constructor <;> simp [State.schedule, seq, sys]

/-- Taking identifiers for the copy changes no tile. -/
theorem scheduled_withNextId (n : Nat) : Scheduled s c rs ws (State.schedule { s with nextId := n } c rs ws) :=
  scheduled_schedule rfl rfl

/-- The early-read checker's list alone changes (R278). -/
theorem State.tile_listEntry (s : State) (c : Ctx) (id : Nat) (glob : Bool) (addr len lat : Nat) (arr : Option Arrival) :
    ∃ early, (s.listEntry c id glob addr len lat arr).tile c.t =
      { s.tile c.t with eng := { (s.tile c.t).eng with early := early } } := by
  unfold State.listEntry
  rw [State.tile_onTile_self]
  split
  · exact ⟨_, rfl⟩
  · exact ⟨_, rfl⟩

theorem Scheduled.listEntry (h : Scheduled s c rs ws v) (id : Nat) (glob : Bool) (addr len lat : Nat) (arr : Option Arrival) :
    Scheduled s c rs ws (v.listEntry c id glob addr len lat arr) := by
  obtain ⟨_, listed⟩ := v.tile_listEntry c id glob addr len lat arr
  exact ⟨by rw [listed]; exact h.seq, by rw [listed]; exact h.sys⟩

theorem Scheduled.ite {p : Prop} [Decidable p] (h : Scheduled s c rs ws v) (h' : Scheduled s c rs ws w) :
    Scheduled s c rs ws (if p then v else w) := by
  split
  · exact h
  · exact h'

/-- Taking the engine leaves what is scheduled. -/
theorem Scheduled.traffic (h : Scheduled s c rs ws v) (n : Nat) :
    ((v.takeCopy c n).tile c.t).seq.stReads = (s.tile c.t).seq.stReads ++ rs ∧
    ((v.takeCopy c n).tile c.t).seq.stWrites = (s.tile c.t).seq.stWrites ++ ws := by
  simp [State.takeCopy, h.seq]

/-- The writes that a copy makes without a read are none where it lists none. -/
theorem Scheduled.reads (h : Scheduled s c rs [] v) (n : Nat) :
    ((v.takeCopy c n).tile c.t).seq.stReads = (s.tile c.t).seq.stReads ++ rs ∧
    ((v.takeCopy c n).tile c.t).seq.stWrites = (s.tile c.t).seq.stWrites :=
  ⟨(h.traffic n).1, (h.traffic n).2.trans (List.append_nil _)⟩

/-- The engine of a C slot is taken for its interval (R265). -/
theorem Scheduled.free (h : Scheduled s c rs ws v) (slot : c.slot = 4 ∨ c.slot = 5) (n : Nat) :
    vget 0 ((v.takeCopy c n).tile c.t).seq.cFree (c.slot - 4) = c.now + n * (s.tile c.t).divisor 3 := by
  simp only [State.takeCopy, State.tile_onTile_self, Tile.divisor, h.sys]
  exact vget_vset_self _ _ _ (by omega)

end

/-! ### Static copies (R265, R267, R269, R271, R274) -/

section
variable (s : State) (c : Ctx) (f : CW)

theorem State.copyLocal_takes : ∃ v, s.copyLocal c f = v.takeCopy c (beats (copyUnits f)) ∧
    Scheduled s c ((List.range (copyUnits f)).map fun u => s.unitRead c (2 + u / 4) (5 + u / 4)
      ((s.gen c f.ga).2.toNat + 64 * u) c.t ((s.gen c f.gd).2.toNat + 64 * u) (s.arrivalOf c f 64)) [] v :=
  ⟨_, rfl, (scheduled_withNextId _).listEntry _ _ _ _ _ _⟩

theorem State.copyIsland_takes : let p := islandTarget c.t (s.gen c f.gd).2.toNat
    ∃ v, s.copyIsland c f = v.takeCopy c (copyUnits f) ∧
      Scheduled s c ((List.range (copyUnits f)).map fun u =>
        { s.unitRead c (2 + u) (9 + 2 * hopCount c.t p.1 + u) ((s.gen c f.ga).2.toNat + 64 * u) p.1 (p.2 + 64 * u)
            (s.arrivalOf c f 64) with isle := true }) [] v :=
  ⟨_, rfl, .ite ((scheduled_withNextId _).listEntry _ _ _ _ _ _) (scheduled_withNextId _)⟩

theorem State.copyFill_takes : ∃ v, s.copyFill c f = v.takeCopy c (beats (copyUnits f)) ∧
    Scheduled s c
      ((s.dataUnits c f).map fun u => s.unitRead c (2 + u / 4) (5 + u / 4) ((s.gen c f.ga).2.toNat + 64 * u) c.t
        ((s.gen c f.gd).2.toNat + 64 * u) none)
      (((List.range (copyUnits f)).filter fun u => !s.inWindow c f u).map fun u =>
        s.unitWrite c (5 + u / 4) ((s.gen c f.gd).2.toNat + 64 * u) (List.replicate 64 f.fill)) v :=
  ⟨_, rfl, (scheduled_withNextId _).listEntry _ _ _ _ _ _⟩

theorem State.copyTranspose_takes : ∃ v, s.copyTranspose c f = v.takeCopy c (32 * copyUnits f) ∧
    Scheduled s c ((List.range (copyUnits f)).flatMap fun t => (List.range 16).map fun k =>
      { cycle := s.copyCycle c (2 + 32 * t + k), tile := c.t, slot := c.slot
        addr := (s.gen c f.ga).2.toNat + 4096 * t + 256 * k, len := 256, issue := c.now
        use := .xpose (s.nextId + t) k (copyWidth f.fmt.toNat) c.t ((s.gen c f.gd).2.toNat + 4096 * t)
          (s.copyCycle c (18 + 32 * t)) ((s.tile c.t).divisor 3) (s.arrivalOf c f 4096) }) [] v :=
  ⟨_, rfl, (scheduled_withNextId _).listEntry _ _ _ _ _ _⟩

/-- The indices of a gathering copy beside their units (R274). -/
theorem State.zip_gatherIdx : (List.range (copyUnits f)).zip (s.gatherIdx c f) = (List.range (copyUnits f)).map fun u =>
    (u, readNat (s.tile c.t).st ((s.gen c f.gw).2.toNat + 2 * u) 2) := by
  rw [State.gatherIdx, List.zip_eq_zipWith, List.zipWith_map_right, List.zipWith_self]

theorem State.copyGather_takes : let hs := (List.range (copyUnits f)).map fun u =>
      (u, readNat (s.tile c.t).st ((s.gen c f.gw).2.toNat + 2 * u) 2)
    ∃ v, s.copyGather c f = v.takeCopy c (beats (copyUnits f)) ∧
      Scheduled s c
        ((hs.filter fun e => e.2 != 0xFFFF).map fun e => s.unitRead c (2 + e.1 / 4) (5 + e.1 / 4)
          ((s.gen c f.ga).2.toNat + 64 * e.2) c.t ((s.gen c f.gd).2.toNat + 64 * e.1) none)
        ((hs.filter fun e => e.2 == 0xFFFF).map fun e =>
          s.unitWrite c (5 + e.1 / 4) ((s.gen c f.gd).2.toNat + 64 * e.1) (List.replicate 64 0)) v := by
  rw [← State.zip_gatherIdx]
  exact ⟨_, rfl, (scheduled_withNextId _).listEntry _ _ _ _ _ _⟩

end

/-! ### Global copies (R268, R274) -/

@[simp] theorem State.copies_listEntry (s : State) (c : Ctx) (id : Nat) (glob : Bool) (addr len lat : Nat) (arr : Option Arrival) :
    ((s.listEntry c id glob addr len lat arr).tile c.t).eng.copies = (s.tile c.t).eng.copies := by
  obtain ⟨_, listed⟩ := s.tile_listEntry c id glob addr len lat arr
  rw [listed]

/-- What joins the outstanding copies. -/
def State.outstanding (s : State) (c : Ctx) (f : CW) (kind : GKind) (unitBytes : Nat) : GCopy :=
  { id := s.nextId, slot := c.slot, kind := kind, src := (s.gen c f.ga).2.toNat, srcSpace := (s.gen c f.ga).1.space.toNat
    dst := (s.gen c f.gd).2.toNat, units := copyUnits f, issue := c.now, width := copyWidth f.fmt.toNat, fifo := f.df.toNat
    idx := if kind = .gath then s.gatherIdx c f else []
    arrival := s.arrivalOf c f (if kind = .dec then unitBytes else 64), step := (s.tile c.t).divisor 3, asked := s.pcc }

/-- The state with a copy among its engine's outstanding ones. -/
def State.joined (s : State) (c : Ctx) (g : GCopy) : State :=
  s.fresh.2.onTile c.t fun x => { x with eng := { x.eng with copies := x.eng.copies ++ [g] } }

theorem scheduled_joined (s : State) (c : Ctx) (rs : List StRead) (ws : List StWrite) (g : GCopy) :
    Scheduled s c rs ws ((s.joined c g).schedule c rs ws) :=
  scheduled_schedule (by simp [State.joined]) (by simp [State.joined])

theorem State.copies_schedule_joined (s : State) (c : Ctx) (rs : List StRead) (ws : List StWrite) (g : GCopy) :
    (((s.joined c g).schedule c rs ws).tile c.t).eng.copies = (s.tile c.t).eng.copies ++ [g] := by
  simp [State.joined, State.schedule]

/-- A global copy is outstanding; one from staging alone reads its units there. -/
theorem State.copyGlobal_takes (s : State) (c : Ctx) (f : CW) (kind : GKind) (b n : Nat) :
    ∃ v, s.copyGlobal c f kind b n = v.takeCopy c n ∧
      (v.tile c.t).eng.copies = (s.tile c.t).eng.copies ++ [s.outstanding c f kind b] ∧
      Scheduled s c (if kind = .gwr then (List.range (copyUnits f)).map fun u =>
        { cycle := s.copyCycle c (2 + u / 4), tile := c.t, slot := c.slot, addr := (s.gen c f.ga).2.toNat + 64 * u, len := 64
          use := .unit s.nextId u, issue := c.now } else []) [] v := by
  have scheduled := fun rs => scheduled_joined s c rs [] (s.outstanding c f kind b)
  refine ⟨if kind = .gwr || kind = .feed then (s.joined c (s.outstanding c f kind b)).schedule c _ []
    else ((s.joined c (s.outstanding c f kind b)).schedule c _ []).listEntry c _ _ _ _ _ _, rfl, ?_,
    .ite (scheduled _) ((scheduled _).listEntry _ _ _ _ _ _)⟩
  split
  · exact s.copies_schedule_joined c _ _ _
  · exact (State.copies_listEntry _ c _ _ _ _ _ _).trans (s.copies_schedule_joined c _ _ _)

/-! ### What a read brings (R265, R271) -/

section
variable {r : StRead} (s : State) (t : Nat)

theorem State.deliver_copyTo {cycle tile addr : Nat} {arr : Option Arrival} (use : r.use = .copyTo cycle tile addr arr) :
    ((s.deliver t r).tile t).seq.stWrites = (s.tile t).seq.stWrites ++
      [{ cycle := cycle, tile := tile, slot := r.slot, addr := addr, bytes := readBytes (s.tile r.tile).st r.addr r.len
         issue := r.issue, arrival := arr, isle := r.isle }] := by
  obtain ⟨os, same⟩ := s.readsGens_same r
  unfold State.deliver
  simp only [same, use, State.onSeq_eq, State.tile_onTile_self]
  rfl

theorem State.deliver_unit {copy unit : Nat} (use : r.use = .unit copy unit) :
    ((s.deliver t r).tile t).eng.copies = (s.tile t).eng.copies.map fun g => if g.id = copy then
      { g with data := insertAt unit (readBytes (s.tile r.tile).st r.addr r.len) g.data } else g := by
  obtain ⟨os, same⟩ := s.readsGens_same r
  unfold State.deliver
  simp only [same, use, State.tile_onTile_self]
  rfl

section
variable {id part width tile addr cycle step : Nat} {arr : Option Arrival} (use : r.use = .xpose id part width tile addr cycle step arr)
include use

/-- A tile to be transposed gathers in its buffer. -/
theorem State.deliver_xpose (more : part < 15) : look [] id ((s.deliver t r).tile t).eng.xbufs =
    look [] id (s.tile t).eng.xbufs ++ readBytes (s.tile r.tile).st r.addr r.len := by
  obtain ⟨os, same⟩ := s.readsGens_same r
  unfold State.deliver
  simp only [same, use, if_pos more, State.tile_onTile_self, look_insertAt_self]
  rfl

/-- The last part of a tile schedules the writes of the transposed one. -/
theorem State.deliver_xpose_last (last : 15 ≤ part) : ((s.deliver t r).tile t).seq.stWrites = (s.tile t).seq.stWrites ++
    (List.range 16).map fun k =>
      { cycle := cycle + k * step, tile := tile, slot := r.slot, addr := addr + 256 * k, issue := r.issue
        bytes := ((transposed width (look [] id (s.tile t).eng.xbufs ++ readBytes (s.tile r.tile).st r.addr r.len)).drop (256 * k)).take 256
        arrival := if k = 15 then arr else none } := by
  obtain ⟨os, same⟩ := s.readsGens_same r
  unfold State.deliver
  simp only [same, use, if_neg (Nat.not_lt.2 last), State.tile_onTile_self]
  rfl

end
end

/-! ### Transposition (R271) -/

/-- An element of pieces of one length, one after another. -/
theorem getElem?_flatMap_const {α β : Type} {f : α → List β} {n k : Nat} (within : k < n) (xs : List α)
    (uniform : ∀ x ∈ xs, (f x).length = n) (j : Nat) : (xs.flatMap f)[n * j + k]? = xs[j]?.bind fun x => (f x)[k]? := by
  induction xs generalizing j with
  | nil => rfl
  | cons x xs ih =>
    have first := uniform x List.mem_cons_self
    rw [List.flatMap_cons]
    cases j with
    | zero => simp [List.getElem?_append_left (first ▸ within)]
    | succ j =>
      rw [List.getElem?_append_right (by rw [first]; nlinarith), first, Nat.mul_succ, Nat.add_right_comm, Nat.add_sub_cancel,
        ih (fun y listed => uniform y (List.mem_cons_of_mem _ listed)), List.getElem?_cons_succ]

theorem getElem?_transposed {w : Nat} (width : w ∈ [1, 2, 4, 8]) {bs : List Byte} (whole : bs.length = 4096) {i j b : Nat}
    (row : i < 64) (column : j < 64 / w) (byte : b < w) : (transposed w bs)[64 * w * j + w * i + b]? = bs[64 * i + w * j + b]? := by
  have fits : w * (64 / w) = 64 := by fin_cases width <;> rfl
  have inRow : ∀ j < 64 / w, w * j + w ≤ 64 := fun j column =>
    calc w * j + w = w * (j + 1) := (Nat.mul_succ w j).symm
      _ ≤ w * (64 / w) := Nat.mul_le_mul_left w column
      _ = 64 := fits
  have element : ∀ j < 64 / w, ∀ i ∈ List.range 64, ((bs.drop (64 * i + w * j)).take w).length = w := fun j column i listed => by
    have := inRow j column
    have := List.mem_range.1 listed
    simp only [List.length_take, List.length_drop, whole]
    omega
  have newRow : ∀ j ∈ List.range (64 / w), ((List.range 64).flatMap fun i => (bs.drop (64 * i + w * j)).take w).length = 64 * w :=
    fun j listed => by
      rw [List.length_flatMap, List.map_congr_left (element j (List.mem_range.1 listed)), List.map_const', List.sum_replicate,
        List.length_range, smul_eq_mul]
  have within : w * i + b < 64 * w := by nlinarith
  calc (transposed w bs)[64 * w * j + w * i + b]?
      = ((List.range (64 / w))[j]?.bind fun j => ((List.range 64).flatMap fun i => (bs.drop (64 * i + w * j)).take w)[w * i + b]?) := by
        rw [transposed, Nat.add_assoc, getElem?_flatMap_const within _ newRow]
    _ = ((List.range 64)[i]?.bind fun i => ((bs.drop (64 * i + w * j)).take w)[b]?) := by
        rw [List.getElem?_range column, Option.bind_some, getElem?_flatMap_const byte _ (element j column)]
    _ = bs[64 * i + w * j + b]? := by
        rw [List.getElem?_range row, Option.bind_some, List.getElem?_take_of_lt byte, List.getElem?_drop]

/-! ### The obligation -/

/-- Settles O20: each copy schedules its reads and writes and takes its engine, and each kind of read brings its bytes. -/
theorem copyResults : Obligations.CopyResults := by
  unfold Obligations.CopyResults
  refine ⟨fun _ => issuesAs_of_runSlot fun _ => rfl, fun _ => issuesAs_of_runSlot fun _ => rfl,
    fun _ => issuesAs_of_runSlot fun _ => rfl, fun _ => issuesAs_of_runSlot fun _ => rfl, fun _ => issuesAs_of_runSlot fun _ => rfl,
    fun _ => issuesAs_of_runSlot fun _ => rfl, fun _ => issuesAs_of_runSlot fun _ => rfl, fun _ => issuesAs_of_runSlot fun _ => rfl,
    fun _ => issuesAs_of_runSlot fun _ => rfl, ?inTile, ?island, ?fill, ?transpose, ?gather, ?glob, ?free, ?deliver,
    fun _ width _ whole _ _ _ row column byte => getElem?_transposed width whole row column byte⟩
  case inTile =>
    intro c s f
    obtain ⟨v, takes, scheduled⟩ := s.copyLocal_takes c f
    rw [takes]
    exact scheduled.reads _
  case island =>
    intro c s f p h
    obtain ⟨v, takes, scheduled⟩ := s.copyIsland_takes c f
    rw [takes]
    exact scheduled.reads _
  case fill =>
    intro c s f data
    have window : (fun u => s.inWindow c f u) = data := funext fun u => (Bool.decide_and _ _).symm
    obtain ⟨v, takes, scheduled⟩ := s.copyFill_takes c f
    rw [takes, ← window]
    exact scheduled.traffic _
  case transpose =>
    intro c s f
    obtain ⟨v, takes, scheduled⟩ := s.copyTranspose_takes c f
    rw [takes]
    exact scheduled.reads _
  case gather =>
    intro c s f hs
    obtain ⟨v, takes, scheduled⟩ := s.copyGather_takes c f
    rw [takes]
    exact scheduled.traffic _
  case glob =>
    intro c s f k b n u
    obtain ⟨v, takes, copies, scheduled⟩ := s.copyGlobal_takes c f k b n
    have traffic := (scheduled.reads n).1
    simp only [u, takes]
    refine ⟨⟨s.outstanding c f k b, ?_, rfl, rfl, rfl, rfl, rfl, rfl, rfl, rfl, rfl, rfl, rfl, rfl, rfl, fun gathers => if_pos gathers⟩,
      fun other => ?_, fun writes => ?_⟩
    · simpa [State.takeCopy] using copies
    · rw [traffic, if_neg other, List.append_nil]
    · rw [traffic, if_pos writes]
      rfl
  case free =>
    intro c s f slot free after
    obtain ⟨_, localTakes, localScheduled⟩ := s.copyLocal_takes c f
    obtain ⟨_, fillTakes, fillScheduled⟩ := s.copyFill_takes c f
    obtain ⟨_, gatherTakes, gatherScheduled⟩ := s.copyGather_takes c f
    obtain ⟨_, islandTakes, islandScheduled⟩ := s.copyIsland_takes c f
    obtain ⟨_, transposeTakes, transposeScheduled⟩ := s.copyTranspose_takes c f
    refine ⟨?_, ?_, ?_, ?_, ?_, fun k b n => ?_⟩
    · rw [localTakes]; exact localScheduled.free slot _
    · rw [fillTakes]; exact fillScheduled.free slot _
    · rw [gatherTakes]; exact gatherScheduled.free slot _
    · rw [islandTakes]; exact islandScheduled.free slot _
    · rw [transposeTakes]; exact transposeScheduled.free slot _
    · obtain ⟨_, takes, -, scheduled⟩ := s.copyGlobal_takes c f k b n
      rw [takes]; exact scheduled.free slot n
  case deliver =>
    intro t r s bs
    exact ⟨fun _ _ _ _ use => s.deliver_copyTo t use, fun _ _ use => s.deliver_unit t use,
      fun _ _ _ _ _ _ _ _ more use => s.deliver_xpose t use more, fun _ _ _ _ _ _ _ use => s.deliver_xpose_last t use le_rfl⟩

end Sys2Proof.Machine
end

section
/-! PROOFS. Operating points (R334, R363 to R366) and page migration (R260). -/

namespace Sys2Proof.Machine

/-! ### The operating-point word (R364) -/

theorem State.island_doneTo (s : State) (port i : Nat) : (s.doneTo port).island i = s.island i := rfl
theorem State.doneTo_tiles (s : State) (port : Nat) : (s.doneTo port).tiles = s.tiles := rfl

/-- A change of an island's operating point is reported where its word changes, and changes nothing else. -/
theorem State.setPoint_same (s : State) (i : Nat) (x : Island) :
    ∃ lg ov td, s.setPoint i x = { s.setIsland i x with log := lg, overwritten := ov, told := td } := by
  unfold State.setPoint
  extract_lets s'
  split
  · exact ⟨_, _, _, rfl⟩
  · obtain ⟨lg, ov, logged⟩ := s'.logIt_same 8 2 i x.point
    obtain ⟨ms, told⟩ := (s'.logIt 8 2 i x.point).tellOwner_same (.words [i, x.point])
    rw [told, logged]
    exact ⟨_, _, _, rfl⟩

section
variable (s : State) (i : Nat) (x : Island)

@[simp] theorem State.island_setPoint_self : (s.setPoint i x).island i = x := by
  obtain ⟨_, _, _, same⟩ := s.setPoint_same i x
  rw [same]
  exact s.island_setIsland_self i x

@[simp] theorem State.setPoint_tiles : (s.setPoint i x).tiles = s.tiles := by
  obtain ⟨_, _, _, same⟩ := s.setPoint_same i x
  rw [same]
  rfl

@[simp] theorem State.tile_setPoint (t : Nat) : (s.setPoint i x).tile t = s.tile t :=
  congrArg (look _ t) (s.setPoint_tiles i x)

@[simp] theorem State.setPoint_delivered : (s.setPoint i x).delivered = s.delivered := by
  obtain ⟨_, _, _, same⟩ := s.setPoint_same i x
  rw [same]
  rfl

/-- The owner is told a word that has changed. -/
theorem State.told_setPoint {s : State} {x : Island} {i p : Nat} (owner : s.owner = some p) (changed : x.point ≠ (s.island i).point) :
    (p, Told.words [i, x.point]) ∈ (s.setPoint i x).told := by
  obtain ⟨_, _, logged⟩ := (s.setIsland i x).logIt_same 8 2 i x.point
  simp [State.setPoint, changed, logged, State.tellOwner, owner, State.tell]

end

/-! ### Floors (R334, R363) -/

section
variable (s : State) (i n : Nat)

@[simp] theorem State.island_postFloors_self : (s.postFloors i n).island i = { s.island i with floors := pointFloors n } :=
  s.island_setIsland_self i _

@[simp] theorem State.postFloors_tiles : (s.postFloors i n).tiles = s.tiles := rfl

/-- What is on its way to the tasks stays on its way. -/
theorem State.mem_postFloors_delivered {s : State} {e : Nat × Notice} (sent : e ∈ s.delivered) : e ∈ (s.postFloors i n).delivered :=
  List.mem_append_left _ sent

/-- Every task of the island that can take a notice is sent the floors in force. -/
theorem State.postFloors_delivers {s : State} {t : Nat} (can : (s.tile t).noticed = true) :
    (t, ({ s.island (t / 16) with floors := pointFloors n } : Island).floorNotice) ∈ (s.postFloors (t / 16) n).delivered :=
  List.mem_append_right _ (List.mem_map.2 ⟨t, List.mem_filter.2 ⟨mem_islandTiles t, can⟩, rfl⟩)

end

/-! ### Ramps (R365) -/

section
variable {s : State} {i n : Nat}

theorem State.startRamp_here (here : n = (s.island i).cur) : s.startRamp i n = s := if_pos here

/-- To a lower point the floors are posted first. -/
theorem State.startRamp_down (lower : (s.island i).cur < n) :
    s.startRamp i n = (s.setPoint i { s.island i with tgt := n }).postFloors i n :=
  (if_neg lower.ne').trans (if_pos lower)

/-- To a higher one the voltage steps first. -/
theorem State.startRamp_up (higher : n < (s.island i).cur) :
    s.startRamp i n = s.setPoint i { s.island i with tgt := n, step := some (s.pcc + 1) } :=
  (if_neg higher.ne).trans (if_neg higher.not_gt)

/-- A ramp leaves the point in force and the tiles, and what is on its way to the tasks. -/
theorem State.startRamp_keeps (s : State) (i n : Nat) :
    ((s.startRamp i n).island i).cur = (s.island i).cur ∧ (s.startRamp i n).tiles = s.tiles ∧
      ∀ e ∈ s.delivered, e ∈ (s.startRamp i n).delivered := by
  obtain lower | here | higher := lt_trichotomy (s.island i).cur n
  · rw [State.startRamp_down lower]
    refine ⟨?_, ?_, fun e sent => State.mem_postFloors_delivered _ _ ?_⟩
    · rw [State.island_postFloors_self, State.island_setPoint_self]
    · rw [State.postFloors_tiles, State.setPoint_tiles]
    · rwa [State.setPoint_delivered]
  · rw [State.startRamp_here here.symm]
    exact ⟨rfl, rfl, fun _ => id⟩
  · rw [State.startRamp_up higher, State.island_setPoint_self, State.setPoint_tiles, State.setPoint_delivered]
    exact ⟨rfl, rfl, fun _ => id⟩

theorem State.startRamp_tgt (other : n ≠ (s.island i).cur) : ((s.startRamp i n).island i).tgt = n := by
  obtain lower | higher := other.symm.lt_or_gt
  · simp [State.startRamp_down lower]
  · simp [State.startRamp_up higher]

/-- A held request that starts leaves what a ramp leaves; none starts where none is held. -/
theorem State.startHeld_keeps (s : State) (i : Nat) :
    ((s.startHeld i).island i).cur = (s.island i).cur ∧ (s.startHeld i).tiles = s.tiles ∧
      (∀ e ∈ s.delivered, e ∈ (s.startHeld i).delivered) ∧ ((s.island i).hv = false → s.startHeld i = s) := by
  unfold State.startHeld
  extract_lets x
  split
  · exact ⟨rfl, rfl, fun _ => id, fun _ => rfl⟩
  · next starts =>
    obtain ⟨cur, tiles, delivered⟩ := (s.setPoint i { x with hv := false }).startRamp_keeps i x.held
    refine ⟨by rw [cur]; simp [x], by rw [tiles]; simp, fun e sent => delivered e (by simpa using sent), fun none => ?_⟩
    simp [x, none] at starts

end

/-! ### Requests (R364, R365) -/

section
variable {s : State} {port i : Nat} (own : Owns s port) (part : i < Config.islands)
include own part

theorem exec_operatingPointRequest (n : Nat) : exec (.operatingPointRequest port i n) s = .next
    (if n = 2 ^ 52 then (s.setPoint i { s.island i with sup := false }).doneTo port
     else if 6 ≤ n then s.refuseTo port 0
     else if (s.island i).tgt != (s.island i).cur || (s.island i).step.isSome || (s.island i).hv then (s.holdRequest i n).doneTo port
     else (s.startRamp i n).doneTo port) := by
  change execOperatingPointRequest port i n s = _
  rw [execOperatingPointRequest, if_neg (by simp [own.1, part]), own.asOwner]

theorem exec_operatingPointRequest_point {n : Nat} (point : n < 6) : exec (.operatingPointRequest port i n) s = .next
    (if (s.island i).tgt ≠ (s.island i).cur ∨ (s.island i).step ≠ none ∨ (s.island i).hv = true
     then (s.holdRequest i n).doneTo port else (s.startRamp i n).doneTo port) := by
  rw [exec_operatingPointRequest own part, if_neg (by omega), if_neg (by omega)]
  simp [Option.isSome_iff_ne_none, or_assoc]

end

/-- A request that is held, in the place of the one held before it. -/
theorem State.holdRequest_same (s : State) (i n : Nat) : (s.holdRequest i n).tiles = s.tiles ∧
    (s.holdRequest i n).island i = { s.island i with held := n, hv := true, sup := (s.island i).sup || (s.island i).hv } := by
  unfold State.holdRequest
  extract_lets x u
  have warned : u.tiles = s.tiles := by
    simp only [u]
    split <;> simp
  exact ⟨(u.setPoint_tiles i _).trans warned, u.island_setPoint_self i _⟩

/-! ### The end of a ramp (R364 to R366) -/

/-- What ends a ramp (R365): downwards that every task has applied the floors, upwards that the voltage has settled. -/
def State.rampDone (s : State) (i : Nat) : Prop :=
  if (s.island i).cur < (s.island i).tgt then s.applied i (s.island i).tgt = true
  else ∃ c, (s.island i).step = some c ∧ c ≤ s.pcc

/-- The state with the target of a ramp in force, and its floors posted where others stand. -/
def State.rampEnded (s : State) (i : Nat) : State :=
  let u := s.setPoint i { s.island i with cur := (s.island i).tgt, step := none }
  if (s.island i).floors != pointFloors (s.island i).tgt then u.postFloors i (s.island i).tgt else u

/-- The floors posted at the end of a ramp are the target's, beside the owner's. -/
theorem State.rampEnded_island (s : State) (i : Nat) : ∃ floors : Vector Nat 4, (s.rampEnded i).island i =
    ({ s.island i with cur := (s.island i).tgt, step := none, floors := floors } : Island) := by
  unfold State.rampEnded
  extract_lets was u
  have island : u.island i = { s.island i with cur := (s.island i).tgt, step := none } := s.island_setPoint_self i _
  split
  · exact ⟨_, by rw [State.island_postFloors_self, island]⟩
  · exact ⟨_, island⟩

theorem State.rampEnded_tiles (s : State) (i : Nat) : (s.rampEnded i).tiles = s.tiles := by
  rw [State.rampEnded]
  split
  · rw [State.postFloors_tiles, State.setPoint_tiles]
  · rw [State.setPoint_tiles]

theorem State.rampEnded_delivered {s : State} {i : Nat} (stand : (s.island i).floors = pointFloors (s.island i).tgt) :
    (s.rampEnded i).delivered = s.delivered := by
  simp [State.rampEnded, stand]

/-- Floors that do not stand yet are sent to every task that can take a notice. -/
theorem State.rampEnded_delivers {s : State} {t : Nat} (others : (s.island (t / 16)).floors ≠ pointFloors (s.island (t / 16)).tgt)
    (can : (s.tile t).noticed = true) : ∃ x : Island, x.throttle = (s.island (t / 16)).throttle ∧
      x.floors = pointFloors (s.island (t / 16)).tgt ∧ (t, x.floorNotice) ∈ (s.rampEnded (t / 16)).delivered := by
  rw [State.rampEnded, if_pos (bne_iff_ne.2 others)]
  refine ⟨_, ?_, ?_, State.postFloors_delivers _ (by rwa [State.tile_setPoint])⟩
  · rw [State.island_setPoint_self]
  · rfl

section
variable {s : State} {i : Nat} (part : i < Config.islands)
include part

theorem exec_voltageStepComplete_atRest (reached : (s.island i).tgt = (s.island i).cur) (settled : (s.island i).step = none) :
    exec (.voltageStepComplete i) s = .next (s.startHeld i) := by
  change execVoltageStepComplete i s = _
  simp [execVoltageStepComplete, Nat.not_le.2 part, reached, settled]

variable (ramp : (s.island i).tgt ≠ (s.island i).cur ∨ (s.island i).step ≠ none)
include ramp

theorem exec_voltageStepComplete_done (done : s.rampDone i) :
    exec (.voltageStepComplete i) s = .next ((s.rampEnded i).startHeld i) := by
  change execVoltageStepComplete i s = _
  rw [execVoltageStepComplete, if_neg (Nat.not_le.2 part)]
  dsimp only
  rw [if_neg (by simpa [Option.isNone_iff_eq_none, or_iff_not_imp_left] using ramp)]
  refine if_neg ?_
  unfold State.rampDone at done
  split at done
  · next lower => simp [lower, done]
  · next higher =>
    obtain ⟨c, step, settled⟩ := done
    simp [higher, step, settled]

theorem exec_voltageStepComplete_early (early : ¬ s.rampDone i) : exec (.voltageStepComplete i) s = .next s := by
  change execVoltageStepComplete i s = _
  rw [execVoltageStepComplete, if_neg (Nat.not_le.2 part)]
  dsimp only
  rw [if_neg (by simpa [Option.isNone_iff_eq_none, or_iff_not_imp_left] using ramp)]
  refine if_pos ?_
  unfold State.rampDone at early
  split at early
  · next lower => simp [lower, early]
  · next higher => cases step : (s.island i).step <;> simp_all

end

/-! ### Moved pages (R260) -/

/-- The bits of an entry that a move keeps: those of neither the tier nor the frame. -/
theorem moved_mask : ∀ k < 64, (0xE7FFFFF000000000 : Word).getLsbD k = (decide (36 ≤ k) && decide (k < 59 ∨ 60 < k)) := by decide

/-- A moved leaf has its new frame in the lowest 36 bits of its entry, its new tier in bits 59 and 60, and its old bits elsewhere. -/
theorem Leaf.moved_bit (l : Leaf) (tier frame : Nat) {k : Nat} (bit : k < 64) : (l.moved tier frame).entry.getLsbD k =
    if k < 36 then frame.testBit k else if k < 59 ∨ 60 < k then l.entry.getLsbD k else tier.testBit (k - 59) := by
  have small : frame % 2 ^ 36 < 2 ^ 59 := (Nat.mod_lt _ (by decide)).trans (by decide)
  have placed : (tier % 4 * 2 ^ 59 + frame % 2 ^ 36).testBit k =
      if k < 59 then decide (k < 36) && frame.testBit k else decide (k - 59 < 2) && tier.testBit (k - 59) := by
    rw [Nat.mul_comm, Nat.testBit_two_pow_mul_add _ small, Nat.testBit_mod_two_pow, show 4 = 2 ^ 2 from rfl, Nat.testBit_mod_two_pow]
  simp only [Leaf.moved, BitVec.getLsbD_or, BitVec.getLsbD_and, BitVec.getLsbD_ofNat, moved_mask k bit, placed, bit, decide_true, Bool.true_and]
  by_cases low : k < 36
  · simp [low, show ¬ 36 ≤ k by omega, show k < 59 by omega]
  by_cases below : k < 59
  · simp [low, below, Nat.not_lt.1 low]
  by_cases above : 60 < k
  · simp [low, below, above, Nat.not_lt.1 low, show ¬ k - 59 < 2 by omega]
  · simp [low, below, above, show k - 59 < 2 by omega]

section
variable (l : Leaf) {tier frame : Nat}

theorem Leaf.moved_tier (there : tier < 2) : (l.moved tier frame).tier = tier := by
  have bits : (l.moved tier frame).entry.extractLsb' 59 2 = BitVec.ofNat 2 tier := by
    refine BitVec.eq_of_getLsbD_eq fun k within => ?_
    rw [BitVec.getLsbD_extractLsb', BitVec.getLsbD_ofNat, l.moved_bit tier frame (show 59 + k < 64 by omega), if_neg (by omega),
      if_neg (by omega), Nat.add_sub_cancel_left]
  rw [Leaf.tier, bits, BitVec.toNat_ofNat, Nat.mod_eq_of_lt (by omega)]

theorem Leaf.moved_frame (there : frame < 2 ^ 36) : (l.moved tier frame).frame = frame := by
  have bits : (l.moved tier frame).entry.extractLsb' 0 36 = BitVec.ofNat 36 frame := by
    refine BitVec.eq_of_getLsbD_eq fun k within => ?_
    rw [BitVec.getLsbD_extractLsb', BitVec.getLsbD_ofNat, Nat.zero_add, l.moved_bit tier frame (show k < 64 by omega), if_pos within]
  rw [Leaf.frame, bits, BitVec.toNat_ofNat, Nat.mod_eq_of_lt there]

/-- A field above the frame that does not meet the tier stays. -/
theorem Leaf.moved_field {lo n : Nat} (high : 36 ≤ lo) (apart : lo + n ≤ 59 ∨ 60 < lo) (fits : lo + n ≤ 64) :
    (l.moved tier frame).entry.extractLsb' lo n = l.entry.extractLsb' lo n := by
  refine BitVec.eq_of_getLsbD_eq fun k within => ?_
  simp only [BitVec.getLsbD_extractLsb', l.moved_bit tier frame (show lo + k < 64 by omega)]
  rw [if_neg (by omega), if_pos (by omega)]

theorem Leaf.moved_ep : (l.moved tier frame).ep = l.ep := l.moved_bit tier frame (by decide)

end

/-- Words written raw change a memory and its keys alone. -/
theorem State.writeRaw_tiles (s : State) (tier a : Nat) (bs : List Byte) : (s.writeRaw tier a bs).tiles = s.tiles := by
  unfold State.writeRaw
  extract_lets hit m bare keys
  split <;> rfl

theorem State.copyPage_tiles (s : State) (l : Leaf) (tier frame : Nat) : (s.copyPage l tier frame).tiles = s.tiles := by
  unfold State.copyPage
  extract_lets n a b
  repeat' split
  all_goals rfl

/-- A table with every value changed reads as changed, where the change keeps the default. -/
theorem look_map {α : Type} {d : α} {f : α → α} (absent : f d = d) (k : Nat) (m : Table α) :
    look d k (m.map fun e => (e.1, f e.2)) = f (look d k m) := by
  induction m with
  | nil => exact absent.symm
  | cons e r ih => simp only [List.map_cons, look, ih, apply_ite f]

/-- Engines with the leaves that they have resolved changed. -/
def Engines.releaved (e : Engines) (swap : Leaf → Leaf) : Engines :=
  { e with
    copies := e.copies.map fun g => { g with leaves := g.leaves.map swap }
    atomics := e.atomics.map fun g => { g with leaf := g.leaf.map swap } }

theorem look_map_releaved (swap : Leaf → Leaf) (t : Nat) (m : Table Tile) :
    look ({ } : Tile) t (m.map fun e => (e.1, { e.2 with eng := e.2.eng.releaved swap })) =
      { look ({ } : Tile) t m with eng := (look ({ } : Tile) t m).eng.releaved swap } :=
  look_map (f := fun x : Tile => { x with eng := x.eng.releaved swap }) rfl t m

/-- A page that moves changes no register, no byte of staging and nothing of a sequencer. -/
theorem State.tile_movePage (s : State) (p : Page) (tier frame t : Nat) :
    ∃ eng, (s.movePage p tier frame).tile t = { s.tile t with eng := eng } := by
  unfold State.movePage
  extract_lets l inside u v swap w
  have tiles : w.tiles = s.tiles := by
    refine List.foldlRecOn (motive := fun x : State => x.tiles = s.tiles) _ _ ?_ ?_
    · simp only [v]
      split <;> exact s.copyPage_tiles l tier frame
    · intro x same q _
      exact (x.writeRaw_tiles ..).trans same
  have moved := look_map_releaved swap t w.tiles
  rw [show look ({ } : Tile) t w.tiles = s.tile t from congrArg (look _ t) tiles] at moved
  exact ⟨_, moved⟩

/-- Whether a page can move to a frame of a tier (R260, R376). -/
def State.pageGoes (s : State) (p : Page) (tier frame : Nat) : Bool :=
  tier < 2 && p.leaf.tier < 2 && wholePage s.pages p.leaf && !(pinned s.pages p.leaf && tier != 0)
    && s.frameFree s.pages p.leaf tier frame && !(p.leaf.tier == 0 && (s.tile (p.leaf.frame / 4096)).vault.failed)

theorem exec_pageMigration {s : State} {entry : Nat} {p : Page} (found : s.pages.find? (fun p => p.addr == entry) = some p)
    (frame tier : Nat) : exec (.pageMigration entry frame tier) s =
      .next (if s.pageGoes p tier frame then s.movePage p tier frame else s) := by
  change execPageMigration entry frame tier s = _
  rw [execPageMigration, found]
  rfl

theorem State.pageGoes_iff (s : State) (p : Page) (tier frame : Nat) : s.pageGoes p tier frame = true ↔
    tier < 2 ∧ p.leaf.tier < 2 ∧ wholePage s.pages p.leaf = true ∧ (pinned s.pages p.leaf = true → tier = 0) ∧
      s.frameFree s.pages p.leaf tier frame = true ∧
      (p.leaf.tier = 0 → (s.tile (p.leaf.frame / 4096)).vault.failed = false) := by
  simp only [State.pageGoes, Bool.and_eq_true, decide_eq_true_eq, and_assoc, Bool.not_eq_true', Bool.and_eq_false_imp,
    bne_eq_false_iff_eq, beq_iff_eq]

/-! ### The obligation -/

/-- Settles O47: a request has one outcome by what is in progress, a ramp ends where it is done, and a page moves where it can. -/
theorem operatingPointSteps : Obligations.OperatingPointSteps := by
  unfold Obligations.OperatingPointSteps
  refine ⟨?none, ?sup, ?start, ?ramp, ?report, ?held, ?ends, ?starts, ⟨rfl, rfl, rfl, rfl, rfl, rfl⟩, ?page, ?kept, ?leaf⟩
  case none =>
    intro port i n s own part above other
    rw [exec_operatingPointRequest own part, if_neg other, if_pos above]
  case sup =>
    intro port i s own part
    rw [exec_operatingPointRequest own part, if_pos rfl]
  case start =>
    intro port i n s own part point reached settled free
    rw [exec_operatingPointRequest_point own part point, if_neg (by simp [reached, settled, free])]
  case ramp =>
    intro i n s u
    refine ⟨State.startRamp_here, fun other => ?_, fun lower => ?_, fun higher => ?_⟩
    · obtain ⟨cur, tiles, -⟩ := s.startRamp_keeps i n
      exact ⟨State.startRamp_tgt other, cur, tiles⟩
    · simp only [u, State.startRamp_down lower]
      refine ⟨by rw [State.island_postFloors_self], fun t here can => ?_⟩
      subst here
      have sent := State.postFloors_delivers n (s := s.setPoint (t / 16) { s.island (t / 16) with tgt := n }) (by rwa [State.tile_setPoint])
      rwa [← State.island_postFloors_self] at sent
    · simp only [u, State.startRamp_up higher, State.island_setPoint_self, State.setPoint_delivered, and_self]
  case report => exact fun i x p s owner changed => ⟨s.island_setPoint_self i x, State.told_setPoint owner changed⟩
  case held =>
    intro port i n s own part point busy
    obtain ⟨tiles, island⟩ := s.holdRequest_same i n
    rw [← State.island_doneTo _ port] at island
    rw [← State.doneTo_tiles _ port] at tiles
    refine ⟨_, (exec_operatingPointRequest_point own part point).trans (congrArg _ (if_pos busy)), ?_⟩
    dsimp only
    rw [island]
    exact ⟨rfl, rfl, rfl, rfl, rfl, tiles⟩
  case ends =>
    intro i s part ramp done
    refine ⟨fun ended => ?_, exec_voltageStepComplete_early part ramp⟩
    obtain ⟨floors, island⟩ := s.rampEnded_island i
    obtain ⟨cur, tiles, delivered, unheld⟩ := (s.rampEnded i).startHeld_keeps i
    rw [island] at cur unheld
    refine ⟨_, exec_voltageStepComplete_done part ramp ended, cur, tiles.trans (s.rampEnded_tiles i), fun none => ?_,
      fun none stand => ?_, fun others t here can => ?_⟩
    · rw [unheld none, island]
      exact ⟨rfl, rfl⟩
    · rw [unheld none, State.rampEnded_delivered stand]
    · subst here
      obtain ⟨x, throttle, point, sent⟩ := State.rampEnded_delivers others can
      exact ⟨x, throttle, point, delivered _ sent⟩
  case starts =>
    intro i s part reached settled
    refine ⟨fun free => ?_, fun waits => ?_⟩
    · obtain ⟨held, free⟩ := free
      rw [exec_voltageStepComplete_atRest part reached settled, State.startHeld]
      simp [held, free, reached, settled]
    · rw [exec_voltageStepComplete_atRest part reached settled, State.startHeld]
      obtain none | waits := waits
      · simp [none]
      · simp [waits]
  case page =>
    intro entry frame tier p s found goes
    have moves := exec_pageMigration found frame tier
    have goes_iff := s.pageGoes_iff p tier frame
    exact ⟨fun can => moves.trans (congrArg _ (if_pos (goes_iff.2 can))), fun cannot => moves.trans (congrArg _ (if_neg (mt goes_iff.1 cannot)))⟩
  case kept =>
    intro p tier frame t s
    obtain ⟨_, moved⟩ := s.tile_movePage p tier frame t
    rw [moved]
    exact ⟨rfl, rfl, rfl⟩
  case leaf =>
    exact fun l tier frame there fits => ⟨l.moved_tier there, l.moved_frame fits,
      congrArg BitVec.toNat (l.moved_field (by decide) (by decide) (by decide)), l.moved_ep,
      congrArg BitVec.toNat (l.moved_field (by decide) (by decide) (by decide))⟩

end Sys2Proof.Machine
end

section
/-! PROOFS. Which tiles the ends of tasks and launches change (R129, R309, R342 to R344). -/

namespace Sys2Proof.Machine

/-! ### One tile after another -/

section
variable {f : State → Nat → State} (own : ∀ s t v, v ≠ t → (f s t).tile v = s.tile v) {u : Nat}
include own

/-- Steps that change a tile each leave the tiles that are not theirs. -/
theorem State.tile_foldl_of_notMem (ts : List Nat) (out : u ∉ ts) : ∀ s : State, (ts.foldl f s).tile u = s.tile u := by
  induction ts with
  | nil => exact fun _ => rfl
  | cons t ts ih =>
    intro s
    obtain ⟨other, rest⟩ := not_or.1 (mt List.mem_cons.2 out)
    rw [List.foldl_cons, ih rest, own s t u other]

/-- What its own step keeps of a tile, all of them keep. -/
theorem State.tile_foldl_keeps {P : Tile → Prop} (keeps : ∀ s, P (s.tile u) → P ((f s u).tile u)) (ts : List Nat) :
    ∀ s : State, P (s.tile u) → P ((ts.foldl f s).tile u) := by
  induction ts with
  | nil => exact fun _ => id
  | cons t ts ih =>
    intro s held
    refine ih _ ?_
    by_cases same : u = t
    · exact same ▸ keeps s held
    · rwa [own s t u same]

/-- What its own step makes of a tile holds of it once it has been its turn. -/
theorem State.tile_foldl_reaches {R P : Tile → Prop} (weaker : ∀ x, P x → R x) (reaches : ∀ s, R (s.tile u) → P ((f s u).tile u))
    (ts : List Nat) (listed : u ∈ ts) : ∀ s : State, R (s.tile u) → P ((ts.foldl f s).tile u) := by
  have keeps := State.tile_foldl_keeps own fun s held => reaches s (weaker _ held)
  induction ts with
  | nil => cases listed
  | cons t ts ih =>
    intro s held
    by_cases same : u = t
    · exact keeps ts _ (same ▸ reaches s held)
    · exact ih ((List.mem_cons.1 listed).resolve_left same) _ ((own s t u same).symm ▸ held)

end

/-! ### Atomics (R127, R131, R309) -/

theorem State.putLine_tiles (s : State) (key tier line : Nat) (bs : List Byte) : (s.putLine key tier line bs).tiles = s.tiles := by
  unfold State.putLine
  split <;> rfl

theorem State.writePart_tiles (s : State) (l : Leaf) (va : Nat) (bs : List Byte) : (s.writePart l va bs).tiles = s.tiles := by
  unfold State.writePart State.writeLine
  dsimp only
  split
  · exact s.putLine_tiles _ _ _ _
  · split <;> rfl

theorem State.tagAtom_tiles (s : State) (a : Actor) (line va : Nat) : (s.tagAtom a line va).tiles = s.tiles := by
  unfold State.tagAtom
  extract_lets g
  obtain ⟨_, _, _, reported⟩ := s.epochReport_same a 0x2A va 2 g
  split
  · rfl
  · split
    · rfl
    · rw [reported]

theorem State.performAtomic_snd_tiles (s : State) (a : Actor) (l : Leaf) (va size : Nat) (op : AOp) (n e : Word) :
    (s.performAtomic a l va size op n e).2.tiles = s.tiles := by
  unfold State.performAtomic
  extract_lets k old new s'
  have written : s'.tiles = s.tiles := s.writePart_tiles _ _ _
  dsimp only
  split
  · exact (s'.tagAtom_tiles _ _ _).trans written
  · exact written

theorem State.performLine_snd_tiles (l : Leaf) (line : Nat) (acc : List LineAccess) : ∀ s : State,
    (s.performLine l line acc).2.tiles = s.tiles := by
  induction acc with
  | nil => exact fun _ => rfl
  | cons e r ih =>
    intro s
    cases store : e.store with
    | true => rw [State.performLine_store store, ih, State.writePart_tiles]
    | false => rw [State.performLine_load store, ih]

theorem State.tagRegion_tiles (s : State) (a : Actor) (l : Leaf) (line : Nat) (acc : List LineAccess) :
    (s.tagRegion a l line acc).tiles = s.tiles := by
  unfold State.tagRegion
  split
  · rfl
  · refine List.foldlRecOn (motive := fun u : State => u.tiles = s.tiles) _ _ rfl fun u same o _ => ?_
    exact (u.tagAtom_tiles _ _ _).trans same

theorem State.translate_snd_tiles (s : State) (t : Nat) (w : Want) (va : Nat) : (s.translate t w va).2.tiles = s.tiles := by
  unfold State.translate
  extract_lets root k secure r fresh s'
  repeat' split
  all_goals rfl

section
variable {t v : Nat} (other : v ≠ t)
include other

theorem State.tile_landLoads_of_ne (now : Nat) (ps : List (LineAccess × Nat)) (s : State) : (s.landLoads t now ps).tile v = s.tile v := by
  unfold State.landLoads
  refine List.foldlRecOn (motive := fun u : State => u.tile v = s.tile v) _ _ rfl fun u same p _ => ?_
  split
  · rw [State.tile_onTile, if_neg other, same]
  · exact same

/-- An atomic that performs changes memory and its own tile. -/
theorem State.tile_finishAtomic_of_ne (s : State) (a : Atomic) (l : Leaf) : (s.finishAtomic t a l).tile v = s.tile v := by
  have dropped : (s.dropAtomic t a).tile v = s.tile v := (State.tile_onTile ..).trans (if_neg other)
  cases kind : a.kind with
  | line acc =>
    rw [State.finishAtomic_line kind, State.tile_landLoads_of_ne other, State.tile, State.tagRegion_tiles, State.performLine_snd_tiles]
    exact dropped
  | scalar op size n e ret =>
    have performed : ((s.dropAtomic t a).performAtomic (s.actor t) l a.va size op n e).2.tile v = s.tile v :=
      (congrArg (look _ v) (State.performAtomic_snd_tiles ..)).trans dropped
    unfold State.finishAtomic
    dsimp only
    rw [kind]
    dsimp only
    split
    · rw [State.tile_onTile, if_neg other]
      exact performed
    · exact performed

theorem State.tile_performAll_of_ne (s : State) : (s.performAll t).tile v = s.tile v := by
  unfold State.performAll
  refine List.foldlRecOn (motive := fun u : State => u.tile v = s.tile v) _ _ rfl fun u same a _ => ?_
  have walked : (u.translate t a.want a.va).2.tile v = s.tile v :=
    (congrArg (look _ v) (u.translate_snd_tiles _ _ _)).trans same
  split
  · exact same
  · dsimp only
    split
    · split
      · exact walked
      · exact (State.tile_finishAtomic_of_ne other _ _ _).trans walked
    · exact walked

/-- A tile that is released leaves the others. -/
theorem State.tile_releaseTile_of_ne (s : State) : (s.releaseTile t).tile v = s.tile v := by
  rw [State.releaseTile, State.tile_setTile, if_neg other]
  exact State.tile_performAll_of_ne other s

end

/-! ### The end of a launch (R314, R342 to R344) -/

theorem State.noteEnding_tiles (s : State) (serial : Nat) (l : Launch) : (s.noteEnding serial l).tiles = s.tiles := by
  unfold State.noteEnding
  split <;> rfl

/-- A launch that takes its final state leaves each of its tiles, or releases it. -/
theorem State.tile_concludes (s : State) (serial u : Nat) :
    ((s.concludes serial).tile u).task = none ∨ (s.concludes serial).tile u = s.tile u := by
  unfold State.concludes
  split
  · exact .inr rfl
  · split
    · exact .inr rfl
    · next st code _ =>
      extract_lets mine noted logged cleared
      split
      · exact .inr rfl
      · have recorded : cleared.tile u = s.tile u := by
          have tiles : cleared.tiles = noted.tiles := noted.logIt_tiles _ _ _ _
          rw [State.tile, tiles, State.noteEnding_tiles]
          exact s.tile_onLaunch serial _ u
        refine State.tile_foldl_keeps ?_ (P := fun x => x.task = none ∨ x = s.tile u) ?_ mine cleared (.inr recorded)
        · intro v t w other
          split
          · exact State.tile_releaseTile_of_ne other v
          · rfl
        · intro v held
          split
          · exact .inl (v.tile_releaseTile u).1
          · exact held

/-- A tile whose task issues nothing again but for the issues left of a repeating bundle in hand (R342, R344). -/
def Tile.issuesEnd (x : Tile) : Prop :=
  x.seq.phase = .closing ∨ x.seq.phase = .stopped ∨ x.seq.phase = .halted ∨
    (x.seq.phase = .running ∧ x.seq.inHand = true ∧ x.seq.ceasing = true)

theorem Tile.ceases_issuesEnd (x : Tile) (st : LState) : (x.ceases st).issuesEnd := by
  unfold Tile.ceases Tile.issuesEnd
  split
  · next stopped =>
    obtain stopped | halted := Bool.or_eq_true_iff.1 stopped
    · exact .inr (.inl (beq_iff_eq.1 stopped))
    · exact .inr (.inr (.inl (beq_iff_eq.1 halted)))
  · split
    · next repeating =>
      simp only [Bool.and_eq_true, beq_iff_eq] at repeating
      obtain ⟨⟨-, running⟩, inHand⟩ := repeating
      exact .inr (.inr (.inr ⟨running, inHand, rfl⟩))
    · exact .inl rfl

theorem Tile.ceases_runs (x : Tile) (st : LState) (serial : Nat) : (x.ceases st).runs serial = x.runs serial := by
  unfold Tile.ceases
  repeat' split
  all_goals rfl

/-- What the end of a launch makes of one of its tiles. -/
def State.endTile (s : State) (serial : Nat) (st : LState) (t : Nat) : State :=
  let s := if (s.tile t).saves serial then s.onTile t Tile.discard else s
  if (s.tile t).runs serial then (s.voidNotices t).onTile t (·.ceases st) else s

theorem State.tile_endTile (s : State) (serial : Nat) (st : LState) (t v : Nat) (other : v ≠ t) :
    (s.endTile serial st t).tile v = s.tile v := by
  unfold State.endTile
  extract_lets u
  have discarded : u.tile v = s.tile v := by
    unfold u
    split
    · exact (State.tile_onTile ..).trans (if_neg other)
    · rfl
  split
  · exact ((State.tile_onTile ..).trans (if_neg other)).trans discarded
  · exact discarded

theorem State.endTile_issuesEnd {s : State} {serial t : Nat} (runs : (s.tile t).runs serial = true) (st : LState) :
    ((s.endTile serial st t).tile t).issuesEnd ∧ ((s.endTile serial st t).tile t).runs serial = true := by
  unfold State.endTile
  extract_lets u
  have bound : (u.tile t).runs serial = true := by
    unfold u
    split
    · rw [State.tile_onTile_self]
      exact runs
    · exact runs
  rw [if_pos bound, State.tile_onTile_self]
  exact ⟨Tile.ceases_issuesEnd _ st, (Tile.ceases_runs _ st serial).trans bound⟩

/-- The tasks of a launch that ends by order issue nothing again but for the issues left of a repeating bundle in hand. -/
theorem State.endLaunch_issuesEnd {s : State} {serial t : Nat} {l : Launch} (listed : s.launch serial = some l) (of : t ∈ l.tiles)
    (runs : (s.tile t).runs serial = true) (st : LState) (code : Nat) :
    ((s.endLaunch serial st code).tile t).task = none ∨ ((s.endLaunch serial st code).tile t).issuesEnd := by
  unfold State.endLaunch
  rw [listed]
  dsimp -zeta only
  extract_lets u ordered ended
  have issues : (ended.tile t).issuesEnd ∧ (ended.tile t).runs serial = true := by
    refine State.tile_foldl_reaches (f := fun s t => s.endTile serial st t) (R := fun x => x.runs serial = true)
      (P := fun x => x.issuesEnd ∧ x.runs serial = true) (fun s t v other => s.tile_endTile serial st t v other) (fun _ held => held.2)
      (fun s runs => State.endTile_issuesEnd runs st) l.tiles of ordered ?_
    rw [State.tile_onLaunch]
    exact runs
  obtain released | same := ended.tile_concludes serial t
  · exact .inl released
  · exact .inr (same ▸ issues.1)

/-! ### Restart (R281, R342) -/

/-- Atomics that are in flight again change the flights alone. -/
theorem Tile.revive_same (x : Tile) (a : Atomic) : ∃ fs, x.revive a = { x with seq := { x.seq with flights := fs } } := by
  unfold Tile.revive
  extract_lets fly
  have flies : ∀ y : Tile, (∃ fs, y = { x with seq := { x.seq with flights := fs } }) → ∀ id reg,
      ∃ fs, fly y id reg = { x with seq := { x.seq with flights := fs } } := by
    rintro _ ⟨fs, rfl⟩ id reg
    exact ⟨_, rfl⟩
  have still : ∃ fs, x = { x with seq := { x.seq with flights := fs } } := ⟨_, rfl⟩
  split
  · split
    · exact still
    · exact flies x still _ _
  · refine List.foldlRecOn (motive := fun y : Tile => ∃ fs : List Flight, y = { x with seq := { x.seq with flights := fs } }) _ _ still fun y held e _ => ?_
    split
    · split
      · exact held
      · exact flies y held _ _
    · exact held
  · exact still

theorem Tile.foldl_revive_same (as : List Atomic) (x : Tile) :
    ∃ fs, as.foldl Tile.revive x = { x with seq := { x.seq with flights := fs } } := by
  refine List.foldlRecOn (motive := fun y : Tile => ∃ fs : List Flight, y = { x with seq := { x.seq with flights := fs } }) _ _ ⟨x.seq.flights, rfl⟩ ?_
  rintro _ ⟨fs, rfl⟩ a -
  obtain ⟨gs, revived⟩ := Tile.revive_same { x with seq := { x.seq with flights := fs } } a
  exact ⟨gs, revived⟩

/-- A tile that goes on from its frame (R281, R342): with the staging of a tile, and of its faults those that no operation finds
again. -/
structure Tile.Restarted (x y : Tile) : Prop where
  phase : y.seq.phase = .resuming
  frames : y.frames = false
  pre : y.sys.pre = false
  faults : y.seq.faults = x.seq.faults.filter fun f => !isGlobalCode f.2.code
  st : y.st = x.st

theorem State.restarted_restartedTile (s : State) (t : Nat) : (s.tile t).Restarted (s.restartedTile t) where
  phase := rfl
  frames := rfl
  pre := rfl
  faults := by
    unfold State.restartedTile
    extract_lets x now base a wait since stopped live y z hd
    obtain ⟨fs, revived⟩ := Tile.foldl_revive_same stopped y
    have faults : z.seq.faults = x.seq.faults := by
      unfold z
      rw [revived]
      rfl
    dsimp only
    rw [faults]
  st := s.restartedTile_st t

/-- A restart from the frame comes to the same on what a restart has left. -/
theorem Tile.Restarted.again {x y z : Tile} (h : x.Restarted y) (h' : y.Restarted z) : x.Restarted z where
  phase := h'.phase
  frames := h'.frames
  pre := h'.pre
  faults := by rw [h'.faults, h.faults, List.filter_filter]; simp
  st := h'.st.trans h.st

theorem State.tile_restartTile_of_ne (s : State) (t v : Nat) (other : v ≠ t) : (s.restartTile t).tile v = s.tile v :=
  (State.tile_setTile ..).trans (if_neg other)

theorem State.tile_resumeInPlace_of_ne (s : State) (t v : Nat) (other : v ≠ t) : (s.resumeInPlace t).tile v = s.tile v :=
  (State.tile_onTile ..).trans (if_neg other)

/-- A task that goes on in its place as well is still as restarted. -/
theorem Tile.Restarted.resumeInPlace {x : Tile} {s : State} {t : Nat} (h : x.Restarted (s.tile t)) :
    x.Restarted ((s.resumeInPlace t).tile t) := by
  rw [State.resumeInPlace, State.tile_onTile_self]
  exact ⟨rfl, h.frames, h.pre, h.faults, h.st⟩

section
variable {s : State} {serial t : Nat} {l : Launch}

/-- A member that stopped restartably goes on from its frame. -/
theorem State.restarted_restartGang (of : t ∈ l.tiles) (runs : (s.tile t).runs serial = true) (stopped : s.restarts t = true) :
    (s.tile t).Restarted ((s.restartGang serial l).tile t) := by
  unfold State.restartGang
  extract_lets mine down roles noticed back resumed waits
  rw [State.tile_onLaunch]
  refine State.tile_foldl_keeps State.tile_resumeInPlace_of_ne (P := (s.tile t).Restarted) (fun _ held => held.resumeInPlace) _ back ?_
  refine State.tile_foldl_reaches State.tile_restartTile_of_ne (R := fun x => x = s.tile t ∨ (s.tile t).Restarted x)
    (fun _ => .inr) ?_ down (List.mem_filter.2 ⟨List.mem_filter.2 ⟨of, runs⟩, stopped⟩) noticed (.inl rfl)
  intro u held
  have restarted := u.restarted_restartedTile t
  rw [State.restartTile, State.tile_setTile_self]
  obtain same | before := held
  · exact same ▸ restarted
  · exact before.again restarted

/-- A restart leaves the tiles that are not the launch's, and those that have neither stopped restartably nor stand in their place. -/
theorem State.tile_restartGang_of_other
    (out : t ∉ l.tiles ∨ (s.tile t).runs serial = false ∨ (s.restarts t = false ∧ (s.tile t).inPlace = false)) :
    (s.restartGang serial l).tile t = s.tile t := by
  unfold State.restartGang
  extract_lets mine down roles noticed back resumed waits
  have notDown : t ∉ down := by
    simp only [down, mine, List.mem_filter]
    rintro ⟨⟨of, runs⟩, stopped⟩
    simp_all
  have same : back.tile t = s.tile t := State.tile_foldl_of_notMem State.tile_restartTile_of_ne down notDown noticed
  have notPlaced : t ∉ mine.filter fun t => (back.tile t).inPlace := by
    simp only [mine, List.mem_filter, same]
    rintro ⟨⟨of, runs⟩, placed⟩
    simp_all
  rw [State.tile_onLaunch]
  exact (State.tile_foldl_of_notMem State.tile_resumeInPlace_of_ne _ notPlaced back).trans same

theorem State.restartGang_mem : (s.restartGang serial l).mem = s.mem := by
  unfold State.restartGang
  extract_lets mine down roles noticed back resumed waits
  rw [State.onLaunch_mem]
  have restarted : back.mem = s.mem := List.foldlRecOn (motive := fun u : State => u.mem = s.mem) _ _ rfl fun _ same _ _ => same
  exact List.foldlRecOn (motive := fun u : State => u.mem = s.mem) _ _ restarted fun _ same _ _ => same

end

/-! ### The owner's orders and the status interface (R342 to R345, R357) -/

theorem Launch.expired_iff (l : Launch) (pcc : Nat) : l.expired pcc = true ↔ ∃ c, l.leftAt = some c ∧ c + 17500000000 ≤ pcc := by
  unfold Launch.expired
  cases l.leftAt <;> simp

section
variable {s : State} {port serial : Nat} {l : Launch} (own : Owns s port) (listed : s.launch serial = some l)
include own listed

theorem exec_gangRestart : exec (.gangRestart port serial) s = .next
    (if l.state != .held || l.tiles.any (fun t => (s.tile t).runs serial && (s.tile t).seq.phase == .trapping) then s.refuseTo port 0
     else (s.restartGang serial l).doneTo port) := by
  change execGangRestart port serial s = _
  rw [execGangRestart, if_neg (Nat.not_le.2 own.1), own.asOwner, listed]

theorem exec_holdEnd : exec (.holdEnd port serial) s = .next
    (if l.state == .held && l.endsAs.isNone then (s.endLaunch serial .failed 0).doneTo port else s.refuseTo port 0) := by
  change execHoldEnd port serial s = _
  rw [execHoldEnd, if_neg (Nat.not_le.2 own.1), own.asOwner, listed]

theorem exec_cancel : exec (.cancel port serial) s = .next
    (if l.state.final || l.endsAs.isSome then s.refuseTo port 0 else (s.endLaunch serial .cancelled 0).doneTo port) := by
  change execCancel port serial s = _
  rw [execCancel, if_neg (Nat.not_le.2 own.1), own.asOwner, listed]

theorem exec_statusAck : exec (.statusAck port serial) s = .next
    (if l.state.final && !l.acked && !l.expired s.pcc then (s.onLaunch serial fun l => { l with acked := true }).doneTo port
     else s.refuseTo port 0) := by
  change execStatusAck port serial s = _
  rw [execStatusAck, if_neg (Nat.not_le.2 own.1), own.asOwner, listed]

end

section
variable {s : State} {port serial : Nat} {l : Launch} (part : port < 2) (reads : s.mayRead port = true)
  (listed : s.launch serial = some l)
include part reads listed

theorem exec_launchStatusRead_record : exec (.launchStatusRead port (.record serial)) s = .next
    (if l.acked || l.expired s.pcc then s.refuseTo port 0 else s.tell port (.words (l.status serial))) := by
  change execLaunchStatusRead port (.record serial) s = _
  rw [execLaunchStatusRead, if_neg (Nat.not_le.2 part), if_neg (by simp [reads]), listed]

/-- The frames of a stopped task are read, and its tile is free once its owner has read them, where they may go (R343). -/
theorem exec_launchStatusRead_frames {t : Nat} (runs : (s.tile t).runs serial = true) (kept : (s.tile t).frames = true) :
    exec (.launchStatusRead port (.frames serial t)) s = .next
      (let u := s.tell port (.bytes (readBytes s.mem (rowAddr t 0) 8192))
       if s.commander = some port ∧ s.framesGo t = true then u.releaseTile t else u) := by
  change execLaunchStatusRead port (.frames serial t) s = _
  rw [execLaunchStatusRead, if_neg (Nat.not_le.2 part), if_neg (by simp [reads])]
  rw [listed]
  dsimp only
  rw [State.readFrames, if_neg (by simp [runs, kept])]
  dsimp only
  simp only [Bool.and_eq_true, decide_eq_true_eq]
  rfl

end

theorem exec_frameRelease {s : State} {port t : Nat} (own : Owns s port) (part : t < Config.tiles) :
    exec (.frameRelease port t) s = .next (if s.framesGo t then (s.releaseTile t).doneTo port else s.refuseTo port 0) := by
  change execFrameRelease port t s = _
  rw [execFrameRelease, if_neg (by simp [own.1, part]), own.asOwner]

theorem exec_failedTileReleaseTimeout {s : State} {t c : Nat} {k : Task} {l : Launch} (part : t < Config.tiles)
    (task : (s.tile t).task = some k) (listed : s.launch k.serial = some l) (kept : (s.tile t).frames = true)
    (failed : l.state = .failed) (left : l.leftAt = some c) :
    exec (.failedTileReleaseTimeout t) s = .next (if c + 1750000000 ≤ s.pcc then s.releaseTile t else s) := by
  have expires : s.framesExpire t = decide (c + 1750000000 ≤ s.pcc) := by
    simp [State.framesExpire, task, listed, kept, failed, left]
  change execFailedTileReleaseTimeout t s = _
  rw [execFailedTileReleaseTimeout, if_neg (Nat.not_le.2 part), expires]
  simp

theorem exec_statusRecordExpiry {s : State} {serial c : Nat} {l : Launch} (listed : s.launch serial = some l)
    (left : l.leftAt = some c) : exec (.statusRecordExpiry serial) s = .next
      (if c + 17500000000 ≤ s.pcc then s.onLaunch serial fun l => { l with acked := true } else s) := by
  have expires : l.expired s.pcc = decide (c + 17500000000 ≤ s.pcc) := by simp [Launch.expired, left]
  change execStatusRecordExpiry serial s = _
  rw [execStatusRecordExpiry, listed]
  dsimp only
  rw [expires]
  simp

/-! ### The obligation -/

/-- Settles O45: each order has one outcome by its launch's state, a restart and an end change a tile of the launch as its own step
does, and frames and records stay for their time. -/
theorem heldLaunchSteps : Obligations.HeldLaunchSteps := by
  unfold Obligations.HeldLaunchSteps
  refine ⟨?restart, ?restarted, ?orders, ?ends, ?ceased, ?read, ?release, ?timeout, ?released, ?expiry⟩
  case restart =>
    intro port serial l s own listed
    have ordered := exec_gangRestart own listed
    refine ⟨fun ready => ordered.trans (congrArg _ (if_neg ?_)), fun other => ordered.trans (congrArg _ (if_pos ?_))⟩
    · obtain ⟨held, down⟩ := ready
      simpa [held] using down
    · simp [other]
  case restarted =>
    intro serial l s u
    refine ⟨State.restartGang_mem, fun t of runs stopped => ?_, fun t => State.tile_restartGang_of_other⟩
    obtain ⟨phase, frames, pre, faults, st⟩ := State.restarted_restartGang of runs stopped
    exact ⟨phase, frames, pre, faults, st⟩
  case orders =>
    intro port serial l s own listed
    have ends := exec_holdEnd own listed
    have cancels := exec_cancel own listed
    have acks := exec_statusAck own listed
    refine ⟨fun held => ends.trans (congrArg _ (if_pos ?_)), fun other => ends.trans (congrArg _ (if_neg ?_)),
      fun runs => cancels.trans (congrArg _ (if_neg ?_)), fun final => cancels.trans (congrArg _ (if_pos ?_)), ?_⟩
    · simpa using held
    · simpa [← imp_iff_not_or] using other
    · simpa using runs
    · simpa [Option.isSome_iff_ne_none] using final
    · intro past
      have expired : l.expired s.pcc = true ↔ past := l.expired_iff s.pcc
      have stands : (l.state.final && !l.acked && !l.expired s.pcc) = true ↔ l.state.final = true ∧ l.acked = false ∧ ¬ past := by
        rw [← expired]
        simp [and_assoc]
      refine ⟨fun kept => acks.trans (congrArg _ (if_pos (stands.2 kept))),
        fun gone => acks.trans (congrArg _ (if_neg (mt stands.1 ?_)))⟩
      rintro ⟨final, unread, late⟩
      simp_all
  case ends => exact fun serial l st code s listed t of runs => State.endLaunch_issuesEnd listed of runs st code
  case ceased =>
    intro x ceasing done
    simp [Tile.ceased, ceasing, done, Tile.closed]
  case read =>
    intro port serial l s part reads listed past
    have expired : l.expired s.pcc = true ↔ past := l.expired_iff s.pcc
    have record := exec_launchStatusRead_record part reads listed
    refine ⟨fun unread stands => record.trans (congrArg _ (if_neg ?_)), fun gone => record.trans (congrArg _ (if_pos ?_)),
      fun t runs kept => exec_launchStatusRead_frames part reads listed runs kept⟩
    · rw [Bool.or_eq_true, expired]
      exact not_or.2 ⟨by simp [unread], stands⟩
    · rwa [Bool.or_eq_true, expired]
  case release =>
    intro port t s own part
    have releases := exec_frameRelease own part
    exact ⟨fun go => releases.trans (congrArg _ (if_pos go)), fun stay => releases.trans (congrArg _ (if_neg (by simp [stay])))⟩
  case timeout =>
    intro t k l c s part task listed kept failed left
    have expires := exec_failedTileReleaseTimeout part task listed kept failed left
    exact ⟨fun due => expires.trans (congrArg _ (if_pos due)), fun early => expires.trans (congrArg _ (if_neg (Nat.not_le.2 early)))⟩
  case released =>
    intro t s
    exact ⟨(s.tile_releaseTile t).1, by simp [State.releaseTile, Tile.dropFalls]⟩
  case expiry =>
    intro serial l c s listed left
    have expires := exec_statusRecordExpiry listed left
    exact ⟨fun due => expires.trans (congrArg _ (if_pos due)), fun early => expires.trans (congrArg _ (if_neg (Nat.not_le.2 early)))⟩

end Sys2Proof.Machine
end

section
/-! PROOFS. Accesses from outside (R257, R262, R317, R360, R370), and MX links and their flits (R367, R368). -/

namespace Sys2Proof.Machine

/-! ### Node windows (R257, R317, R360; log entries 9, 90) -/

section
variable {s : State} {port : Nat} (own : Owns s port)
include own

section
variable {va : Nat} (home : va < 2 ^ 53)
include home

/-- A write by virtual address writes where every line translates, and is refused with the first code otherwise. -/
theorem exec_nodeWindowWrite {root : Word} (mapped : root ≠ 0) (bytes : List Byte) : exec (.nodeWindowWrite port root va bytes) s =
    .next ((s.outsideFault root (s.secureSession port) true va bytes.length).elim
      ((s.outsideWrite root (s.secureSession port) va bytes).reportDone port) (s.refuseTo port)) := by
  change execNodeWindowWrite port root va bytes s = _
  rw [execNodeWindowWrite, if_neg (Nat.not_le.2 own.1), own.asOwner, rankOf, if_pos home]
  dsimp only
  rw [if_neg mapped]
  cases s.outsideFault root (s.secureSession port) true va bytes.length <;> rfl

/-- Through root 0 a write reaches table regions alone, and nothing hidden from the session. -/
theorem exec_nodeWindowWrite_physical (bytes : List Byte) : exec (.nodeWindowWrite port 0 va bytes) s = .next
    (if !s.inTables (physOf va).1 (physOf va).2 bytes.length || s.hidden port (physOf va).1 (physOf va).2 bytes.length
     then s.refuseTo port 0x24 else (s.writeRaw (physOf va).1 (physOf va).2 bytes).reportDone port) := by
  change execNodeWindowWrite port 0 va bytes s = _
  rw [execNodeWindowWrite, if_neg (Nat.not_le.2 own.1), own.asOwner, rankOf, if_pos home]
  rfl

theorem exec_nodeWindowRead {root : Word} (mapped : root ≠ 0) (n : Nat) : exec (.nodeWindowRead port root va n) s =
    .next ((s.outsideFault root (s.secureSession port) false va n).elim
      (s.tell port (.bytes (s.outsideRead root (s.secureSession port) va n))).nextFree (s.refuseTo port)) := by
  change execNodeWindowRead port root va n s = _
  rw [execNodeWindowRead, if_neg (Nat.not_le.2 own.1), own.asOwner, rankOf, if_pos home]
  dsimp only
  rw [if_neg mapped]
  cases s.outsideFault root (s.secureSession port) false va n <;> rfl

theorem exec_nodeWindowRead_physical (n : Nat) : exec (.nodeWindowRead port 0 va n) s = .next
    (if !s.inTables (physOf va).1 (physOf va).2 n || s.hidden port (physOf va).1 (physOf va).2 n
     then s.refuseTo port 0x24 else s.tell port (.bytes (s.readRaw (physOf va).1 (physOf va).2 n))) := by
  change execNodeWindowRead port 0 va n s = _
  rw [execNodeWindowRead, if_neg (Nat.not_le.2 own.1), own.asOwner, rankOf, if_pos home]
  rfl

end

section
variable {va : Nat} (other : 2 ^ 53 ≤ va)
include other

/-- A window above this package's own is another member's (R370; log entry 110). -/
theorem exec_nodeWindowWrite_member (root : Word) (bytes : List Byte) : exec (.nodeWindowWrite port root va bytes) s =
    .next (s.toPeer port (va / 2 ^ 53 - 1) (.write root (va % 2 ^ 53) bytes)) := by
  change execNodeWindowWrite port root va bytes s = _
  rw [execNodeWindowWrite, if_neg (Nat.not_le.2 own.1), own.asOwner, rankOf, if_neg (Nat.not_lt.2 other)]

theorem exec_nodeWindowRead_member (root : Word) (n : Nat) : exec (.nodeWindowRead port root va n) s =
    .next (s.toPeer port (va / 2 ^ 53 - 1) (.read root (va % 2 ^ 53) n)) := by
  change execNodeWindowRead port root va n s = _
  rw [execNodeWindowRead, if_neg (Nat.not_le.2 own.1), own.asOwner, rankOf, if_neg (Nat.not_lt.2 other)]

end

theorem exec_apertureOpen (base : Nat) (root : Word) : exec (.apertureOpen port base root) s = .next
    (({ s with aperture := some (base, root) } : State).doneTo port) := by
  change execApertureOpen port base root s = _
  rw [execApertureOpen, if_neg (Nat.not_le.2 own.1), own.asOwner]

theorem exec_linkUpCommand {link : Nat} (part : link < 16) : exec (.linkUpCommand port link) s = .next
    (if (vget { } s.links link).up then s.refuseTo port 0
     else ({ s with links := vset s.links link { up := false, retrain := some s.pcc } } : State).doneTo port) := by
  change execLinkUpCommand port link s = _
  rw [execLinkUpCommand, if_neg (by simp [own.1, part]), own.asOwner]

end

/-! ### Other members' memory (R370) -/

section
variable {s : State} {rank : Nat}

theorem State.toPeer_sends {k : Nat} (route : s.linkTo rank = some k) (up : (vget { up := false } s.links k).up = true) (port : Nat)
    (op : PeerOp) : s.toPeer port rank op = s.tell (3 + (s.linkTo rank).getD 0) (.flit (flitOf 3 rank 0 0 [] (.peer op))) := by
  rw [State.toPeer, route]
  simp only [State.sendFlit, if_pos up, Option.getD_some]

theorem State.toPeer_refused (down : ∀ k, s.linkTo rank = some k → (vget { up := false } s.links k).up = false) (port : Nat)
    (op : PeerOp) : s.toPeer port rank op = s.refuseTo port 0 := by
  unfold State.toPeer
  split
  · next k route => exact if_neg (by simp [down k route])
  · rfl

end

/-! ### Peers (R262, R370) -/

section
variable {s : State} (ready : s.boot = .ready)
include ready

theorem exec_peerAccess_read (root : Word) (va n : Nat) : exec (.peerAccess (.read root va n)) s =
    .next ((s.outsideFault root false false va n).elim (s.tell 2 (.bytes (s.outsideRead root false va n))).nextFree s.peerRefused) := by
  change execPeerAccess (.read root va n) s = _
  rw [execPeerAccess, if_neg (by simp [ready])]
  cases s.outsideFault root false false va n <;> rfl

theorem exec_peerAccess_write (root : Word) (va : Nat) (bytes : List Byte) : exec (.peerAccess (.write root va bytes)) s =
    .next ((s.outsideFault root false true va bytes.length).elim ((s.outsideWrite root false va bytes).tell 2 .done) s.peerRefused) := by
  change execPeerAccess (.write root va bytes) s = _
  rw [execPeerAccess, if_neg (by simp [ready])]
  cases s.outsideFault root false true va bytes.length <;> rfl

/-- A read within the aperture is decoded, or refused with its first code. -/
theorem exec_peerAccess_apertureRead {base va n : Nat} {root : Word} (opened : s.aperture = some (base, root)) (above : base ≤ va)
    (fits : va + n ≤ base + 2 ^ 55) :
    (∀ bs, s.apertureRead root (va - base) n = .ok bs → exec (.peerAccess (.apertureRead va n)) s =
      .next (s.tell 2 (.bytes bs)).nextFree) ∧
    (∀ e, s.apertureRead root (va - base) n = .error e → exec (.peerAccess (.apertureRead va n)) s = .next (s.peerRefused e)) := by
  have within : ¬ (va < base || base + 2 ^ 55 < va + n) = true := by
    rw [Bool.or_eq_true, decide_eq_true_eq, decide_eq_true_eq]
    omega
  change (∀ bs, _ → execPeerAccess (.apertureRead va n) s = _) ∧ ∀ e, _ → execPeerAccess (.apertureRead va n) s = _
  rw [execPeerAccess, if_neg (by simp [ready]), opened]
  dsimp only
  rw [if_neg within]
  exact ⟨fun bs sound => by rw [sound], fun e fault => by rw [fault]⟩

theorem exec_peerAccess_apertureWrite (va : Nat) : exec (.peerAccess (.apertureWrite va)) s = .next (s.peerRefused 0x21) := by
  change execPeerAccess (.apertureWrite va) s = _
  rw [execPeerAccess, if_neg (by simp [ready])]

end

/-! ### Links (R368) -/

/-- A link that fails is down, and its service bit is set. -/
theorem State.linkFails_up {s : State} {link : Nat} (part : link < 16) (up : (vget { } s.links link).up = true) :
    (vget { } (s.linkFails link).links link).up = false ∧ (s.linkFails link).svc = s.svc ||| BitVec.twoPow 8 3 ∧
      (s.linkFails link).tiles = s.tiles := by
  obtain ⟨_, _, _, _, reported⟩ := State.reportFault_same
    { s with links := vset s.links link { up := false, retrain := none } } 3 12 link link
  rw [State.linkFails, if_neg (by simp [up]), reported]
  exact ⟨congrArg MxLink.up (vget_vset_self _ _ _ part), rfl, rfl⟩

theorem exec_linkLockLoss {s : State} {link : Nat} (part : link < 16) (ready : s.boot = .ready) :
    exec (.linkLockLoss link) s = .next (s.linkFails link) := by
  change execLinkLockLoss link s = _
  rw [execLinkLockLoss, if_neg (Nat.not_le.2 part), if_neg (by simp [ready])]

theorem exec_linkRetrainComplete {s : State} {link c : Nat} (part : link < 16) (down : (vget { } s.links link).up = false)
    (trains : (vget { } s.links link).retrain = some c) :
    exec (.linkRetrainComplete link) s = .next { s with links := vset s.links link { up := true } } := by
  change execLinkRetrainComplete link s = _
  rw [execLinkRetrainComplete, if_neg (Nat.not_le.2 part)]
  exact congrArg _ (if_pos (by simp [down, trains]))

/-! ### The form of a flit (R367; log entry 111) -/

theorem length_covered (f : Flit) : f.covered.length = 72 := by
  simp [Flit.covered]

theorem length_flitBytes (f : Flit) : f.bytes.length = 80 := by
  rw [Flit.bytes, List.length_append, length_covered f, length_leBytes]

theorem take_flitBytes (f : Flit) : f.bytes.take 72 = f.covered := by
  rw [Flit.bytes, List.take_left' (length_covered f)]

theorem flitOf_head (kind dest chan seq : Nat) (payload : List Byte) (use : FlitUse) : (flitOf kind dest chan seq payload use).head =
    BitVec.ofNat 64 (kind * 2 ^ 60 + dest * 2 ^ 44 + chan * 2 ^ 32 + seq) := rfl

theorem flitOf_crc (kind dest chan seq : Nat) (payload : List Byte) (use : FlitUse) :
    (flitOf kind dest chan seq payload use).crc = crc64 (flitOf kind dest chan seq payload use).covered := by
  simp only [flitOf, Flit.covered]

section
variable {kind dest chan seq : Nat} (destFits : dest < 65536) (chanFits : chan < 4096) (seqFits : seq < 2 ^ 32)
include destFits chanFits seqFits

/-- The fields of a head stand beside one another. -/
theorem fields_of_head {f : Flit} (head : f.head.toNat = kind * 2 ^ 60 + dest * 2 ^ 44 + chan * 2 ^ 32 + seq) :
    f.kind = kind ∧ f.dest = dest ∧ f.channel = chan ∧ f.sequence = seq := by
  simp only [Flit.kind, Flit.dest, Flit.channel, Flit.sequence, BitVec.extractLsb'_toNat, head, Nat.shiftRight_eq_div_pow]
  omega

variable (kindFits : kind < 16) (payload : List Byte) (use : FlitUse)
include kindFits

theorem toNat_flitOf_head : (flitOf kind dest chan seq payload use).head.toNat = kind * 2 ^ 60 + dest * 2 ^ 44 + chan * 2 ^ 32 + seq := by
  rw [flitOf_head, BitVec.toNat_ofNat, Nat.mod_eq_of_lt]
  omega

theorem flitOf_bytes : let f := flitOf kind dest chan seq payload use
    f.bytes = leBytes 8 (kind * 2 ^ 60 + dest * 2 ^ 44 + chan * 2 ^ 32 + seq) ++ (payload ++ List.replicate 64 0).take 64
      ++ leBytes 8 (crc64 (f.bytes.take 72)).toNat := by
  intro f
  rw [take_flitBytes, ← flitOf_crc, ← toNat_flitOf_head destFits chanFits seqFits kindFits payload use]
  rfl

end

/-! ### What a flit brings (R304, R367 to R370) -/

/-- What a flit that bears its CRC does: it goes on by a route, or is acted on here. -/
def State.actOn (s : State) (flit : Flit) : Host.Outcome State Fault Refusal :=
  match flit.kind, s.linkTo flit.dest with
  | 1, none => .next (s.lineComes flit)
  | 2, none => match flit.means with
    | .barrier serial level rank what => if 8 ≤ level then .next s else execBarrierMessage serial level what rank s
    | _ => .next s
  | 3, none => match flit.means with
    | .peer op => execPeerAccess op s
    | u => .next (s.answered u)
  | k, some out => .next (if 1 ≤ k && k ≤ 3 then s.sendFlit out flit else s)
  | _, none => .next s

section
variable {s : State} {link : Nat} {flit : Flit} (part : link < 16) (ready : s.boot = .ready) (up : (vget { } s.links link).up = true)
include part ready up

/-- A flit that does not bear its CRC, or that FEC could not restore, takes its link down. -/
theorem exec_mxFlitReceive_bad {ok : Bool} (bad : ok = false ∨ crc64 flit.covered ≠ flit.crc) :
    exec (.mxFlitReceive link flit ok) s = .next (s.linkFails link) := by
  change execMxFlitReceive link flit ok s = _
  rw [execMxFlitReceive, if_neg (Nat.not_le.2 part), if_neg (by simp [ready, up]), if_pos (by simpa using bad)]

/-- A flit that bears its CRC is acted on. -/
theorem exec_mxFlitReceive_sound (sound : crc64 flit.covered = flit.crc) :
    exec (.mxFlitReceive link flit true) s = s.actOn flit := by
  change execMxFlitReceive link flit true s = _
  rw [execMxFlitReceive, if_neg (Nat.not_le.2 part), if_neg (by simp [ready, up]), if_neg (by simp [sound])]
  rfl

end

section
variable {s : State} {flit : Flit}

/-- A flit for another rank goes on by that rank's link, if it is no link's management. -/
theorem State.actOn_route {out : Nat} (route : s.linkTo flit.dest = some out) :
    s.actOn flit = .next (if 1 ≤ flit.kind && flit.kind ≤ 3 then s.sendFlit out flit else s) := by
  simp only [State.actOn, route]

variable (home : s.linkTo flit.dest = none)
include home

theorem State.actOn_drop (kind : flit.kind = 0 ∨ 4 ≤ flit.kind) : s.actOn flit = .next s := by
  unfold State.actOn
  rw [home]
  split <;> simp_all

theorem State.actOn_line (kind : flit.kind = 1) : s.actOn flit = .next (s.lineComes flit) := by
  simp only [State.actOn, kind, home]

theorem State.actOn_peer (kind : flit.kind = 3) {op : PeerOp} (means : flit.means = .peer op) :
    s.actOn flit = exec (.peerAccess op) s := by
  change s.actOn flit = execPeerAccess op s
  simp only [State.actOn, kind, home, means]

theorem State.actOn_answer (kind : flit.kind = 3) (means : ∀ op, flit.means ≠ .peer op) :
    s.actOn flit = .next (s.answered flit.means) := by
  simp only [State.actOn, kind, home]

theorem State.actOn_barrier (kind : flit.kind = 2) {serial level rank : Nat} {what : BarrierNews}
    (means : flit.means = .barrier serial level rank what) (there : level < 8) :
    s.actOn flit = exec (.barrierMessage serial level what rank) s := by
  simp only [State.actOn, kind, home, means]
  exact if_neg (Nat.not_le.2 there)

end

/-- A line of a channel on which a running pod launch receives joins the lines in flight (log entry 59). -/
theorem State.lineComes_pod {s : State} {flit : Flit} {serial : Nat} {e : LinkEntry} (receives : s.podChannel flit.channel = some (serial, e)) :
    s.lineComes flit = { s with nextId := s.nextId + 1, lines := s.lines ++
      [{ seq := s.nextId, src := Config.tiles, serial := serial, chan := flit.channel, line := flit.sequence % e.lines
         bytes := (flit.payload ++ List.replicate 64 0).take 64, due := s.pcc, link := none }] } := by
  rw [State.lineComes, receives]
  rfl

/-! ### The obligation -/

/-- Settles O40: an access by its range and session, a link by what has come to it, and a flit by its CRC, route and kind. -/
theorem outsideAccessSteps : Obligations.OutsideAccessSteps := by
  unfold Obligations.OutsideAccessSteps
  refine ⟨?write, ?writePhysical, ?read, ?readPhysical, fun _ base root _ own => exec_apertureOpen own base root, ?peer, ?loss, ?order,
    ?retrain, ?form, fun _ _ _ _ part ready up bad => exec_mxFlitReceive_bad part ready up bad, ?flit,
    fun _ _ _ => ⟨fun up => if_pos up, fun down => if_neg (by simp [down])⟩, ?member⟩
  case write =>
    intro port root va bytes s own mapped home
    have written := exec_nodeWindowWrite own home mapped bytes
    exact ⟨fun e fault => by rw [written, fault]; rfl, fun sound => by rw [written, sound]; rfl⟩
  case writePhysical =>
    intro port va bytes s own home a
    have written := exec_nodeWindowWrite_physical own home bytes
    refine ⟨fun table seen => written.trans (congrArg _ (if_neg ?_)), fun closed => written.trans (congrArg _ (if_pos ?_))⟩
    · simp [a, table, seen]
    · simpa [a] using closed
  case read =>
    intro port root va n s own mapped home
    have answered := exec_nodeWindowRead own home mapped n
    refine ⟨fun e fault => by rw [answered, fault]; rfl, fun sound => ?_⟩
    rw [sound] at answered
    exact ⟨_, answered, rfl, rfl, rfl⟩
  case readPhysical =>
    intro port va n s own home a
    have answered := exec_nodeWindowRead_physical own home n
    refine ⟨fun table seen => answered.trans (congrArg _ (if_neg ?_)), fun closed => answered.trans (congrArg _ (if_pos ?_))⟩
    · simp [a, table, seen]
    · simpa [a] using closed
  case peer =>
    intro root va n bytes s ready
    have answered := exec_peerAccess_read ready root va n
    have written := exec_peerAccess_write ready root va bytes
    refine ⟨fun sound => ?_, fun e fault => by rw [answered, fault]; rfl,
      fun sound => by rw [written, sound]; rfl, fun e fault => by rw [written, fault]; rfl, fun base opened above fits => ?_,
      exec_peerAccess_apertureWrite ready va⟩
    · rw [sound] at answered
      exact ⟨_, answered, rfl, rfl⟩
    · exact exec_peerAccess_apertureRead ready opened above fits
  case loss =>
    intro link s part ready up
    exact ⟨_, exec_linkLockLoss part ready, State.linkFails_up part up⟩
  case order =>
    intro port link s own part down
    refine ⟨_, (exec_linkUpCommand own part).trans (congrArg _ (if_neg (by simp [down]))), ?_, ?_, rfl⟩
    · exact congrArg MxLink.up (vget_vset_self _ _ _ part)
    · exact congrArg MxLink.retrain (vget_vset_self _ _ _ part)
  case retrain =>
    intro link c s part down trains
    exact ⟨_, exec_linkRetrainComplete part down trains, congrArg MxLink.up (vget_vset_self _ _ _ part), rfl⟩
  case form =>
    intro kind dest chan seq payload use kindFits destFits chanFits seqFits f
    obtain ⟨isKind, isDest, isChannel, isSequence⟩ :=
      fields_of_head destFits chanFits seqFits (toNat_flitOf_head destFits chanFits seqFits kindFits payload use)
    exact ⟨isKind, isDest, isChannel, isSequence, length_flitBytes f, flitOf_bytes destFits chanFits seqFits kindFits payload use⟩
  case flit =>
    intro link flit s part ready up sound
    have acts := exec_mxFlitReceive_sound part ready up sound
    refine ⟨fun out route => ⟨fun low high => ?_, fun kind => ?_⟩, fun home => ⟨fun kind => acts.trans (State.actOn_drop home kind),
      fun op kind means => acts.trans (State.actOn_peer home kind means), fun bs kind means => ?_, fun code kind means => ?_,
      fun kind means => ?_, fun serial level rank what kind means there => acts.trans (State.actOn_barrier home kind means there),
      fun serial e kind receives => ?_⟩⟩
    · rw [acts, State.actOn_route route, if_pos (by simp [low, high])]
    · rw [acts, State.actOn_route route, if_neg (by simp; omega)]
    · rw [acts, State.actOn_answer home kind (by simp [means]), means]
      rfl
    · rw [acts, State.actOn_answer home kind (by simp [means]), means]
      rfl
    · rw [acts, State.actOn_answer home kind (by simp [means]), means]
      rfl
    · refine ⟨_, acts.trans (State.actOn_line home kind), ?_⟩
      rw [State.lineComes_pod receives]
      exact ⟨rfl, rfl⟩
  case member =>
    intro port root va bytes n s own other rank sent
    refine ⟨fun reached => ?_, fun down => ?_⟩
    · obtain ⟨k, route, up⟩ := reached
      rw [exec_nodeWindowWrite_member own other, exec_nodeWindowRead_member own other, State.toPeer_sends route up,
        State.toPeer_sends route up]
      exact ⟨rfl, rfl⟩
    · rw [exec_nodeWindowWrite_member own other, exec_nodeWindowRead_member own other, State.toPeer_refused down,
        State.toPeer_refused down]
      exact ⟨rfl, rfl⟩

end Sys2Proof.Machine
end
